-- ==== Sys2Proof/Word.lean ====
section
/-!
DEFINITION. Words, octets, identifiers, and the keyed lists that hold sparse data (spec 00, R6–R9, R16).
-/

namespace Sys2Proof

/-- A word, 36 bits (R6). -/
abbrev Word := BitVec 36

/-- An octet of a nonet (R8). -/
abbrev Octet := BitVec 8

/-- An EUI-64. -/
abbrev Eui := BitVec 64

/-- Sparse data by key, keys strictly rising. -/
abbrev NMap (α : Type) := List (Nat × α)

/-- An addressed word memory: strictly rising addresses, no entry equal to 0, which is what an unlisted address
reads as. -/
abbrev Memory := List (Nat × Word)

/-- A word from a natural number, taken modulo 2³⁶. -/
abbrev W (n : Nat) : Word := BitVec.ofNat 36 n

end Sys2Proof
end

