-- ==== Sys2Proof/Machine/Tables.lean ====
section
/-!
DEFINITION. The tables a checkpoint holds and a pair ships: meter records, key blocks, ledger entries and blocks,
commands, campaigns, correlator sums and the legal state, each as its chapter lays it out.
-/

namespace Sys2Proof.Machine

/-- A route or a route candidate of a powerline meter (R147, R162): stream, next-hop slot, hops, cost, and when it was
adopted or last seen as the record keeps it. -/
structure Route where
  stream : Nat
  next   : Nat
  hops   : Nat
  cost   : Nat
  time   : Nat
deriving DecidableEq, Repr

/-- A meter record (R162). -/
structure MeterRec where
  inUse     : Bool
  pl        : Bool
  batt      : Bool
  state     : Nat
  mail      : Bool
  openTx    : Nat
  mtype     : Nat
  regN      : Nat
  eui       : Eui
  rxCtr     : Nat
  txCtr     : Nat
  keyCur    : Nat
  keyNext   : Nat
  keyNextV  : Bool
  ctrEndEv  : Bool
  campId    : Nat
  campState : Nat
  campTries : Nat
  key       : BitVec 128
  lastCsn   : Nat
  seen      : BitVec 64
  rated     : Nat
  ivlMin    : Nat
  rollExp   : Nat
  lastEnd   : Nat
  lastReg   : List Nat
  ttActive  : Nat
  ttStaged  : Nat
  stagedV   : Bool
  skew      : Int
  homeKhz   : Nat
  stream1   : Nat
  stream2   : Nat
  period    : Nat
  drift     : Nat
  window    : Nat
  offset    : Nat
  syncT     : Nat
  syncOff   : Int
  horns     : Nat
  wake      : Nat
  dlMode    : Nat
  route     : Option Route
  cands     : List Route
deriving DecidableEq, Repr

/-- A signature key block (R164). -/
structure KeyBlock where
  sigX  : BitVec 256
  odd   : Bool
  sigV  : Bool
  next  : BitVec 128
deriving DecidableEq, Repr

/-- A ledger entry (R178): header fields and body words. -/
structure Entry where
  typ     : Nat
  outcome : Nat
  reason  : Nat
  flags   : Nat
  csn     : Nat
  time    : Nat
  slot    : Option Nat
  cls     : Nat
  state   : Nat
  body    : List Word
deriving DecidableEq, Repr

/-- A ledger block (R187): header fields, entries, the hash of the block before, the signature once made, when it was
sealed, when it was last sent and how often. -/
structure Block where
  bno     : Nat
  epoch   : Nat
  first   : Nat
  last    : Nat
  sealT   : Nat
  sealBy  : Nat
  entries : List Entry
  prev    : Nat
  keyId   : Nat
  sig     : Option (Nat × Nat)
  fw      : Nat
  sealClk : Nat
  sent    : Option Nat
  resends : Nat
deriving DecidableEq, Repr

/-- A command of the command table (R202, R203, R209): identity, kind, action time, the instants of acceptance and
deadline, order of acceptance, whether it has ended, targets, meters OK and not, the latest summary's reason and CSN,
the block that holds the final one, argument words, targets not yet opened, LATE, and for a tariff push its phase
(0 STAGING, 1 CUT and WAIT, 2 SWITCH, 3 ENDED), whether a CANCEL has named it, and whether its place in the table is free again while
transactions of it still run (R203). -/
structure Cmd where
  id       : Nat
  kind     : Nat
  atS      : Nat
  accepted : Nat
  deadline : Nat
  ord      : Nat
  ended    : Bool
  targets  : Nat
  ok       : Nat
  notOk    : Nat
  reason   : Nat
  csn      : Nat
  finalBno : Nat
  args     : List Word
  waiting  : List Nat
  late     : Bool
  phase    : Nat
  cancelled : Bool
  freed    : Bool
deriving DecidableEq, Repr

/-- How far a transaction has come: open and not started, its job queued, waiting for the response, ended, or acting
on the meter's own later frame (a key switch answered by its acknowledgement, R218). -/
inductive TxnSt where
  | opened | job | resp | keyWait | ended
deriving DecidableEq, Repr

/-- A transaction (R206–R208): state, the R118 code of its last job (15 none), jobs queued, when the response wait
began, whether it is late, the meter command octet it carries, CTR_RESET, when the meter acts, its deadline, whether the
meter has its per-meter result, whether a tariff push has staged it, the EXEC_S of its response, and the meter command octets of
the transactions it came after (R208). -/
structure Txn where
  cmd    : Nat
  slot   : Nat
  st     : TxnSt
  last   : Nat
  jobs   : Nat
  wait   : Nat
  late   : Bool
  mcmd   : Nat
  reset  : Bool
  atS    : Nat
  deadline : Nat
  over'   : Bool
  staged : Bool
  exec   : Nat
  olds   : List Nat
deriving DecidableEq, Repr

/-- A member of a campaign: its target, whether it is powerline relayed, missing blocks, whether it has reported since
the round began, unicast blocks left, whether it has been queried for confirmation, blocks held, and whether its FW_QUERY asks for a
round's report (R227). -/
structure Member where
  tgt     : Nat
  relayed : Bool
  missing : List Nat
  report  : Bool
  uni     : List Nat
  asked   : Bool
  held    : Nat
  query   : Bool
deriving DecidableEq, Repr

/-- A multicast target of a campaign (R223, R226): descriptor fields, the round, the blocks still to send in it, the
union reported missing for the next, and whether a round runs, its report window runs, or rounds have ended. -/
structure Target where
  pl     : Bool
  stream : Nat
  sub    : Nat
  mode   : Nat
  gwake  : Nat
  group  : Nat
  keyIdx : Nat
  round  : Nat
  list   : List Nat
  next   : List Nat
  phase  : Nat
  since  : Nat
deriving DecidableEq, Repr

/-- A campaign (R223–R232): its command, CSTATE, descriptor, targets, group key, multicast counter, members by slot,
slots still to be armed, activation time and whether it is given later, a copy of the image, and when the next arming is due. -/
structure Camp where
  cmd     : Nat
  st      : Nat
  nb      : Nat
  quads   : Nat
  fromVer : Nat
  toVer   : Nat
  octets  : Nat
  startS  : Nat
  actS    : Nat
  later   : Bool
  image   : Memory
  rate    : Nat
  rounds  : Nat
  duty    : Nat
  uniMax  : Nat
  rptWin  : Nat
  armMin  : Nat
  confMin : Nat
  cutMin  : Nat
  hash    : List Word
  targets : List Target
  gkey    : BitVec 128
  mcCtr   : Nat
  members : NMap Member
  toArm   : List Nat
  armAt   : Nat
  deadline : Nat
deriving DecidableEq, Repr

/-- Commands and campaigns: the command table by CMD_ID, transactions by CMD_ID × 2²¹ + slot, campaigns by CAMP_ID,
and the next acceptance number. -/
structure Commands where
  tab   : NMap Cmd
  txns  : NMap Txn
  camps : NMap Camp
  ord   : Nat
deriving DecidableEq, Repr

/-- A member's correlator window (R251, R252): its start, the last contributing interval with the member's voltage
integral and the busbar means, and the sums n, Σx, Σx², and by phase Σy, Σy², Σxy. -/
structure Corr where
  start : Nat
  prev  : Option (Nat × Int × List Int)
  n     : Nat
  sx    : Int
  sx2   : Int
  sy    : List Int
  sy2   : List Int
  sxy   : List Int
deriving DecidableEq, Repr

/-- A register set (R278–R281, R288): 48 registers, 6 × tariff + register, in mWh or mvarh, with their remainders in µWh or
µvarh, GAP_TICKS, and by tariff the maximum demands as (W, end second). -/
structure RegSet where
  regs : List Nat
  rems : List Nat
  gap  : Nat
  mdi  : List (Nat × Nat)
  mde  : List (Nat × Nat)
deriving DecidableEq, Repr

/-- The check-meter state (R278–R299): register sets 0 to 8, the tariff in force, BNUM, HIGH_T, SNAP_NO, the pending
BILL_REQ, the running interval (its start, the A+ and A− totals of each set at its start, ticks measured in it, whether
it started on the grid, a stop or a step inside it, leap seconds in it), the demands of the last closed one, and the end
of the last tick. -/
structure Legal where
  sets   : List RegSet
  tariff : Nat
  bnum   : Nat
  highT  : Nat
  snapNo : Nat
  bill   : Bool
  start  : Nat
  at0    : List (Nat × Nat)
  ticks  : Nat
  grid   : Bool
  broken : Bool
  stepIn : Bool
  leapIn : Int
  dem    : List (Nat × Nat)
  tickT  : Nat
deriving DecidableEq, Repr

/-- What a checkpoint holds (R394–R396): the state after the commit CSN_AT, by section: records, key blocks, membership words, legal state,
commands and campaigns, correlator sums, and of the ledger engine the next CSN and BNO, PREV_HASH, the highest BNO acknowledged and the
announcers; of the directory the stash and the seed generation (R160, R185). Header fields: CKPT_NO, EPOCH, TIME, FW_VER, CFG_SEQ,
LEGAL_CHECK and DIR_LOG2. -/
structure Snapshot where
  no     : Nat
  epoch  : Nat
  csnAt  : Nat
  bno    : Nat
  time   : Nat
  fw     : Nat
  sv     : Nat
  cfgSeq : Nat
  legal  : Nat
  log2   : Nat
  recs   : NMap MeterRec
  keys   : NMap KeyBlock
  mem    : NMap Word
  leg    : Legal
  cmd    : Commands
  corr   : NMap Corr
  prev   : Nat
  acked  : Nat
  ann    : List (Eui × Nat)
  stash  : List (Eui × Nat)
  gen    : Nat
deriving DecidableEq, Repr

end Sys2Proof.Machine
end

