-- ==== Sys2Proof/Syntax.lean ====
section
/-!
DEFINITION. The commands: one constructor for each row of the opcode table, with the data the outside world or the
unit's own timer brings. The first operand `t` of every command is the instant at which it falls, counted on the
device's running axis in units of 2⁻³⁶ s (notes/assumptions/1.md).
-/

namespace Sys2Proof

/-- What a producer writes to a class queue in one go (R43, R46): the five tag words where the packet starts, data
words, whether the last of them ends the packet, and whether a check of the producer's own has failed by then (R47). `cls` is
the class queue a continued packet is in; a packet that starts goes by its CLASS tag. -/
structure Burst where
  tags  : Option (List Word)
  cls   : Nat
  words : List Word
  last  : Bool
  bad   : Bool
deriving DecidableEq, Repr

/-- An IEEE 802.15.4 address field of a MAC header. -/
inductive Addr where
  | none
  | short (a : Nat)
  | ext (e : Eui)
deriving DecidableEq, Repr

/-- A block as it stands on a field link (R66): its 2-bit sync header (1 for a data block, 2 for a control block) and its 64 payload
bits as the line carries them, that is scrambled, the bit sent first highest. -/
structure LineBlock where
  sync : Nat
  bits : Nat
deriving DecidableEq, Repr

/-- A link frame as it arrives (R68): its blocks from the start block up to the one before the next start block, and the instant
on the running axis at which its start block arrived. -/
structure LinkFrame where
  line : List LineBlock
  arr  : Nat
deriving DecidableEq, Repr

/-- A physical mode: SUN FSK mode table entry `n`, or SUN OFDM option `n` with its MCS and interleaving bit
(R95, R97, R98). -/
structure Phy where
  ofdm : Bool
  n    : Nat
  mcs  : Nat
  il   : Bool
deriving DecidableEq, Repr

/-- A detection as the unit keeps it (R82): antenna time tag of the end of SFD or long training field, stream, lowest subchannel,
whether the detector is a group's, mode and estimated link quality. -/
structure Detect where
  stream : Nat
  sub    : Nat
  group  : Bool
  phy    : Phy
  tag    : Nat
  lq     : Nat
deriving DecidableEq, Repr

/-- What a correlator reports (R82): the detector, the mode, the time of the end of SFD or long training field as its samples give
it (on a link Reed-head time as SEC28 and FRAC, on a local port device time), the correlation in 0.25 dB below full scale, and the
estimated signal-to-noise ratio in 0.25 dB. -/
structure Heard where
  stream : Nat
  sub    : Nat
  group  : Bool
  phy    : Phy
  raw    : Nat
  corr   : Nat
  snr    : Int
deriving DecidableEq, Repr

/-- One control message of a link frame's control area (R71): its TYPE octet, its LEN octet and the payload octets that stand
before the end of the area. -/
structure CtrlMsg where
  typ     : Nat
  len     : Nat
  payload : List Octet
deriving DecidableEq, Repr

/-- A decoded PHY header (R96–R98): mode-switch bit, the two marking bits 14:13, 2-octet FCS, PSDU length, and for
OFDM the MCS and the interleaving bit. -/
structure Phr where
  modeSwitch : Bool
  mark       : Nat
  fcs2       : Bool
  len        : Nat
  mcs        : Nat
  il         : Bool
deriving DecidableEq, Repr

/-- A MAC header (R100): frame type (1 data, 2 acknowledgement, 3 MAC command), frame version, security-enabled and
AR bits, sequence number, destination PAN, addresses, and the header's length in octets. -/
structure MacHdr where
  ftype   : Nat
  version : Nat
  sec     : Bool
  ar      : Bool
  seq     : Nat
  dstPan  : Option Nat
  dst     : Addr
  src     : Addr
  octets  : Nat
deriving DecidableEq, Repr

/-- A frame at its end as a lane has demodulated it (R99): the time of the frame end as its samples give it (as in a detection), the
final signal-to-noise ratio in 0.25 dB, and the PSDU octets, FCS included. -/
structure RxEnd where
  raw  : Nat
  snr  : Int
  psdu : List Octet
deriving DecidableEq, Repr

/-- What a lane has of a frame whose checks pass (R90, R103–R106): the antenna time of its end, the FCS value, key index and frame
counter, the final link quality, the octets R105 writes to the queue and how many of them are MAC and auxiliary headers. -/
structure RxDone where
  endT   : Nat
  fcsVal : Nat
  keyIdx : Nat
  fctr   : Nat
  lq     : Nat
  octets : List Octet
  hdrLen : Nat
deriving DecidableEq, Repr

/-- An acknowledgement frame heard by a lane in AWAIT (R117): its PSDU octets, whether its FCS has 2 octets, and the time its SHR
ended as the samples give it. -/
structure AckHeard where
  psdu : List Octet
  fcs2 : Bool
  raw  : Nat
deriving DecidableEq, Repr

/-- A preamble a powerline lane detects (R135, R138): the time of its end as the samples give it, the correlation in 0.25 dB below
full scale, and the estimated signal-to-noise ratio in 0.25 dB. -/
structure PlHeard where
  raw  : Nat
  corr : Nat
  snr  : Int
deriving DecidableEq, Repr

/-- A powerline frame at its end as the lane has demodulated it (R135–R141): whether its frame control header's check passes, whether
that header asks for a tone map, the payload's modulation (0 ROBO, 1 DBPSK, 2 DQPSK, 3 D8PSK), the number of its MAC segment and
whether it is the last, the time of the frame end as the samples give it, the signal-to-noise ratio over the payload in 0.25 dB, and the
octets of the MAC segment, its 2-octet FCS included. -/
structure PlFrame where
  fchOk : Bool
  tmReq : Bool
  modn  : Nat
  seg   : Nat
  last  : Bool
  raw   : Nat
  snr   : Int
  psdu  : List Octet
deriving DecidableEq, Repr

/-- An unsecured 0xD1 reply during a sweep (R152): its sender, payload octets and link quality. -/
structure SweepReply where
  src  : Eui
  octets : List Octet
  lq   : Nat
deriving DecidableEq, Repr

/-- A COMMAND message as it arrives (R345–R347): its MSG_SEQ, CMD_ID, KIND, FORM, DEADLINE_S, AT_S, the two counts, and the words
that follow the four of the body. -/
structure CmdMsg where
  ref      : Nat
  id       : Nat
  kind     : Nat
  form     : Nat
  deadline : Nat
  atS      : Nat
  argWords : Nat
  tgtWords : Nat
  rest     : List Word
deriving DecidableEq, Repr

/-- What an Announce says of a grandmaster and of its sender (R309): GM identity, priority 1, class, accuracy, variance,
priority 2, steps removed, sender's clock identity and port number. -/
structure Foreign where
  gm     : Nat
  prio1  : Nat
  cls    : Nat
  acc    : Nat
  var    : Nat
  prio2  : Nat
  steps  : Nat
  sender : Nat
  sport  : Nat
deriving DecidableEq, Repr

/-- A CONTROL message (R349): its MSG_SEQ, OP, REQ_ID, ARG as a double word and FLAG. -/
structure Control where
  ref  : Nat
  op   : Nat
  req  : Nat
  arg  : Nat
  flag : Bool
deriving DecidableEq, Repr

/-- An OBJ_READ (R351): its MSG_SEQ, REQ_ID, REGION, OFFSET, COUNT. -/
structure ObjRead where
  ref    : Nat
  req    : Nat
  region : Nat
  offset : Nat
  count  : Nat
deriving DecidableEq, Repr

/-- An OBJ_WRITE (R353): its MSG_SEQ, REQ_ID, REGION, OFFSET, COUNT and the data words. -/
structure ObjWrite where
  ref    : Nat
  req    : Nat
  region : Nat
  offset : Nat
  count  : Nat
  data   : List Word
deriving DecidableEq, Repr

/-- What brings a CXP segment (R330, R335, R460): sender (0 head end, 1 peer), port (0 A, 1 B, 2 the pair link); on a port whether the
datagram came in fragments, and the record's plaintext; on the pair link the blocks from start to terminate, as the line carries them. -/
structure Segment where
  peer   : Nat
  port   : Nat
  frag   : Bool
  octets : List Octet
  line   : List LineBlock
deriving DecidableEq, Repr

/-- What a peer's certificate shows (R483): the public key at which its chain ends, as octets, its serial number, and its own public key as
x and the parity of y. -/
structure Cert where
  root   : List Octet
  serial : Nat
  key    : Nat × Bool
deriving DecidableEq, Repr

/-- What a DRAM channel holds (R539): devices 8 or 16 bits wide, their density in Gbit, and ranks. -/
structure DramOrg where
  width : Nat
  gbit  : Nat
  ranks : Nat
deriving DecidableEq, Repr

/-- What a start finds outside the block's own state (R437–R456): the dies that do not answer and whether the MAP is valid; the rated cycles
of the parameter pages; the organisation that DRAM training finds on each channel; and whether a state migration can complete. -/
structure StartFacts where
  missing : List Nat
  mapOk   : Bool
  endur   : Nat
  dram    : DramOrg × DramOrg
  migOk   : Bool
deriving DecidableEq, Repr

/-- What a checkpoint part carries of a section (R396, R462): words where the spec gives the section's layout (types 1, 2, 3, 4 and 9), and
the tables themselves where it does not (types 5 to 8; notes/assumptions/68.md). -/
inductive SectBody where
  | words (ws : List Word)
  | legal (x : Machine.Legal)
  | camps (x : NMap Machine.Camp)
  | cmds (tab : NMap Machine.Cmd) (txns : NMap Machine.Txn) (ord : Nat)
  | corr (x : NMap Machine.Corr)
deriving DecidableEq, Repr

/-- A checkpoint part (R462): CKPT_NO, PART, TYPE, LAST, OFFSET and WORDS of its header, and what follows it. -/
structure CkptPart where
  no   : Nat
  part : Nat
  typ  : Nat
  last : Bool
  off  : Nat
  n    : Nat
  body : SectBody
deriving DecidableEq, Repr

/-- The commands and events of the block, one constructor per row of the opcode table. -/
inductive Instr where
  /-- PACKET_WRITE, R43. -/
  | packetWrite (t : Nat) (g : Nat) (b : Burst)
  /-- STALE_TIMEOUT, R48. -/
  | staleTimeout (t : Nat) (g c : Nat)
  /-- FLUSH, R49. -/
  | flush (t : Nat) (g c : Nat)
  /-- MIRE_FILL, R53. -/
  | mireFill (t : Nat) (g c : Nat) (bad : Option Nat)
  /-- LINK_FRAME_SEND, R68. -/
  | linkFrameSend (t : Nat) (link : Nat)
  /-- LINK_FRAME, R70. -/
  | linkFrame (t : Nat) (link : Nat) (f : LinkFrame)
  /-- DELAY_REQ, R73. -/
  | delayReq (t : Nat) (link : Nat)
  /-- DELAY_RESP, R73. -/
  | delayResp (t : Nat) (link t1 t2 t3 t4 : Nat)
  /-- STATUS, R72. -/
  | status (t : Nat) (link : Nat) (body : List Octet)
  /-- ALARM, R72. -/
  | alarm (t : Nat) (link bits : Nat)
  /-- REED_SILENT, R72. -/
  | reedSilent (t : Nat) (link : Nat)
  /-- BLOCK_LOCK, R75. -/
  | blockLock (t : Nat) (link : Nat) (line : List LineBlock)
  /-- BLOCK_LOCK_LOST, R75. -/
  | blockLockLost (t : Nat) (link : Nat) (line : List LineBlock)
  /-- ALIGN_TIMEOUT, R75. -/
  | alignTimeout (t : Nat) (link : Nat)
  /-- LOST_TIMEOUT, R75. -/
  | lostTimeout (t : Nat) (link : Nat)
  /-- START_BLOCK_TIMEOUT, R75. -/
  | startBlockTimeout (t : Nat) (link : Nat)
  /-- STREAM_GAIN_CHANGE, R63. -/
  | streamGainChange (t : Nat) (stream gain : Nat)
  /-- DETECTION, R82. -/
  | detection (t : Nat) (x : Heard)
  /-- PHR_CLASS_MARK, R83. -/
  | phrClassMark (t : Nat) (stream sub mark : Nat)
  /-- PENDING_GRANT, R85. -/
  | pendingGrant (t : Nat)
  /-- STARVED, R85. -/
  | starved (t : Nat) (stream sub : Nat) (group : Bool)
  /-- PHR_DECODED, R96. -/
  | phrDecoded (t : Nat) (lane : Nat) (p : Phr)
  /-- MAC_HEADER_COMPLETE, R100. -/
  | macHeaderComplete (t : Nat) (lane : Nat) (os : List Octet)
  /-- DIRECTORY_LOOKUP, R159. -/
  | directoryLookup (t : Nat) (lane : Nat)
  /-- FRAME_END, R99. -/
  | frameEnd (t : Nat) (lane : Nat) (e : RxEnd)
  /-- HOLD_CLOSE, R90. -/
  | holdClose (t : Nat) (pl : Bool) (grp : Nat)
  /-- ACK_START, R108. -/
  | ackStart (t : Nat) (lane : Nat)
  /-- ACK_END, R99. -/
  | ackEnd (t : Nat) (lane : Nat)
  /-- MAIL_WINDOW_END, R110. -/
  | mailWindowEnd (t : Nat) (slot : Nat)
  /-- JOB_TABLE_ENTRY, R113. -/
  | jobTableEntry (t : Nat)
  /-- JOB_ASSIGN, R115. -/
  | jobAssign (t : Nat)
  /-- BACKOFF_END, R116. -/
  | backoffEnd (t : Nat) (lane : Nat)
  /-- CCA_END, R116. -/
  | ccaEnd (t : Nat) (lane : Nat) (powers : List Nat)
  /-- SLOTTED_CCA, R126. -/
  | slottedCca (t : Nat) (job : Nat)
  /-- TX_START, R116. -/
  | txStart (t : Nat) (lane : Nat)
  /-- BLANK_END, R92. -/
  | blankEnd (t : Nat) (stream : Nat)
  /-- TX_END, R99. -/
  | txEnd (t : Nat) (lane : Nat)
  /-- ACK_RECEIVED, R117. -/
  | ackReceived (t : Nat) (lane : Nat) (a : AckHeard)
  /-- ACK_WAIT_TIMEOUT, R117. -/
  | ackWaitTimeout (t : Nat) (lane : Nat)
  /-- JOB_DEADLINE, R113. -/
  | jobDeadline (t : Nat) (pl : Bool) (job : Nat)
  /-- DWELL_BUCKET, R121. -/
  | dwellBucket (t : Nat) (stream chan : Nat)
  /-- HORN_LISTEN_START, R129. -/
  | hornListenStart (t : Nat) (slot : Nat)
  /-- HORN_LISTEN_END, R129. -/
  | hornListenEnd (t : Nat) (slot : Nat)
  /-- HORN_COUNT_RESET, R128. -/
  | hornCountReset (t : Nat)
  /-- PL_PREAMBLE, R135. -/
  | plPreamble (t : Nat) (lane : Nat) (x : PlHeard)
  /-- PL_FRAME_END, R135. -/
  | plFrameEnd (t : Nat) (lane : Nat) (f : PlFrame)
  /-- REASM_TIMEOUT, R141. -/
  | reasmTimeout (t : Nat) (stream : Nat) (orig : Eui) (tag : Nat)
  /-- PL_RESP_START, R143. -/
  | plRespStart (t : Nat) (lane : Nat)
  /-- PL_RESP_END, R135. -/
  | plRespEnd (t : Nat) (lane : Nat)
  /-- PL_ACCESS_SLOT, R144. -/
  | plAccessSlot (t : Nat) (lane : Nat)
  /-- PL_TX_END, R135. -/
  | plTxEnd (t : Nat) (lane : Nat)
  /-- PL_RESPONSE, R135. -/
  | plResponse (t : Nat) (lane : Nat) (ack : Bool) (check : Nat)
  /-- PL_AWAIT_TIMEOUT, R135. -/
  | plAwaitTimeout (t : Nat) (lane : Nat)
  /-- ROUTE_RECOMPUTE, R149. -/
  | routeRecompute (t : Nat)
  /-- ROUTE_REQUEST, R149. -/
  | routeRequest (t : Nat) (slot : Nat)
  /-- SWEEP_PERIOD, R151. -/
  | sweepPeriod (t : Nat) (stream : Nat)
  /-- SWEEP_REPLY, R152. -/
  | sweepReply (t : Nat) (stream : Nat) (r : SweepReply)
  /-- SWEEP_WINDOW_END, R153. -/
  | sweepWindowEnd (t : Nat) (stream : Nat)
  /-- VALIDATE_FRAME, R173. -/
  | validateFrame (t : Nat) (pl : Bool)
  /-- VERIFY_DONE, R173. -/
  | verifyDone (t : Nat) (slot : Nat)
  /-- INDEX_LOOKUP, R174. -/
  | indexLookup (t : Nat) (slot : Nat)
  /-- COMMIT, R186. -/
  | commit (t : Nat)
  /-- BLOCK_TIME_LIMIT, R189. -/
  | blockTimeLimit (t : Nat)
  /-- BLOCK_SIGNED, R189. -/
  | blockSigned (t : Nat)
  /-- STALE_SCAN, R166. -/
  | staleScan (t : Nat)
  /-- REBUILD_WALK_DONE, R196. -/
  | rebuildWalkDone (t : Nat) (err : Bool)
  /-- REBUILD_RELEASE_END, R196. -/
  | rebuildReleaseEnd (t : Nat)
  /-- REBUILD_ABORT, R196. -/
  | rebuildAbort (t : Nat)
  /-- READ, R215. -/
  | read (t : Nat) (m : CmdMsg)
  /-- DISCONNECT, R216. -/
  | disconnect (t : Nat) (m : CmdMsg)
  /-- RECONNECT, R216. -/
  | reconnect (t : Nat) (m : CmdMsg)
  /-- TARIFF_PUSH, R221. -/
  | tariffPush (t : Nat) (m : CmdMsg)
  /-- KEY_ROTATE, R217. -/
  | keyRotate (t : Nat) (m : CmdMsg)
  /-- CAMPAIGN_CREATE, R223. -/
  | campaignCreate (t : Nat) (m : CmdMsg)
  /-- CAMPAIGN_START, R223. -/
  | campaignStart (t : Nat) (m : CmdMsg)
  /-- CAMPAIGN_ACTIVATE, R229. -/
  | campaignActivate (t : Nat) (m : CmdMsg)
  /-- CAMPAIGN_CANCEL, R228. -/
  | campaignCancel (t : Nat) (m : CmdMsg)
  /-- CANCEL, R209. -/
  | cancel (t : Nat) (m : CmdMsg)
  /-- ENROL, R161. -/
  | enrol (t : Nat) (m : CmdMsg)
  /-- REMOVE, R161. -/
  | remove (t : Nat) (m : CmdMsg)
  /-- CLEAR_QUAR, R210. -/
  | clearQuar (t : Nat) (m : CmdMsg)
  /-- REBUILD, R195. -/
  | rebuild (t : Nat) (m : CmdMsg)
  /-- SWEEP_START, R151. -/
  | sweepStart (t : Nat) (m : CmdMsg)
  /-- SWEEP_STOP, R154. -/
  | sweepStop (t : Nat) (m : CmdMsg)
  /-- TRANSACTION_OPEN, R206. -/
  | transactionOpen (t : Nat) (cmd slot : Nat)
  /-- RESP_WAIT_EXPIRY, R207. -/
  | respWaitExpiry (t : Nat) (cmd slot : Nat)
  /-- TRANSACTION_DEADLINE, R207. -/
  | transactionDeadline (t : Nat) (cmd slot : Nat)
  /-- TARIFF_CUT, R221. -/
  | tariffCut (t : Nat) (cmd : Nat)
  /-- TARIFF_SWITCH, R221. -/
  | tariffSwitch (t : Nat) (cmd : Nat)
  /-- ARMING, R228. -/
  | arming (t : Nat) (camp : Nat)
  /-- ROUND_START, R226. -/
  | roundStart (t : Nat) (camp tgt : Nat)
  /-- REPORT_WINDOW_END, R227. -/
  | reportWindowEnd (t : Nat) (camp tgt : Nat)
  /-- ACT_CUTOFF, R228. -/
  | actCutoff (t : Nat) (camp : Nat)
  /-- CONFIRM_QUERY, R228. -/
  | confirmQuery (t : Nat) (camp slot : Nat)
  /-- NO_CONFIRM, R228. -/
  | noConfirm (t : Nat) (camp slot : Nat)
  /-- CAMPAIGN_DEADLINE, R229. -/
  | campaignDeadline (t : Nat) (camp : Nat)
  /-- MEMBERSHIP_WRITE, R240. -/
  | membershipWrite (t : Nat) (w : ObjWrite)
  /-- ZONE_REFERENCE, R243. -/
  | zoneReference (t : Nat) (z endS : Nat)
  /-- BAL_WAIT_EXPIRY, R244. -/
  | balWaitExpiry (t : Nat) (z endS : Nat)
  /-- CORRELATOR_RUN, R252. -/
  | correlatorRun (t : Nat)
  /-- CHANGE_BOUNDARY, R265. -/
  | changeBoundary (t : Nat)
  /-- SYNC_DEC, R267. -/
  | syncDec (t : Nat) (rising : Bool)
  /-- METRO_RESET, R268. -/
  | metroReset (t : Nat) (c : Control)
  /-- METROLOGY_WRITE, R271. -/
  | metrologyWrite (t : Nat) (w : ObjWrite)
  /-- TICK_END, R273. -/
  | tickEnd (t : Nat)
  /-- BOUNDARY, R292. -/
  | boundary (t : Nat)
  /-- BILL_REQ, R289. -/
  | billReq (t : Nat) (w : ObjWrite)
  /-- BUTTON_PRESS, R304. -/
  | buttonPress (t : Nat)
  /-- SCROLL_ADVANCE, R304. -/
  | scrollAdvance (t : Nat)
  /-- SCROLL_RESUME, R304. -/
  | scrollResume (t : Nat)
  /-- ANNOUNCE, R309. -/
  | announce (t : Nat) (p dom : Nat) (f : Foreign) (utc : Option Nat) (leap : Option Bool)
  /-- SYNC, R309. -/
  | sync (t : Nat) (p dom seq : Nat) (t1 : Option Int)
  /-- PTP_DELAY_REQ, R309. -/
  | ptpDelayReq (t : Nat) (p : Nat)
  /-- PTP_DELAY_RESP, R312. -/
  | ptpDelayResp (t : Nat) (p dom seq : Nat) (t4 : Int)
  /-- SYNC_SEND, R310. -/
  | syncSend (t : Nat) (p : Nat)
  /-- SYNC_TIMEOUT, R307. -/
  | syncTimeout (t : Nat)
  /-- STEP_TAKE_EFFECT, R315. -/
  | stepTakeEffect (t : Nat)
  /-- TIME_STEP, R318. -/
  | timeStep (t : Nat) (c : Control)
  /-- TIME_SET, R318. -/
  | timeSet (t : Nat) (c : Control)
  /-- LEAP, R322. -/
  | leap (t : Nat) (c : Control)
  /-- LEAP_SECOND, R322. -/
  | leapSecond (t : Nat)
  /-- START_WAIT_EXPIRY, R321. -/
  | startWaitExpiry (t : Nat)
  /-- BEACON, R325. -/
  | beacon (t : Nat) (stream : Nat) (pl : Bool)
  /-- RTC_MEASURE, R327. -/
  | rtcMeasure (t : Nat) (err temp : Int)
  /-- OUTAGE_RTC_UPDATE, R327. -/
  | outageRtcUpdate (t : Nat) (raw : Nat) (temp : Int)
  /-- PPS, R326. -/
  | pps (t : Nat)
  /-- CYCLE_PULSE, R326. -/
  | cyclePulse (t : Nat)
  /-- TSQ_EXPIRED, R311. -/
  | tsqExpired (t : Nat) (p id : Nat)
  /-- MIRROR_READ, R363. -/
  | mirrorRead (t : Nat) (addr : Nat)
  /-- MIRROR_HOLD_RELEASE, R365. -/
  | mirrorHoldRelease (t : Nat)
  /-- MIRROR_FLIP, R364. -/
  | mirrorFlip (t : Nat)
  /-- MIRROR_HOLD, R366. -/
  | mirrorHold (t : Nat)
  /-- PORT_LINK_UP, R334. -/
  | portLinkUp (t : Nat) (port : Nat)
  /-- PORT_LINK_DOWN, R334. -/
  | portLinkDown (t : Nat) (port : Nat)
  /-- HANDSHAKE_DONE, R334. -/
  | handshakeDone (t : Nat) (sess : Nat) (c : Cert)
  /-- HANDSHAKE_TIMEOUT, R334. -/
  | handshakeTimeout (t : Nat) (sess : Nat) (failed : Bool)
  /-- SESSION_TIMEOUT, R334. -/
  | sessionTimeout (t : Nat) (sess : Nat)
  /-- SESSION_BACKOFF_END, R334. -/
  | sessionBackoffEnd (t : Nat) (sess : Nat)
  /-- KEY_UPDATE, R333. -/
  | keyUpdate (t : Nat) (sess : Nat)
  /-- CXP_SEGMENT, R339. -/
  | cxpSegment (t : Nat) (g : Segment)
  /-- REASM_TO, R337. -/
  | reasmTo (t : Nat) (peer seq : Nat)
  /-- LEDGER_ACK, R343. -/
  | ledgerAck (t : Nat) (port ref bno csn : Nat)
  /-- BLOCK_REQ, R344. -/
  | blockReq (t : Nat) (ref first last : Nat)
  /-- LEDGER_BLOCK, R341. -/
  | ledgerBlock (t : Nat) (ref : Nat) (ws : List Word)
  /-- BLOCK_RESEND, R342. -/
  | blockResend (t : Nat) (bno : Nat)
  /-- OBJ_READ, R351. -/
  | objRead (t : Nat) (r : ObjRead)
  /-- OBJ_WRITE, R353. -/
  | objWrite (t : Nat) (w : ObjWrite)
  /-- RECORD_WRITE, R353. -/
  | recordWrite (t : Nat) (w : ObjWrite)
  /-- EVENT_READ, R355. -/
  | eventRead (t : Nat) (ref req cursor count : Nat)
  /-- HEARTBEAT, R356. -/
  | heartbeat (t : Nat)
  /-- LEASE, R356. -/
  | lease (t : Nat) (req epoch : Nat) (grant fence : Bool)
  /-- LEASE_EXPIRY, R356. -/
  | leaseExpiry (t : Nat)
  /-- PAIR_HB_SEND, R357. -/
  | pairHbSend (t : Nat)
  /-- PAIR_HB, R464. -/
  | pairHb (t : Nat) (path role : Nat) (healthy : Bool) (epoch csn : Nat) (swap : Bool)
  /-- LAST_GASP, R358. -/
  | lastGasp (t : Nat) (body : List Word)
  /-- CONFIG_CHECK, R442. -/
  | configCheck (t : Nat) (w : ObjWrite)
  /-- CONFIG_INSTALL, R441. -/
  | configInstall (t : Nat) (w : ObjWrite)
  /-- CONFIG_CLEAR, R442. -/
  | configClear (t : Nat) (w : ObjWrite)
  /-- CONFIG_WRITE_DONE, R441. -/
  | configWriteDone (t : Nat) (ok : Bool)
  /-- FW_APPLY, R448. -/
  | fwApply (t : Nat) (w : ObjWrite)
  /-- FW_CLEAR, R448. -/
  | fwClear (t : Nat) (w : ObjWrite)
  /-- FW_ABORT, R448. -/
  | fwAbort (t : Nat) (w : ObjWrite)
  /-- FW_BUILD_DONE, R449. -/
  | fwBuildDone (t : Nat) (bad nor : Option Nat)
  /-- FW_VERIFY_DONE, R449. -/
  | fwVerifyDone (t : Nat)
  /-- WARM_RESTART, R445. -/
  | warmRestart (t : Nat) (c : Control)
  /-- WARM_RESTART_FIRMWARE, R445. -/
  | warmRestartFirmware (t : Nat) (c : Control)
  /-- WARM_RESTART_LEGAL, R445. -/
  | warmRestartLegal (t : Nat) (c : Control)
  /-- WARM_RESTART_RESUME, R445. -/
  | warmRestartResume (t : Nat)
  /-- SWAP, R473. -/
  | swap (t : Nat) (c : Control)
  /-- STORE_WRITE, R391. -/
  | storeWrite (t : Nat)
  /-- CHECKPOINT, R394. -/
  | checkpoint (t : Nat)
  /-- CHECKPOINT_VALID, R394. -/
  | checkpointValid (t : Nat)
  /-- STRIPE_TIMEOUT, R383. -/
  | stripeTimeout (t : Nat)
  /-- SCRUB, R385. -/
  | scrub (t : Nat) (band stripe die : Nat) (plain : Option (List Nat)) (sets : NMap (List Nat)) (dead : List Nat)
  /-- DIE_LOST, R386. -/
  | dieLost (t : Nat) (die : Nat)
  /-- STORE_COPY_DONE, R387. -/
  | storeCopyDone (t : Nat)
  /-- DAY_INDEX, R390. -/
  | dayIndex (t : Nat) (day : Nat)
  /-- ARCHIVE_EXPIRY, R389. -/
  | archiveExpiry (t : Nat)
  /-- DISCARD_DONE, R398. -/
  | discardDone (t : Nat) (slot : Option Nat)
  /-- DISCARD_TIMEOUT, R399. -/
  | discardTimeout (t : Nat) (slot : Option Nat) (erase : Bool)
  /-- EVENT_INTAKE, R404. -/
  | eventIntake (t : Nat)
  /-- EVENT_FORMAT, R405. -/
  | eventFormat (t : Nat)
  /-- MAINS_LOSS, R425. -/
  | mainsLoss (t : Nat)
  /-- LAST_GASP_REPEAT, R358. -/
  | lastGaspRepeat (t : Nat)
  /-- HOLDUP_METRO_END, R426. -/
  | holdupMetroEnd (t : Nat)
  /-- HOLDUP_SEAL, R426. -/
  | holdupSeal (t : Nat)
  /-- HOLDUP_STORE_DONE, R426. -/
  | holdupStoreDone (t : Nat)
  /-- HOLDUP_END, R426. -/
  | holdupEnd (t : Nat)
  /-- HOLD_CRIT, R430. -/
  | holdCrit (t : Nat)
  /-- COMPARATOR_CROSSING, R424. -/
  | comparatorCrossing (t : Nat) (chan : Nat) (up : Bool)
  /-- BAND_FILTERED, R424. -/
  | bandFiltered (t : Nat) (chan : Nat) (above : Nat)
  /-- TAMPER, R488. -/
  | tamper (t : Nat) (chan : Nat)
  /-- DOMAIN_READY, R419. -/
  | domainReady (t : Nat) (dom : Nat)
  /-- WAKE_FAIL, R419. -/
  | wakeFail (t : Nat) (dom : Nat)
  /-- DOMAIN_IDLE, R420. -/
  | domainIdle (t : Nat) (dom : Nat)
  /-- CLOSE_DONE, R419. -/
  | closeDone (t : Nat) (dom : Nat)
  /-- SWITCH_DONE, R419. -/
  | switchDone (t : Nat) (dom : Nat)
  /-- SUPPLIES_GOOD, R532. -/
  | suppliesGood (t : Nat)
  /-- SUPPLY_TIMEOUT, R532. -/
  | supplyTimeout (t : Nat)
  /-- SUPPLY_FAULT, R534. -/
  | supplyFault (t : Nat)
  /-- THERMAL_TRIP, R535. -/
  | thermalTrip (t : Nat)
  /-- COLD_START, R444. -/
  | coldStart (t : Nat) (f : StartFacts)
  /-- LEDGER_READY, R433. -/
  | ledgerReady (t : Nat)
  /-- TRIAL_CONFIRM, R451. -/
  | trialConfirm (t : Nat) (revoke : Option Nat)
  /-- TRIAL_TIMEOUT, R451. -/
  | trialTimeout (t : Nat)
  /-- HB_INTERVAL, R464. -/
  | hbInterval (t : Nat)
  /-- PEER_WAIT_EXPIRY, R464. -/
  | peerWaitExpiry (t : Nat)
  /-- SHIP_RETRY, R461. -/
  | shipRetry (t : Nat)
  /-- CKPT_SHIP, R462. -/
  | ckptShip (t : Nat) (p : CkptPart)
  /-- TAKEOVER_TIMEOUT, R467. -/
  | takeoverTimeout (t : Nat)
  /-- AUTO_RETURN, R472. -/
  | autoReturn (t : Nat)
  /-- HANDOVER_TIMEOUT, R467. -/
  | handoverTimeout (t : Nat)
  /-- DISPLAY_COMMIT, R495. -/
  | displayCommit (t : Nat) (addr mode : Nat) (image : List Word) (temp : Int)
  /-- FRAME_TICK, R493. -/
  | frameTick (t : Nat) (temp : Int)
  /-- RAILS_READY, R498. -/
  | railsReady (t : Nat)
  /-- RAIL_FAULT, R498. -/
  | railFault (t : Nat)
  /-- RAIL_HOLD_EXPIRY, R499. -/
  | railHoldExpiry (t : Nat)
  /-- DISCHARGE_DONE, R498. -/
  | dischargeDone (t : Nat) (temp : Int)
  /-- TEMP_RECHECK, R497. -/
  | tempRecheck (t : Nat) (temp : Int)
  /-- UART_REQUEST, R517. -/
  | uartRequest (t : Nat) (u : Nat) (os : List Octet) (bad : Bool)
  /-- UART_GAP, R517. -/
  | uartGap (t : Nat) (u : Nat)
  /-- CARD_INSERT, R519. -/
  | cardInsert (t : Nat)
  /-- CARD_REMOVE, R519. -/
  | cardRemove (t : Nat)
  /-- CARD_IDENTIFIED, R523. -/
  | cardIdentified (t : Nat) (blk : Option (List Octet)) (blocks : Nat) (fresh : Bool)
  /-- CARD_VERIFY_DONE, R524. -/
  | cardVerifyDone (t : Nat) (last : Option (List Octet))
  /-- CARD_IMPORT_DONE, R525. -/
  | cardImportDone (t : Nat) (blks : Option (List (List Octet)))
  /-- LOG_BLOCK_DUE, R522. -/
  | logBlockDue (t : Nat)
  /-- CARD_WRITE_CONFIRMED, R524. -/
  | cardWriteConfirmed (t : Nat)
  /-- CARD_BUSY_TIMEOUT, R523. -/
  | cardBusyTimeout (t : Nat) (err : Bool)
  /-- CORE_WATCHDOG, R30. -/
  | coreWatchdog (t : Nat)
  /-- EPOCH_HOLD, R365. -/
  | epochHold (t : Nat)
  /-- VBAK_LOW, R432. -/
  | vbakLow (t : Nat) (low : Bool)
  /-- VBAK_LOSS, R432. -/
  | vbakLoss (t : Nat)
  /-- ANNOUNCE_RECEIPT_TIMEOUT, R309. -/
  | announceReceiptTimeout (t : Nat) (p : Nat)
  /-- FOLLOW_UP, R308. -/
  | followUp (t : Nat) (p dom seq : Nat) (t1 : Int)
  /-- ANNOUNCE_SEND, R309. -/
  | announceSend (t : Nat) (p : Nat)
  /-- PTP_DELAY_REQ_RECEIVED, R308. -/
  | ptpDelayReqReceived (t : Nat) (p dom seq sender sport : Nat)
  /-- FATAL_ALERT, R334. -/
  | fatalAlert (t : Nat) (sess : Nat)
  /-- ARP_REQUEST, R330. -/
  | arpRequest (t : Nat) (port : Nat) (addr : Nat)
  /-- ECHO_REQUEST, R330. -/
  | echoRequest (t : Nat) (port : Nat) (body : List Octet)
  /-- PAGE_PROGRAM_DONE, R400. -/
  | pageProgramDone (t : Nat) (die temp : Nat) (ok : Bool)
  /-- PAIR_BLOCK_LOCK, R460. -/
  | pairBlockLock (t : Nat) (line : List LineBlock)
  /-- PAIR_BLOCK_LOCK_LOST, R460. -/
  | pairBlockLockLost (t : Nat) (line : List LineBlock)
deriving DecidableEq, Repr

end Sys2Proof
end

