-- ==== Sys2Proof/Decode.lean ====
section
/-!
DEFINITION. Commands as words of the opcode table: the table gives no row any bits, so no word spells a command.
-/

namespace Sys2Proof

/-- The command that a word of `nbits` bits spells by the table's bits. No row of the table has bits. -/
def decodeTableWord (_nbits _w : Nat) : Option Instr := none

end Sys2Proof
end

