-- ==== Sys2Proof/Config.lean ====
section
/-!
DEFINITION. What an implementation fixes and the free values. A free value is a constant with no body: nothing can be
proved of what it is. Each is named in the assumption log.
-/

namespace Sys2Proof

/-- The draws of the device's random source, by their number: seeds, displaced tables and backoffs (R116, R144, R158,
R160). Free value, notes/assumptions/4.md. -/
opaque Config.random : Nat → Nat

/-- The private half of the identity key that the fuse root gives (R479): the spec does not give the derivation. Free value,
notes/assumptions/6.md. -/
opaque Config.identityKey : Nat → Nat

/-- The per-signature number of an ECDSA signature, by the digest and the draws of the random source so far. Free value,
notes/assumptions/6.md. -/
opaque Config.nonce : Nat → Nat → Nat

/-- The converter codes (I, Q) of a local RF port at a sample of the device-time grid (R61, R62): what the antenna receives. Free value,
notes/assumptions/39.md. -/
opaque Config.rfConverter : Nat → Nat → Nat × Nat

/-- The converter code of a local powerline front end at a sample of the device-time grid (R131). Free value,
notes/assumptions/39.md. -/
opaque Config.plConverter : Nat → Nat → Nat

/-- The power average of a usable bin over a millisecond of device time, by stream, bin and millisecond, in 0.25 dB below full scale
(R81): the spec does not give the channeliser's filters. Free value, notes/assumptions/39.md. -/
opaque Config.binPower : Nat → Nat → Nat → Nat

/-- The samples (I, Q) of a transmission, by mode, offset from the stream's centre in Hz, octets sent and sample number: the spec leaves
modulation to its standards (R64, R95, R97, R127). Free value, notes/assumptions/39.md. -/
opaque Config.waveform : Nat → Int → List Octet → Nat → Int × Int

/-- The samples of a powerline transmission, by band, mask of carriers not used, modulation, attenuation in dB, octets sent and sample
number (R131, R132, R136). Free value, notes/assumptions/39.md. -/
opaque Config.plWaveform : Nat → Nat → Nat → Nat → List Octet → Nat → Int

/-- Samples of an OFDM symbol at 1.2 MS/s, by band (1 FCC): the spec leaves it to G.9903 (R139). Free value,
notes/assumptions/7.md. -/
opaque Config.plSymbol : Nat → Nat

/-- What a tone map response of the device says (R136): modulation and carriers used as its ten octets, by stream and link quality. Free
value, notes/assumptions/7.md. -/
opaque Config.toneMap : Nat → Nat → Nat

/-- Air time in µs of a SUN OFDM frame, by option, MCS, interleaving and PSDU octets: the spec gives no OFDM symbol
structure. Free value, notes/assumptions/7.md. -/
opaque Config.ofdmAirUs : Nat → Nat → Bool → Nat → Nat

/-- Duration in µs of the preamble and training fields of a SUN OFDM option. Free value, notes/assumptions/7.md. -/
opaque Config.ofdmShrUs : Nat → Nat

/-- Air time in µs of a G.9903 frame, by band (1 FCC), mask of carriers not used, modulation and octets: the spec leaves it to that
standard. Free value, notes/assumptions/7.md. -/
opaque Config.plAirUs : Nat → Nat → Nat → Nat → Nat

/-- Duration in µs of a G.9903 preamble, by band. Free value, notes/assumptions/7.md. -/
opaque Config.plPreUs : Nat → Nat

/-- Air time in µs of a G.9903 ACK or NACK, by band. Free value, notes/assumptions/7.md. -/
opaque Config.plRespUs : Nat → Nat

/-- Whether discarded data can still be found after a hint-only discard (R399): a free value, by lookup number,
notes/assumptions/8.md. -/
opaque Config.discardResidue : Nat → Bool

/-- The device's own PTP clock identity (R309). Free value, notes/assumptions/13.md. -/
opaque Config.clockId : Nat

/-- The bit a metrology modulator delivers, by channel, gain, source and number of its sample on the grid of device time (R259, R260). Free
value, notes/assumptions/11.md. -/
opaque Config.modulator : Nat → Nat → Nat → Nat → Bool

/-- The sample code a modulator's bit stands for, plus or minus (R258, R260). Free value, notes/assumptions/11.md. -/
opaque Config.bitCode : Nat

/-- The coefficients of stage 3 up to its centre, in 2⁻³², by preset (R260). Free value, notes/assumptions/11.md. -/
opaque Config.firTap : Nat → Nat → Int

/-- The level at a local pin that the outside drives, or whose phase the spec leaves open (R510, R528), by pin and instant. Free
value, notes/assumptions/39.md. -/
opaque Config.pinLevel : Nat → Nat → Bool

/-- How much longer than ARM_RATE's the time between two meters armed is from shedding step 2 on, less 2 (R29, R230): the spec does not
say by how much the rate is lowered. Free value, notes/assumptions/61.md. -/
opaque Config.armSlow : Nat

/-- The high and the low mark of the service cores' work queue (R29): the spec gives no numbers. Free values, notes/assumptions/61.md. -/
opaque Config.workHigh : Nat
opaque Config.workLow : Nat

/-- How many panel rails beyond the first have been started a time after the on sequence began (R498): each waits for the one before to
reach 90 %. Free value, notes/assumptions/69.md. -/
opaque Config.railsRisen : Nat → Nat

/-- How long after 2 bit times an answer on a UART begins, by UART and instant: at most 2 ms after its request (R517). Free value,
notes/assumptions/70.md. -/
opaque Config.uartWait : Nat → Nat → Nat

end Sys2Proof
end

