-- ==== Sys2Proof/Machine/Maps.lean ====
section
/-!
DEFINITION. Reading and writing keyed lists and word memories, fields of words, double words, nonet data and the
CRC-32C (spec 00 R6–R9; 02 R40, R42; 06 R158).
-/

namespace Sys2Proof

variable {α : Type}

/-- The entry at a key. -/
def NMap.find : NMap α → Nat → Option α
  | [], _ => none
  | (j, v) :: r, k => if j = k then some v else NMap.find r k

/-- The entry at a key, or `d` where there is none. -/
def NMap.look (m : NMap α) (k : Nat) (d : α) : α := (NMap.find m k).getD d

/-- The map with `v` at key `k`. -/
def NMap.put : NMap α → Nat → α → NMap α
  | [], k, v => [(k, v)]
  | (j, w) :: r, k, v =>
    if k < j then (k, v) :: (j, w) :: r
    else if k = j then (k, v) :: r
    else (j, w) :: NMap.put r k v

/-- The map with nothing at key `k`. -/
def NMap.del : NMap α → Nat → NMap α
  | [], _ => []
  | (j, w) :: r, k => if j = k then r else (j, w) :: NMap.del r k

/-- The map with the entry at `k`, or `d` where there is none, changed by `f`. -/
def NMap.upd (m : NMap α) (k : Nat) (d : α) (f : α → α) : NMap α := NMap.put m k (f (NMap.look m k d))

/-- The map with `f` applied to every entry. -/
def NMap.mapAll (m : NMap α) (f : Nat → α → α) : NMap α := m.map fun p => (p.1, f p.1 p.2)

/-- The entries whose key and value pass `p`. -/
def NMap.keep (m : NMap α) (p : Nat → α → Bool) : NMap α := m.filter fun e => p e.1 e.2

/-- The lowest key below `n`, from `k` up, that the map does not hold. -/
def NMap.freeFrom (m : NMap α) (k : Nat) : Nat → Option Nat
  | 0 => none
  | n + 1 => if (NMap.find m k).isNone then some k else NMap.freeFrom m (k + 1) n

/-- The word at an address of a memory. -/
def Memory.read (m : Memory) (a : Nat) : Word := NMap.look m a 0

/-- The memory with `w` at address `a`; a zero word is held by listing nothing. -/
def Memory.write (m : Memory) (a : Nat) (w : Word) : Memory :=
  if w = 0 then NMap.del m a else NMap.put m a w

/-- The memory with a list of words from address `a` up. -/
def Memory.writeAll (m : Memory) (a : Nat) : List Word → Memory
  | [] => m
  | w :: r => Memory.writeAll (Memory.write m a w) (a + 1) r

/-- `n` words from address `a` up. -/
def Memory.readAll (m : Memory) (a : Nat) : Nat → List Word
  | 0 => []
  | n + 1 => Memory.read m a :: Memory.readAll m (a + 1) n

/-- The canonical form of a memory: addresses strictly rising from `lo`, no listed word equal to 0. -/
def Memory.wfFrom (lo : Nat) : Memory → Bool
  | [] => true
  | (a, w) :: r => decide (lo ≤ a) && decide (w ≠ 0) && Memory.wfFrom (a + 1) r

/-- The canonical form of a memory. -/
def Memory.wf (m : Memory) : Bool := Memory.wfFrom 0 m

/-- Field [hi:lo] of a word. -/
def fld (w : Word) (hi lo : Nat) : Nat := w.toNat / 2 ^ lo % 2 ^ (hi + 1 - lo)

/-- Bit `i` of a word. -/
def bitOf (w : Word) (i : Nat) : Bool := fld w i i == 1

/-- A word made of fields (value, high bit, low bit); a value keeps only the bits its field holds. -/
def pk (fs : List (Nat × Nat × Nat)) : Word :=
  W (fs.foldl (fun a f => a + f.1 % 2 ^ (f.2.1 + 1 - f.2.2) * 2 ^ f.2.2) 0)

/-- 1 for true, 0 for false. -/
def b2n (b : Bool) : Nat := if b then 1 else 0

/-- The high word of a double word (R7). -/
def hiW (n : Nat) : Word := W (n / 2 ^ 36)

/-- The low word of a double word (R7). -/
def loW (n : Nat) : Word := W n

/-- The two words of a double word, high word first (R7). -/
def dw (n : Nat) : List Word := [hiW n, loW n]

/-- The double word of a high and a low word. -/
def joinW (h l : Word) : Nat := h.toNat * 2 ^ 36 + l.toNat

/-- The two's complement of an integer in `n` bits. -/
def toTwos (n : Nat) (i : Int) : Nat := (i % (2 ^ n : Nat)).toNat

/-- The integer an `n`-bit two's complement field holds. -/
def ofTwos (n : Nat) (v : Nat) : Int := if v < 2 ^ (n - 1) then (v : Int) else (v : Int) - (2 ^ n : Nat)

/-- A 128-, 256- or 384-bit value as words holding 32 bits each in [35:4], high part first. -/
def words32 (v : Nat) : Nat → List Word
  | 0 => []
  | n + 1 => W (v / 2 ^ (32 * n) % 2 ^ 32 * 16) :: words32 v n

/-- The value held by words with 32 bits each in [35:4], high part first. -/
def ofWords32 (ws : List Word) : Nat := ws.foldl (fun a w => a * 2 ^ 32 + fld w 35 4) 0

/-- A number as `n` octets, most significant first. -/
def octetsBE (v : Nat) : Nat → List Octet
  | 0 => []
  | n + 1 => BitVec.ofNat 8 (v / 2 ^ (8 * n)) :: octetsBE v n

/-- The number that octets give, most significant first. -/
def ofBE (os : List Octet) : Nat := os.foldl (fun a o => a * 256 + o.toNat) 0

/-- One data word of nonets, the first octet in nonet 0 (R8, R9). -/
def nonetWord (os : List Octet) : Word :=
  W ((os.take 4).foldr (fun o a => a * 512 + (256 + o.toNat)) 0)

/-- Octets as nonet data words (R40); no octet at all gives one all-padding word (R41). -/
def packOctets (os : List Octet) : List Word :=
  match os with
  | a :: b :: c :: d :: e :: r => nonetWord [a, b, c, d] :: packOctets (e :: r)
  | os => [nonetWord os]

/-- The valid octets of one nonet word: those whose mark is 1 (R9). -/
def nonetOctets (w : Word) : List Octet :=
  [0, 9, 18, 27].filterMap fun i => if bitOf w (i + 8) then some (BitVec.ofNat 8 (fld w (i + 7) i)) else none

/-- The valid octets of nonet data (R9). -/
def unpackOctets (ws : List Word) : List Octet := ws.flatMap nonetOctets

/-- The marks of one word stand only in its lowest nonets (R42). -/
def marksLow (w : Word) : Bool :=
  (!(bitOf w 17) || bitOf w 8) && (!(bitOf w 26) || bitOf w 17) && (!(bitOf w 35) || bitOf w 26)

/-- The marks of a packet's data words obey R42: every word but the last is full. -/
def marksOk : List Word → Bool
  | [] => true
  | [w] => marksLow w
  | w :: r => (nonetOctets w).length == 4 && marksOk r

/-- One bit of the reflected CRC-32C division. -/
def crcBit (c : BitVec 32) : BitVec 32 :=
  if c.getLsbD 0 then (c >>> 1) ^^^ 0x82F63B78#32 else c >>> 1

/-- One octet of the CRC-32C. -/
def crcOctet (c : BitVec 32) (o : Octet) : BitVec 32 :=
  crcBit (crcBit (crcBit (crcBit (crcBit (crcBit (crcBit (crcBit (c ^^^ o.setWidth 32))))))))

/-- CRC-32C over octets. PRESUMED: the parameters of the published CRC-32C (notes/assumptions/5.md). -/
def crc32c (os : List Octet) : Nat := (os.foldl crcOctet 0xFFFFFFFF#32 ^^^ 0xFFFFFFFF#32).toNat

/-- A word as five octets, most significant first, four zero bits above bit 35 (R188). -/
def wordOctets (w : Word) : List Octet := octetsBE w.toNat 5

/-- Ceiling of a quotient. -/
def cdiv (a b : Nat) : Nat := (a + b - 1) / b

/-- A value held at a field's largest. -/
def sat (bits v : Nat) : Nat := min v (2 ^ bits - 1)

/-- The first element that passes, and the list without it. -/
def takeFirst (p : α → Bool) : List α → Option (α × List α)
  | [] => none
  | a :: r => if p a then some (a, r) else (takeFirst p r).map fun q => (q.1, a :: q.2)

/-- An element put in its place in a list whose keys rise, before those of its own key. -/
def insertOn {α : Type} (key : α → Nat) (x : α) : List α → List α
  | [] => [x]
  | y :: r => if key x ≤ key y then x :: y :: r else y :: insertOn key x r

end Sys2Proof
end

