-- ==== Sys2Proof/Machine/Operands.lean ====
section
/-!
DEFINITION. What the operands of commands mean by themselves: modes and the subchannels and air time they take, and
the fields of messages (spec 03, R78–R80; 04, R95–R97; 12, R345, R346).
-/

namespace Sys2Proof

/-- Data rate of an FSK mode table entry in kb/s (R95). -/
def fskKbps (n : Nat) : Nat := [50, 100, 150, 200, 300, 200, 300, 50].getD n 50

/-- Subchannels a mode occupies: span 1 or 3 for FSK, group width for OFDM (R95, R97). -/
def Phy.width (p : Phy) : Nat :=
  if p.ofdm then [1, 6, 4, 2, 1].getD p.n 1 else if p.n == 0 || p.n == 1 || p.n == 7 then 1 else 3

/-- The subchannels a frame of a mode occupies at a subchannel (R80, R96). -/
def Phy.subs (p : Phy) (sub : Nat) : List Nat :=
  if p.ofdm then (List.range p.width).map (sub + ·)
  else if p.width == 3 then [sub - 1, sub, sub + 1] else [sub]

/-- What a mode occupies from a subchannel on lies within the usable subchannels 0 to 199 (R78). -/
def spanInBand (sub : Nat) (p : Phy) : Bool :=
  if p.ofdm then decide (sub + p.width ≤ 200) else if p.width == 3 then 1 ≤ sub && sub ≤ 198 else decide (sub < 200)

/-- Preamble and SFD time of the device's own frame in µs: 8 + 2 octets in FSK (R95). -/
def Phy.shrUs (p : Phy) : Nat := if p.ofdm then Config.ofdmShrUs p.n else cdiv (10 * 8 * 1000) (fskKbps p.n)

/-- Air time of a frame with `n` PSDU octets in µs (R95, R109). -/
def Phy.airUs (p : Phy) (n : Nat) : Nat :=
  if p.ofdm then Config.ofdmAirUs p.n p.mcs p.il n else cdiv ((12 + n) * 8 * 1000) (fskKbps p.n)

def Detect.none : Detect := ⟨0, 0, false, ⟨false, 0, 0, false⟩, 0, 0⟩

/-- Subchannels of a detection. -/
def Detect.subs (x : Detect) : List Nat := x.phy.subs x.sub

/-- The class queue a burst goes to: the class in force before one is set where CLASS is 5–7 (R43). -/
def Burst.queueOf (b : Burst) : Nat :=
  match b.tags with
  | some ws => let c := fld (ws.getD 0 0) 35 33; if c ≤ 4 then c else 2
  | none => b.cls

/-- The argument words of a COMMAND (R345). -/
def CmdMsg.args (m : CmdMsg) : List Word := m.rest.take m.argWords

/-- The target words of a COMMAND (R345). -/
def CmdMsg.tgts (m : CmdMsg) : List Word := (m.rest.drop m.argWords).take m.tgtWords

/-- The fields every COMMAND has are sound (R345). -/
def CmdMsg.sound (m : CmdMsg) (kind : Nat) : Bool :=
  m.rest.length == m.argWords + m.tgtWords && m.id != 0 && m.kind == kind && decide (m.form ≤ 4) && m.deadline != 0

/-- Target words agree with the form (R346); a LIST of none is judged with the targets. -/
def CmdMsg.tgtsFit (m : CmdMsg) : Bool :=
  match m.form with
  | 0 => decide (m.tgtWords ≤ 4096)
  | 1 => m.tgtWords == 2
  | 2 | 3 => m.tgtWords == 1
  | _ => m.tgtWords == 0

/-- A device kind carries FORM 4 and no targets (R346). -/
def CmdMsg.noTgts (m : CmdMsg) : Bool := m.form == 4 && m.tgtWords == 0

/-- The journal words of an accepted command: its four body words, arguments and targets (R392). -/
def CmdMsg.words (m : CmdMsg) : List Word :=
  [W m.id, pk [(m.kind, 35, 30), (m.form, 29, 27), (m.deadline, 23, 0)], W m.atS,
    pk [(m.argWords, 35, 18), (m.tgtWords, 17, 0)]] ++ m.rest

/-- A SWEEP argument: the stream, and whether OP is stop (R347). -/
def CmdMsg.sweepArg (m : CmdMsg) : Nat × Bool := (fld (m.args.getD 0 0) 35 31, bitOf (m.args.getD 0 0) 30)

/-! Result codes (R212). -/

def rcOk : Nat := 0x00
def rcNoResponse : Nat := 0x01
def rcJobFail : Nat := 0x02
def rcMeterRefused : Nat := 0x03
def rcUnassigned : Nat := 0x04
def rcSkipped : Nat := 0x05
def rcExcluded : Nat := 0x06
def rcCancelled : Nat := 0x07
def rcRemoved : Nat := 0x08
def rcBusySlot : Nat := 0x09
def rcRolledBack : Nat := 0x0A
def rcNoConfirm : Nat := 0x0B
def rcDownloadFail : Nat := 0x0C
def rcVerifyFail : Nat := 0x0D
def rcWrongVersion : Nat := 0x0E
def rcProgress : Nat := 0x10
def rcAccepted : Nat := 0x20
def rcComplete : Nat := 0x21
def rcPartial : Nat := 0x22
def rcFailed : Nat := 0x23
def rcBusy : Nat := 0x30
def rcEmpty : Nat := 0x31
def rcBadArg : Nat := 0x32
def rcTableFull : Nat := 0x33
def rcPast : Nat := 0x34
def rcExists : Nat := 0x35
def rcDirFull : Nat := 0x36
def rcSlotsFull : Nat := 0x37
def rcDirSmall : Nat := 0x38
def rcNoDram : Nat := 0x39
def rcNoImage : Nat := 0x3A
def rcNoCampaign : Nat := 0x3B

/-- A CONTROL's OP that names nothing (R349). It comes as any CONTROL row. -/
def Control.badOp (c : Control) : Bool := c.op == 0 || decide (7 ≤ c.op)

/-- The OP of a CAMPAIGN message (R347). -/
def CmdMsg.campOp (m : CmdMsg) : Nat := fld (m.args.getD 0 0) 35 34

/-- A CAMPAIGN operation other than CREATE has the words R347 gives it. -/
def CmdMsg.campFits (m : CmdMsg) (op words : Nat) : Bool := m.noTgts && m.argWords == words && m.campOp == op

/-- The MCS values an OFDM option supports (R97). -/
def ofdmMcsOk (option mcs : Nat) : Bool :=
  match option with
  | 1 => decide (mcs ≤ 3)
  | 2 => decide (mcs ≤ 5)
  | 3 => decide (1 ≤ mcs) && decide (mcs ≤ 6)
  | 4 => decide (2 ≤ mcs) && decide (mcs ≤ 6)
  | _ => false

/-- A PHR the lane accepts for the mode it receives (R96–R98). -/
def Phr.valid (p : Phr) (y : Phy) : Bool :=
  decide (1 ≤ p.len) && decide (p.len ≤ 2047) && if y.ofdm then ofdmMcsOk y.n p.mcs else !p.modeSwitch

/-- Octets of a frame's FCS. -/
def Phr.fcsLen (p : Phr) : Nat := if p.fcs2 then 2 else 4

/-- The extended source address of a header that has passed the filter. -/
def MacHdr.srcEui (h : MacHdr) : Eui :=
  match h.src with
  | .ext e => e
  | _ => 0

/-- The first plaintext payload octet of a frame. -/
def RxDone.first (e : RxDone) : Option Octet := e.octets[e.hdrLen]?

/-- A valid reply to a sweep (R152): six octets, type 0xD1, the sweep's identifier. -/
def SweepReply.answers (r : SweepReply) (id : Nat) : Bool :=
  r.octets.length == 6 && r.octets.head? == some 0xD1 && ofBE ((r.octets.drop 1).take 2) == id

/-- One data set is better than another, or equal, in the standard's comparison; the last component orders by path
alone. PRESUMED, notes/assumptions/13.md. -/
def Foreign.rank (f : Foreign) (port : Nat) : List Nat :=
  [f.prio1, f.cls, f.acc, f.var, f.prio2, f.gm, f.steps, f.sender, f.sport, port]

/-- `a` is better than `b` only by its path: one grandmaster and at most one step between them (R309). -/
def Foreign.byPath (a b : Foreign) : Bool := a.gm == b.gm && decide (b.steps ≤ a.steps + 1)

/-! Blocks and control messages of field links (R66, R68, R71). -/

/-- A sync header that Clause 49 knows. -/
def LineBlock.valid (b : LineBlock) : Bool := b.sync == 1 || b.sync == 2

/-- Field [hi:lo] of a block. -/
def LineBlock.fld (b : LineBlock) (hi lo : Nat) : Nat := b.bits / 2 ^ lo % 2 ^ (hi + 1 - lo)

/-- The octets of a block, from [63:56] down. -/
def LineBlock.octets (b : LineBlock) : List Octet := octetsBE b.bits 8

/-- A message as its frame carries it: a DELAY_REQ takes T1 as the start block leaves, a STREAM_SET the time of this frame. -/
def CtrlMsg.sent (m : CtrlMsg) (now emit : Nat) : List Octet :=
  let body := if m.typ == 1 then octetsBE now 8 else if m.typ == 4 then m.payload ++ octetsBE (emit / 2 ^ 16) 6 else m.payload
  [BitVec.ofNat 8 m.typ, BitVec.ofNat 8 m.len] ++ body

/-! Blocks on the line (R66). PRESUMED: the scrambler's bits follow the order in which the line sends them, notes/assumptions/61.md. -/

/-- 32 bits, first sent highest, through the scrambler x⁵⁸ + x³⁹ + 1 whose last 58 line bits are `st`, the latest lowest. -/
def scramble32 (st v : Nat) : Nat := v ^^^ (st / 2 ^ 7 % 2 ^ 32) ^^^ (st / 2 ^ 26 % 2 ^ 32)

/-- The line bits that follow `st` once 32 more have passed. -/
def scrNext (st line : Nat) : Nat := (st * 2 ^ 32 + line) % 2 ^ 58

/-- Blocks as the line carries them, and the line bits left (R66). -/
def scramble : Nat → List LineBlock → List LineBlock × Nat
  | st, [] => ([], st)
  | st, b :: r =>
    let h := scramble32 st (b.bits / 2 ^ 32 % 2 ^ 32)
    let l := scramble32 (scrNext st h) (b.bits % 2 ^ 32)
    let x := scramble (scrNext (scrNext st h) l) r
    (⟨b.sync, h * 2 ^ 32 + l⟩ :: x.1, x.2)

/-- Blocks as they were before the line, and the line bits left (R66). -/
def descramble : Nat → List LineBlock → List LineBlock × Nat
  | st, [] => ([], st)
  | st, b :: r =>
    let h := b.bits / 2 ^ 32 % 2 ^ 32
    let l := b.bits % 2 ^ 32
    let x := descramble (scrNext (scrNext st h) l) r
    (⟨b.sync, scramble32 st h * 2 ^ 32 + scramble32 (scrNext st h) l⟩ :: x.1, x.2)

/-- A data block of eight octets, and a control block of a type. -/
def dataBlock (v : Nat) : LineBlock := ⟨1, v % 2 ^ 64⟩
def ctlBlock (typ v : Nat) : LineBlock := ⟨2, typ * 2 ^ 56 + v % 2 ^ 56⟩

/-! CXP segments (R335–R337, R460). -/

/-- Words in pairs, nine octets each (R335). -/
def pairOctets : List Word → List Octet
  | a :: b :: r => octetsBE (a.toNat * 2 ^ 36 + b.toNat) 9 ++ pairOctets r
  | [a] => octetsBE (a.toNat * 2 ^ 36) 9
  | [] => []

/-- The words of whole groups of nine octets. -/
def octetPairs : Nat → List Octet → List Word
  | 0, _ => []
  | n + 1, os =>
    let v := ofBE (os.take 9)
    W (v / 2 ^ 36) :: W v :: octetPairs n (os.drop 9)

/-- The eight-octet data blocks of a segment on the pair link, the last filled with zeros, and one that carries the CRC-32C over the octets,
between start and terminate (R460; DESIGN CHOICE, notes/assumptions/61.md). -/
def pairBlocks (os : List Octet) : List LineBlock :=
  let n := cdiv os.length 8
  let data := (List.range n).map fun i => dataBlock (ofBE ((os.drop (8 * i)).take 8 ++ List.replicate (8 * (i + 1) - os.length) 0))
  [ctlBlock 0x78 0] ++ data ++ [dataBlock (crc32c os * 2 ^ 32), ctlBlock 0x87 0]

/-- The octets of a segment from its blocks on the pair link, descrambled; none where they do not stand as R460 says or the CRC fails. -/
def pairRead (bs : List LineBlock) : Option (List Octet) :=
  let n := bs.length - 3
  let os := ((bs.drop 1).take n).flatMap LineBlock.octets
  let seg := os.take (os.length / 9 * 9)
  let c := bs.getD (n + 1) ⟨0, 0⟩
  let z := bs.getD (n + 2) ⟨0, 0⟩
  let a := bs.getD 0 ⟨0, 0⟩
  if 4 ≤ bs.length && a.sync == 2 && a.fld 63 56 == 0x78 && z.sync == 2 && z.fld 63 56 == 0x87
      && ((bs.drop 1).take (n + 1)).all (fun b => b.sync == 1) && c.fld 63 32 == crc32c seg then some seg else none

/-- The plaintext as words, and the header's fields (R336). -/
def Segment.all (g : Segment) : List Word := octetPairs (g.octets.length / 9) g.octets
def Segment.hd (g : Segment) (i : Nat) : Word := g.all.getD i 0
def Segment.ver (g : Segment) : Nat := fld (g.hd 0) 35 32
def Segment.typ (g : Segment) : Nat := fld (g.hd 0) 31 24
def Segment.last (g : Segment) : Bool := bitOf (g.hd 0) 20
def Segment.gen (g : Segment) : Nat := fld (g.hd 0) 19 16
def Segment.segNo (g : Segment) : Nat := fld (g.hd 0) 15 0
def Segment.seq (g : Segment) : Nat := (g.hd 1).toNat
def Segment.msgWords (g : Segment) : Nat := fld (g.hd 2) 35 12
def Segment.segWords (g : Segment) : Nat := fld (g.hd 2) 11 0
def Segment.ref (g : Segment) : Nat := (g.hd 3).toNat

/-- The words after the header. -/
def Segment.body (g : Segment) : List Word := g.all.drop 4

/-- Capacity of a DRAM channel in Gi words (R539): ten devices 8 bits wide hold what five of 16 bits hold in each of two; 0 for an
organisation the table has not. -/
def DramOrg.giw (o : DramOrg) : Nat :=
  match o.width, o.gbit, o.ranks with
  | 16, 8, 1 => 1
  | 16, 16, 1 => 2
  | 8, 8, 1 => 2
  | 8, 8, 2 => 4
  | 8, 16, 1 => 4
  | _, _, _ => 0

/-- Installed DRAM in Gi words: the smaller of the two channels' capacities (R539). -/
def dramGiw (a b : DramOrg) : Nat := min a.giw b.giw

end Sys2Proof
end

