-- ==== Sys2Proof/Machine/State.lean ====
section
/-!
DEFINITION. The state of the block as plain data: every register, table, queue and buffer the spec names, chapter by
chapter, the reasons a command can stop, and the state right after reset.
-/

namespace Sys2Proof.Machine

/-- Why a step stops with a fault. No command of this block does: the spec gives each one an effect or none at all,
so the type has no constructor. Safe. -/
inductive Fault
deriving DecidableEq, Repr

/-- Why a step is refused. -/
inductive Refusal where
  /-- The command has no meaning in this model yet; raised by `exec` alone. Safe: the model stops. -/
  | notModelled (mnemonic : String)
deriving DecidableEq, Repr

/-- The variant (R1). -/
inductive Variant where
  | ax3621
  | ax3619
deriving DecidableEq, Repr

/-- What validation knows of a frame beside its payload: slot, class, time tag, stream, subchannel, link quality,
medium, frame counter, key index, source, and SHR start. -/
structure FrameInfo where
  slot   : Option Nat
  cls    : Nat
  tag    : Nat
  stream : Nat
  sub    : Nat
  lq     : Nat
  pl     : Bool
  fctr   : Nat
  keyIdx : Nat
  src    : Eui
  shr    : Nat
deriving DecidableEq, Repr

/-- What a waiting item of the commit input commits (R31, R186). -/
inductive CommitKind where
  | run (slot : Nat)
  | reject (f : FrameInfo) (reason : Nat)
  | status (f : FrameInfo) (bits : Nat)
  | response (f : FrameInfo) (os : List Octet)
  | report (f : FrameInfo) (os : List Octet)
  | discovery (f : FrameInfo) (mtype mods sweep : Nat) (announce : Bool)
  | dirSwitch
deriving DecidableEq, Repr

/-- An item of the commit input (R27, R28, R186). -/
structure CommitItem where
  cls    : Nat
  tag    : Nat
  stream : Nat
  sub    : Nat
  slot   : Option Nat
  kind   : CommitKind
deriving DecidableEq, Repr

/-- Which unit queued a downlink job, and so where its result goes (R118). -/
inductive JobFor where
  | txn (cmd slot : Nat)
  | receipt (frames : List Nat)
  | keySwitch (cmd slot : Nat)
  | fwBlock (camp tgt : Nat)
  | fwEnd (camp tgt : Nat)
  | camp (camp slot : Nat)
  | group (camp tgt : Nat)
  | beacon
  | sweep
  | routeReq
  | routeRep
  | toneMap
  | other
deriving DecidableEq, Repr

/-- A downlink job in the job table (R113–R118): who queued it, the slot it goes to or none, class, earliest start and deadline on the
running axis (a step of device time moves it too), payload, whether it names its stream, subchannel and mode, the AR bit, whether it is
powerline, attempts failed, whether the dwell ledger holds it and whether that has been counted, what the last attempt gave, whether it
waits for a slot, the stream of its last attempt, the octets of its frame once built (R117) and its sequence number, the lane that has it,
whether it is a horn call for the slot and whether HORN_REFUSED has been counted, where it goes when no slot names it (a short address, or
2⁶⁴ and an EUI-64), whether a powerline job has started afresh on another route, and how many of its attempts have ended NO_ACK. -/
structure Job where
  who     : JobFor
  slot    : Option Nat
  cls     : Nat
  start   : Nat
  deadline : Nat
  payload : List Octet
  via     : Option (Nat × Nat × Phy)
  ar      : Bool
  secured : Bool
  pl      : Bool
  tries   : Nat
  held    : Bool
  defd    : Bool
  res     : Nat
  noSlot  : Bool
  last    : Option Nat
  frame   : Option (List Octet)
  seq     : Nat
  lane    : Option Nat
  horned  : Bool
  refused : Bool
  dst     : Nat
  again   : Bool
  naks    : Nat
deriving DecidableEq, Repr

/-- An item of the store writes queue: its area (R380), its words, what it is (a BNO, a CSN, a SEQ or a number), and
whether further packets of the same record follow. -/
structure StoreItem where
  area  : Nat
  ws    : List Word
  key   : Nat
  more  : Bool
deriving DecidableEq, Repr

/-- An event on its way to the recorder (R404): code, arguments and slot. -/
structure Event where
  code : Nat
  args : List Nat
  slot : Option Nat
deriving DecidableEq, Repr

/-- What travels beside a received frame's octets to validation (R105, R141, R180): how many of them are headers, the
source address, frame counter, key index used, SHR start, medium, and the lane that wrote it. -/
structure RxMeta where
  hdrLen : Nat
  src    : Eui
  fctr   : Nat
  keyIdx : Nat
  shr    : Nat
  pl     : Bool
  lane   : Nat
deriving DecidableEq, Repr

/-- What a packet carries beside its octets where a unit of the device is its producer: the fields that stand in the octets of a
received frame, an item for the ledger engine, a downlink job, a record for the store, or an event. -/
inductive Item where
  | none
  | frame (x : RxMeta)
  | commit (x : CommitItem)
  | job (x : Job)
  | store (x : StoreItem)
  | event (x : Event)
deriving DecidableEq, Repr

/-- A packet in a class queue: its tag words' fields (R43), its data words, and the item a unit of the device wrote. A unit's
item outside the received frames queues stands for its octets, so that `data` is then empty (notes/assumptions/18.md). -/
structure Packet where
  cls    : Nat
  len    : Nat
  qseq   : Nat
  time   : Nat
  slot   : Option Nat
  dup    : Option Nat
  stream : Nat
  sub    : Nat
  lq     : Nat
  data   : List Word
  item   : Item
deriving DecidableEq, Repr

/-- A packet in progress (R46–R49): its data words so far, the instant of its last word, whether a flush has marked
it, and whether it is whole and waits under back-pressure. -/
structure Partial where
  pkt   : Packet
  last  : Nat
  flush : Bool
  whole : Bool
deriving DecidableEq, Repr

/-- A class queue (R46–R56): visible packets in the ring, the packet in progress, the next QSEQ, the packets of its
Mire chain each with its first word's place in the chain, the words written to the chain since it was last empty, whether
words are discarded up to the next packet start, whole packets that units keep under back-pressure, and since when the queue
applies back-pressure. -/
structure CQueue where
  ring  : List Packet
  part  : Option Partial
  qseq  : Nat
  chain : List (Nat × Packet)
  wr    : Nat
  drop  : Bool
  held  : List Packet
  bp    : Option Nat
deriving DecidableEq, Repr

/-- The class queues by group × 5 + class, and for each class since when it has applied back-pressure (R55, R59). -/
structure Queues where
  q  : NMap CQueue
  bp : NMap Nat
deriving DecidableEq, Repr

/-- The state of a field link (R75). -/
inductive LinkSt where
  | off | locking | aligning | up | lost
deriving DecidableEq, Repr

/-- A field link (R66–R77): its state and when it was entered, the last 58 bits sent and received on the line, the number of the
last 20 µs boundary a frame was sent at, transmit FSEQ, last FSEQ received, FSEQ of the last undamaged frame, runs of good and
of bad frames, T1 of the request outstanding, whether an exchange has completed since ALIGNING, frames sent since the
last request, delay and offset, the alarm bits seen, the last STATUS, whether its silence has been reported, when the
last start block arrived, STATUS's payload, and control messages that wait for a frame. -/
structure Link where
  st      : LinkSt
  since   : Nat
  scrT    : Nat
  scrR    : Nat
  txK     : Option Nat
  txSeq   : Nat
  rxSeq   : Option Nat
  lastOk  : Nat
  good    : Nat
  bad     : Nat
  req     : Option Nat
  exch    : Bool
  sent    : Nat
  delay   : Int
  offset  : Int
  alarm   : Nat
  status  : Nat
  silent  : Bool
  started : Nat
  body    : List Octet
  ctlQ    : List CtrlMsg
deriving DecidableEq, Repr

/-- A lane request waiting in its plane's pending set (R82, R85): the detection, its class, its duplicate group and
the instant of detection. -/
structure Request where
  det : Detect
  cls : Nat
  grp : Nat
  det0 : Nat
deriving DecidableEq, Repr

/-- The content by which a duplicate group is split (R90): source address, frame counter and FCS value. -/
structure Content where
  src  : Eui
  fctr : Nat
  fcs  : Nat
deriving DecidableEq, Repr

/-- A duplicate group (R89–R91): the time tag, stream, frequency in Hz and mode that opened it, the frame end its
hold opened at, and once closed the contents that were kept. -/
structure DupGroup where
  tag    : Nat
  stream : Nat
  freq   : Int
  phy    : Phy
  hold   : Option Nat
  kept   : Option (List Content)
deriving DecidableEq, Repr

/-- How far a transmission or blanking has come: a place reserved for an acknowledgement (R64), that place with its window open, a
job's transmission whose channel is clear, its window open, on air, in its tail (R92), or the 50 µs of a gain change (R63). -/
inductive TxPhase where
  | reserved | ackLead | planned | lead | onAir | tail | gain
deriving DecidableEq, Repr

/-- A transmission on a stream with its blanking window (R64, R92, R93): the lane that makes it, the subchannels it
occupies, its phase and since when, when its window opens or has opened, and while it is sent its lowest subchannel, mode,
first sample on the device-time axis, and octets (a horn call's 8 octets are its burst, the number its repeats). -/
structure Tx where
  lane   : Nat
  stream : Nat
  subs   : List Nat
  phase  : TxPhase
  since  : Nat
  opens  : Nat
  sub    : Nat
  phy    : Phy
  first  : Nat
  octets : List Octet
  horn   : Nat
deriving DecidableEq, Repr

/-- A blanking window that has ended (R81, R92): its stream, the subchannels blanked and the device-time milliseconds it touched. -/
structure Cut where
  stream : Nat
  subs   : List Nat
  from'  : Nat
  last   : Nat
deriving DecidableEq, Repr

/-- Field reception: links, receive gains that differ from configuration, gain changes that wait for their 20 µs boundary as (axis
instant, code), pending requests, duplicate groups and the next group number, transmissions and blanking windows, windows that have
ended and still count for noise floors, and the local ports whose transmit outputs are asserted (R543). -/
structure Field where
  links : NMap Link
  gain  : NMap Nat
  due   : NMap (Nat × Nat)
  pend  : List Request
  grps  : NMap DupGroup
  nextG : Nat
  txs   : List Tx
  cuts  : List Cut
  keyed : List Nat
deriving DecidableEq, Repr

/-- The state of a lane (R99). -/
inductive LaneSt where
  | off | idle | rx | hold | turn | ack | cca | tx | await
deriving DecidableEq, Repr

/-- A lane (R99): its state; for reception the detection, class, duplicate group, PHR, MAC header, whether the directory has answered and
with what slot, receive counter and frame keys as (PURPOSE, index, wrapped key) (R101, R485), and the frame once its checks pass; for
transmission the job, backoff exponent, busy assessments, whether backoff runs (0), listens (1) or has found the channel clear (2), the
backoff drawn, whether a detector has been busy while it listens, whether it is a horn call, whether it is for a slot, the acknowledgement's
frame-pending bit, and when the present phase began. -/
structure Lane where
  st     : LaneSt
  det    : Detect
  cls    : Nat
  grp    : Nat
  phr    : Option Phr
  hdr    : Option MacHdr
  looked : Bool
  slot   : Option Nat
  rxCtr  : Nat
  keys   : List (Nat × Nat × BitVec 128)
  fin    : Option RxDone
  job    : Option Nat
  be     : Nat
  busy   : Nat
  phase  : Nat
  wait   : Nat
  heard  : Bool
  horn   : Bool
  slotted : Bool
  fpend  : Bool
  since  : Nat
deriving DecidableEq, Repr

/-- A mail window or horn listening period of a slot (R110, R129): its stream, subchannel, mode, begin and end,
whether it has begun, and whether the job that caused a horn call has been sent in it. -/
structure Window where
  stream : Nat
  sub    : Nat
  phy    : Phy
  opens  : Nat
  closes : Nat
  live   : Bool
  sent   : Bool
deriving DecidableEq, Repr

/-- The dwell ledger of one channel of a stream (R121, R122): µs charged by bucket number, and reservations by lane. -/
structure Dwell where
  used : NMap Nat
  resv : NMap Nat
deriving DecidableEq, Repr

/-- Lanes and air access: the lanes, the job table, mail windows, horn
listening periods, dwell ledgers by stream × 8,192 + channel, by slot the last slot instant
counted as SLOT_UNSYNC, and the next job and sequence numbers. -/
structure Air where
  lanes  : NMap Lane
  jobs   : NMap Job
  mail   : NMap Window
  horn   : NMap Window
  dwell  : NMap Dwell
  unsync : NMap Nat
  nextJ  : Nat
  seq    : Nat
deriving DecidableEq, Repr

/-- The state of a powerline lane (R135). -/
inductive PlSt where
  | off | idle | rx | hold | turn | nack | resp | access | tx | await
deriving DecidableEq, Repr

/-- A routing message of a frame to the device (R136, R147): 0 route request, 1 route reply, 2 route error; the hops and cost it carries;
and the address it names. -/
structure RouteMsg where
  kind : Nat
  hops : Nat
  cost : Nat
  dst  : Eui
deriving DecidableEq, Repr

/-- A fragment's header (R141): datagram tag, declared size, and the offset of its octets. -/
structure PlFrag where
  tag    : Nat
  size   : Nat
  offset : Nat
deriving DecidableEq, Repr

/-- A powerline frame as its lane has taken it apart (R136–R141): the MAC header, what passed the checks, the modulation, whether a tone
map is asked for, the mesh originator and the mesh header's octets, the fragment header, the routing message, and the payload after the
adaptation headers. -/
structure PlRx where
  hdr     : MacHdr
  done    : RxDone
  modn    : Nat
  tmReq   : Bool
  orig    : Option Eui
  mesh    : List Octet
  frag    : Option PlFrag
  route   : Option RouteMsg
  payload : List Octet
deriving DecidableEq, Repr

/-- A powerline lane (R135, R144, R145): state, preamble tag and link quality, the frame held, the end, AR bit and FCS value of the frame
it answers, its group, neighbour and originator slots and class, whether the response is an ACK, the job, backoff exponent, busy counts,
the slots drawn, since when its medium is idle, until when its own transmission blanks it, the first sample and octets of what it sends
with the mask of carriers not used and the modulation, and when the present phase began. -/
structure PlLane where
  st    : PlSt
  tag   : Nat
  lq    : Nat
  frame : Option PlRx
  endT  : Nat
  ar    : Bool
  check : Nat
  grp   : Nat
  nbr   : Option Nat
  slot  : Option Nat
  cls   : Nat
  ack   : Bool
  job   : Option Nat
  be    : Nat
  busy  : Nat
  draw  : Nat
  idle  : Nat
  blank : Nat
  first : Nat
  octets : List Octet
  tone  : Nat × Nat
  since : Nat
deriving DecidableEq, Repr

/-- The impulsive-noise blanking of a powerline stream (R139): the millisecond it is in with the sum of squares and number of its
unblanked samples, the RMS of the last 16 milliseconds (latest first), samples still to be blanked by BLANK_HOLD, samples of the unbroken
blanked run, and samples taken and blanked of the OFDM symbol under reception. -/
structure Blanker where
  ms   : Nat
  sum  : Nat
  n    : Nat
  rms  : List Nat
  hold : Nat
  run  : Nat
  sym  : Nat
  symB : Nat
deriving DecidableEq, Repr

/-- A datagram under reassembly (R141): originator, tag, declared size, first fragment's instant, pieces by offset, and
what its leading fragment gives the packet with that fragment's headers. -/
structure Reasm where
  orig  : Eui
  tag   : Nat
  size  : Nat
  since : Nat
  parts : List (Nat × List Octet)
  head  : Option (Packet × List Octet)
deriving DecidableEq, Repr

/-- MAC segments that wait for the rest of their frame (R136): the source, the next segment's number, and the octets so far. -/
structure Segs where
  src  : Eui
  next : Nat
  octets : List Octet
deriving DecidableEq, Repr

/-- The state of a discovery sweep (R154). -/
inductive SweepSt where
  | idle | query | wait | quiet | confirm
deriving DecidableEq, Repr

/-- A meter a sweep has found (R153, R155). -/
structure Found where
  eui  : Eui
  typ  : Nat
  mods : Nat
  lq   : Nat
  known : Bool
  quiet : Bool
  tries : Nat
  done : Bool
deriving DecidableEq, Repr

/-- A sweep (R151–R155): state, identifier, prefix stack as (length, address), the prefix in question, meters found,
replies of the open window, whether a preamble was heard in it, when the window began, meters still to be quieted or
confirmed, prefixes never to be queried again, whether it stopped at SWEEP_MAX, the device-time second of the last period, and whether
the last sweep ended ABORTED. -/
structure Sweep where
  st    : SweepSt
  id    : Nat
  stack : List (Nat × Eui)
  cur   : Nat × Eui
  found : List Found
  heard : Bool
  reps  : List SweepReply
  since : Nat
  todo  : List Eui
  fail  : Bool
  never : List (Nat × Eui)
  trunc : Bool
  last  : Nat
  aborted : Bool
deriving DecidableEq, Repr

/-- Powerline: lanes, duplicate groups and their next number, blanking by stream, segments by stream, reassembly tables, job table,
sweeps, the last route recomputation, by slot the last route request and the stream of the last candidate, by neighbour slot the tone
map it has asked for as (mask of carriers used, modulation), and the front ends whose transmit output is asserted (R544). -/
structure Pline where
  lanes : NMap PlLane
  grps  : NMap DupGroup
  nextG : Nat
  blank : NMap Blanker
  segs  : NMap (List Segs)
  reasm : NMap (List Reasm)
  jobs  : NMap Job
  sweep : NMap Sweep
  route : Nat
  rreq  : NMap Nat
  lastS : NMap Nat
  tones : NMap (Nat × Nat)
  keyed : List Nat
deriving DecidableEq, Repr

/-- The open block (R189): its entries and the instant of the first. -/
structure OpenBlock where
  entries : List Entry
  since   : Nat
deriving DecidableEq, Repr

/-- One set of directory tables (R158): size, seeds, seed generation, entries by table × 2²¹ + position, and the
stash. -/
structure DirSet where
  log2  : Nat
  seeds : List Nat
  gen   : Nat
  tab   : NMap (Eui × Nat)
  stash : List (Eui × Nat)
deriving DecidableEq, Repr

/-- The state of a directory rebuild (R196). -/
inductive RebuildSt where
  | idle | build | switch | release | abort
deriving DecidableEq, Repr

/-- A rebuild: state, since when, the command it answers and the cause of an abort (R196). -/
structure Rebuild where
  st    : RebuildSt
  since : Nat
  cmd   : Nat
  cause : Nat
  new   : DirSet
deriving DecidableEq, Repr

/-- One reading of a set (R168). -/
structure Reading where
  endS   : Nat
  tariff : Nat
  qual   : Nat
  regs   : List Nat
deriving DecidableEq, Repr

/-- A parsed READING_SET (R168, R169): with its attachment, and for each signature the octets it covers after the EUI-64, r and s. -/
structure ReadingSet where
  compact  : Bool
  sigEach  : Bool
  ttId     : Nat
  ivlMin   : Nat
  mclk     : Nat
  readings : List Reading
  att      : List Octet
  sigs     : List (List Octet × Nat × Nat)
deriving DecidableEq, Repr

/-- How far a set has come in validation: its signatures, its index lookups, or the commit input (R172–R174). -/
inductive ValStage where
  | verify | lookup | queued
deriving DecidableEq, Repr

/-- A frame in validation: the set, its stage, what each signature check gave (0 pass, 1 no key, 2 failed), the interval index's answers by
END_S, whether a verify unit has it, and for a response that carries the set (R214) its command's CMD_ID, RESULT, EXEC_S and number of
readings. -/
structure Validating where
  info  : FrameInfo
  set   : ReadingSet
  stage : ValStage
  sigs  : List Nat
  look  : List (Nat × Option Nat)
  unit  : Bool
  resp  : Option (Nat × Nat × Nat × Nat)
deriving DecidableEq, Repr

/-- The ledger: next CSN and BNO, whether the pair is enrolled and the ledger accepts commits, the open block, the blocks by BNO, those
sealed and not yet signed, when the last was signed and when a verification last ended, the highest BNO acknowledged and sent, meter records
and key blocks, slots held after removal with the BNO that frees them, the directory with its rebuild and its two event latches, the
announcer list, frames in validation and held aside, and the last stale scan. -/
structure Ledger where
  csn     : Nat
  bno     : Nat
  enrolled : Bool
  accepts : Bool
  isSealed : Bool
  openB   : Option OpenBlock
  blocks  : NMap Block
  signQ   : List Nat
  signAt  : Nat
  verAt   : Nat
  prev    : Nat
  acked   : Nat
  sentB   : Nat
  recs    : NMap MeterRec
  keys    : NMap KeyBlock
  heldS   : NMap Nat
  dir     : DirSet
  rebuild : Rebuild
  load90  : Bool
  stash48 : Bool
  ann     : List (Eui × Nat)
  inVal   : NMap Validating
  aside   : List Packet
  scan    : Nat
deriving DecidableEq, Repr

/-- A zone interval not yet evaluated (R241–R246): members that contributed, their energy in Wh and by phase in thirds of
a Wh, whether some contributor's phase is unknown, TOPO, and the reference once present: net energy by phase in mWh, Q by
phase in 10⁻⁶ A²s, and µs covered by reserved samples; for a check meter its energy in Wh. -/
structure ZIvl where
  contrib : Nat
  eMem    : Int
  third   : List Int
  amb     : Bool
  topo    : Bool
  ref     : Option Int
  refPh   : List Int
  q       : List Nat
  gapUs   : Nat
deriving DecidableEq, Repr

/-- A zone (R241, R247, R250): the end of the last interval evaluated, its open intervals by END_S, changes of its
member count with their instants in device time, histories, alarms and what goes with them, whether the next entry is
the first after a start, and the 16 mirror words of the last INTERVAL entry. -/
structure Zone where
  done    : Nat
  open'   : NMap ZIvl
  chg     : List (Nat × Int)
  loss    : Nat
  neg     : Nat
  lossAl  : Bool
  negAl   : Bool
  cum     : Int
  lossS   : Nat
  negS    : Nat
  restart : Bool
  words   : List Word
deriving DecidableEq, Repr

/-- The voltage of a busbar set over one interval (R251): ticks summed, the sums in mV of A, B, C, AB, BC and CA, and
whether a sample was reserved. -/
structure BusMean where
  n    : Nat
  sums : List Nat
  bad  : Bool
deriving DecidableEq, Repr

/-- The balance engine: the device-time second of its last start and of the correlator's last turn, zones, membership words by slot,
correlator windows by slot, and busbar means by interval end × 4 + set. -/
structure Balance where
  begun : Nat
  hour  : Nat
  zones : NMap Zone
  mem   : NMap Word
  corr  : NMap Corr
  bus   : NMap BusMean
deriving DecidableEq, Repr

/-- What causes a change of the metrology chain (R265): GAIN, SOURCE, PRESET, SCS, a reset from SYNC_DEC or by command,
a start, a time step. -/
inductive ChangeKind where
  | gain | source | preset | scs | resetBall | resetCxp | start | timeStep
deriving DecidableEq, Repr

/-- A change that waits for its boundary (R265): kind, channel or group, new value, and the boundary's number in units of
40 ms of device time. -/
structure Change where
  kind : ChangeKind
  at'  : Nat
  n    : Nat
  val  : Nat
deriving DecidableEq, Repr

/-- What one tick gave a channel (R272): valid outputs, marked ones, and the sums of y and y², y being the calibrated
sample brought to gain 32. -/
structure TickSum where
  n   : Nat
  inv : Nat
  sx  : Int
  sx2 : Nat
deriving DecidableEq, Repr

/-- A metrology channel (R258, R266, R275, R276): gain and source in force, gain and source before the last boundary, the last
two boundaries from which outputs were marked, in units of 1/8,192,000 s, the last ticks, newest first, and overrange. -/
structure Chan where
  gain   : Nat
  source : Nat
  was    : Nat
  wasSrc : Nat
  marks  : List Nat
  ticks  : List TickSum
  ovr    : Bool
  ovrN   : Nat
deriving DecidableEq, Repr

/-- A metrology group (R257, R261, R264, R275, R276): preset and SCS in force and before the last boundary, that boundary, the frequency in
mHz, and the last ticks of line-to-line sums, newest first, as (pairs, sums), and by phase the last eleven rising zero crossings in a row,
newest first, as measurement instants in 1/1,024 of 1/8,192,000 s. -/
structure Group where
  preset : Nat
  scs    : Bool
  wasP   : Nat
  wasS   : Bool
  since  : Nat
  freq   : Nat
  ll     : List (List (Nat × Nat))
  cross  : List (List Nat)
deriving DecidableEq, Repr

/-- A feeder phase (R272): remainders below 1 µWh, 1 µvarh and 1 mA²s, and the last ticks' energies, newest first. -/
structure FeedPhase where
  epRem : Int
  eqRem : Int
  iRem  : Int
  ticks : List (Int × Int)
deriving DecidableEq, Repr

/-- What a zone interval has of a feeder phase (R243, R245): µWh, mA²s, and time covered by invalid products in units of
1/8,192,000 s; phase 3 holds the ticks counted and the time in which any phase was invalid. -/
structure FeedIvl where
  ep  : Int
  i2t : Nat
  gap : Nat
deriving DecidableEq, Repr

/-- The metrology chain (R257–R277): the boundary at which it started, pending changes, channels, groups, feeder phases by
4 × feeder + phase, the number of the next tick in units of 10 ms, and feeder phases by interval end × 32 + 4 × feeder + phase. -/
structure Metro where
  run    : Option Nat
  pend   : List Change
  chans  : NMap Chan
  groups : NMap Group
  phs    : NMap FeedPhase
  tick   : Nat
  feed   : NMap FeedIvl
deriving DecidableEq, Repr

/-- A billing snapshot (R291). -/
structure Snap where
  no     : Nat
  closeT : Nat
  bnum   : Nat
  words  : List Word
deriving DecidableEq, Repr

/-- The legal partition: its state, the boundary that a restart or step makes due as (T, REASON, start of the new interval), the REASON that
the commit at the next t_R owes to how the device started, the snapshots by place,
LEGAL_CHECK in force, the one recorded at the previous start, LEGAL_VER, the active image, the two copies in PD1 with their sequence
numbers, the later first (R299),
and the display scroll (R303, R304): item, since when, the end of a pause, and a press held during an update. -/
structure LegalPart where
  st     : Legal
  due    : Option (Nat × Nat × Nat)
  why    : Nat
  snaps  : NMap Snap
  check  : Nat
  prev   : Nat
  ver    : Nat
  img    : List Word
  copies : List (Nat × Legal)
  item   : Nat
  shown  : Nat
  pause  : Option Nat
  press  : Bool
deriving DecidableEq, Repr

/-- A PTP port (R309, R312): its state as the standard numbers them (3 DISABLED, 4 LISTENING, 6 MASTER, 7 PASSIVE, 9
SLAVE), its best foreign master, the path delays of the last 16 exchanges in ns, the Sync held as (sequence, origin time
once known, arrival), the Delay_Req outstanding, and sequence numbers of Delay_Req, Sync and Announce. -/
structure PtpPort where
  st     : Nat
  best   : Option Foreign
  delays : List Int
  sync   : Option (Nat × Option Int × Int)
  req    : Option Nat
  rseq   : Nat
  sseq   : Nat
  aseq   : Nat
deriving DecidableEq, Repr

/-- An entry of a transmit stamp queue (R311): port, identifier, stamp in ns and since when it waits. -/
structure Stamp where
  port  : Nat
  id    : Nat
  ns    : Int
  since : Nat
deriving DecidableEq, Repr

/-- A step decided and not yet taken (R315): T_s, the correction in 2⁻³⁶ s, its cause (0 AUTO, 1 COMMAND, 2 PENDING) and
the MSG_SEQ and REQ_ID of the CONTROL that asked for it. -/
structure Step where
  ts    : Nat
  corr  : Int
  cause : Nat
  req   : Option (Nat × Nat)
deriving DecidableEq, Repr

/-- The timebase (R305–R327). `off` is device time less the running axis, `set` whether device time is set, `prov`
PROVISIONAL, which lasts as long as the start wait, `st` the state as R329 codes it. Slews under way: the servo's phase
correction and the axis time it is spread over, and the debt slewed at SLEW_MAX_PPM. Frequency correction in ppt and
whether one was learned. Offsets in ns: the last accepted, the last 8, those discarded, the run beyond 1 s with its
instants, and the counts of R307. The pending offset, the step decided, the last accepted offset's instant, UNC in
0.1 µs with the instant it was last brought up to date, LAST_STEP_T, the ports, the stamp queues and the next stamp
identifier, the grandmaster. Working TAI_UTC_S, the leap second announced, the last mismatching value. The RTC: the bins
as (°C + 73, (sum of errors in ppt, number)), the model's F0, T0, K and whether it is fitted, and the outage count with
its UNC. Beacon numbers by stream, 32 up for powerline. -/
structure Timebase where
  set    : Bool
  off    : Int
  prov   : Bool
  st     : Nat
  servo  : Int
  left   : Nat
  debt   : Int
  freq   : Int
  learned : Bool
  lastOff : Int
  hist   : List Int
  disc   : List Int
  far    : List (Int × Nat)
  lockN  : Nat
  unlockN : Nat
  backN  : Nat
  pend   : Option Int
  step   : Option Step
  lastAcc : Nat
  unc    : Nat
  uncAt  : Nat
  lastStep : Nat
  ports  : NMap PtpPort
  tsq    : List Stamp
  tsId   : Nat
  gm     : Nat
  removed : Nat
  taiUtc : Nat
  leap   : Option Bool
  utcBad : Option Nat
  bins   : NMap (Int × Nat)
  f0     : Int
  t0     : Int
  k      : Int
  fit    : Bool
  rtc    : Option Nat
  rtcUnc : Nat
  beacons : NMap Nat
  beaconT : NMap Nat
  sent   : Nat
deriving DecidableEq, Repr

/-- The state of a DTLS session (R334). -/
inductive SessSt where
  | idle | handshake | up | backoff
deriving DecidableEq, Repr

/-- A DTLS session (R333, R334): state and its entry, consecutive failures, the last record received, records since
the last key update and when that was. -/
structure Session where
  st    : SessSt
  since : Nat
  fails : Nat
  heard : Nat
  recs  : Nat
  keyAt : Nat
deriving DecidableEq, Repr

/-- A message under reassembly (R336, R337, R339): its header fields, when its first segment came, the segments held,
and once whole the fact that it is. -/
structure RxMsg where
  seq   : Nat
  typ   : Nat
  words : Nat
  segW  : Nat
  ref   : Nat
  since : Nat
  segs  : NMap (List Word)
  whole : Bool
deriving DecidableEq, Repr

/-- What a receiver keeps for one sender (R339): its GEN and the one before, the highest MSG_SEQ seen, and messages in the window. -/
structure RxPeer where
  gen  : Option Nat
  was  : Option Nat
  top  : Nat
  msgs : List RxMsg
deriving DecidableEq, Repr

/-- The uplink: port links, sessions (0 head end A, 1 head end B, 2 peer A, 3 peer B), the next MSG_SEQ to each peer, the start count,
receive windows, the last 64 kept answers by REQ_ID, the lease's end, heartbeats sent with the instant of sending on the running axis and
T_REQ, the heartbeat series, PAIR_HB's series, the shedding step and when it last changed, the last gasp's REQ_ID and copies, and the half
second of the last heartbeat, T_REQ of the last one granted, and the last gasp the peer has sent. -/
structure Uplink where
  linkA : Bool
  linkB : Bool
  sess  : NMap Session
  txSeq : NMap Nat
  gen   : Nat
  rx    : NMap RxPeer
  kept  : List (Nat × Nat × List Word)
  lease : Option Nat
  hbs   : List (Nat × Nat × Nat)
  hbSeq : Nat
  pairSeq : Nat
  shed  : Nat
  shedAt : Nat
  gasp  : Option (Nat × Nat)
  hbAt  : Nat
  lastReq : Nat
  peerGasp : Option (List Word)
deriving DecidableEq, Repr

/-- The mirror port (R362–R377): since when the bank is held, whether this hold's alarm has been given, the next
CSN as the ledger began, EPOCH_NO, the last scheduled instant dealt with in units of EPOCH_MS, and the words of the bank that
is read. -/
structure Mirror where
  held  : Option Nat
  told  : Bool
  csn0  : Nat
  epoch : Nat
  last  : Nat
  bank  : Memory
deriving DecidableEq, Repr

/-- A NAND die (R386, R400, R401): DSTATE (0 not configured, 1 in use, 2 lost, 3 being copied out), spare blocks left and
their number at start, blocks retired, erases of its blocks in all and of the block erased most, rated cycles, last temperature plus 64,
the spare levels already reported, and blocks that failed in the holdup and are retired after the restart (R402). -/
structure Die where
  st    : Nat
  spare : Nat
  had   : Nat
  bad   : Nat
  erased : Nat
  top   : Nat
  endur : Nat
  temp  : Nat
  told  : Nat
  owed  : Nat
deriving DecidableEq, Repr

/-- Words of one record in the staging buffer or in a page: their area (R380) and what they are (as in a store item). -/
structure Piece where
  area : Nat
  key  : Nat
  ws   : List Word
deriving DecidableEq, Repr

/-- A programmed page (R380, R382): its AREA and FLAGS, what it holds of records and has not been rewritten since, PSEQ, WRITE_S, TEMP and its
octets; a parity page has AREA 8 and holds no record. -/
structure Page where
  area   : Nat
  flags  : Nat
  pieces : List Piece
  pseq   : Nat
  writeS : Nat
  temp   : Nat
  octets : List Octet
deriving DecidableEq, Repr

/-- A band (R382): its key as it stands wrapped in the key table, the area that owns it, the dies it stands on, its next stripe, and its pages
by stripe × 64 + die. -/
structure Band where
  key   : BitVec 256
  area  : Nat
  dies  : List Nat
  next  : Nat
  pages : NMap Page
deriving DecidableEq, Repr

/-- The band an area writes to (R383): its number, the next position in its open stripe (0 with no stripe open), and the instant of that
stripe's last page. -/
structure OpenBand where
  band : Nat
  pos  : Nat
  at'  : Nat
deriving DecidableEq, Repr

/-- An interval entry as the index holds it (R390). -/
structure IvlEntry where
  outcome : Nat
  flags   : Nat
  csn     : Nat
  reg0    : Nat
deriving DecidableEq, Repr

/-- A checkpoint kept in the store (R394–R396): whether it was shipped from the peer, what it holds, and its trailer's KEY_ID and signature.
-/
structure Ckpt where
  peer  : Bool
  img   : Snapshot
  keyId : Nat
  sig   : Nat × Nat
deriving DecidableEq, Repr

/-- A secure discard under way (R398): the slot, or none for the whole store, and since when. -/
structure Discard where
  slot  : Option Nat
  since : Nat
deriving DecidableEq, Repr

/-- The holdup marker (R391): last CSN and highest BNO archived, last PSEQ. -/
structure Tail where
  csn  : Nat
  bno  : Nat
  pseq : Nat
deriving DecidableEq, Repr

/-- The store (R378–R402): state, dies in use, dies, since when a copy runs, what is in the staging buffer, PSEQ, bands by number, erase
counts by band number, the bands written to by area, the number of the last MAP, words held by area, the interval index by slot and END_S,
days indexed, whether some slot's entries were discarded by hint only, archived blocks by BNO, journal words by CSN, checkpoints newest
first, the one being written, the last number, the last multiple of 900 s at which one was begun, discards, the holdup marker, read lookups
made of discarded entries, and the settings fixed when the store was formatted (R379, R409, R440). -/
structure Store where
  st     : Nat
  w      : Nat
  dies   : NMap Die
  copy   : Option Nat
  staged : List Piece
  pseq   : Nat
  bands  : NMap Band
  wear   : NMap Nat
  opens  : NMap OpenBand
  mapNo  : Nat
  words  : NMap Nat
  idx    : NMap (NMap IvlEntry)
  days   : NMap Bool
  dead   : NMap (NMap IvlEntry)
  arch   : NMap Nat
  jour   : NMap (List Word)
  ckpts  : List Ckpt
  cur    : Option Ckpt
  ckNo   : Nat
  ckAt   : Nat
  disc   : List Discard
  tail   : Option Tail
  looks  : Nat
  fixed  : Option (List Nat)
deriving DecidableEq, Repr

/-- An event record (R406). -/
structure EvRec where
  seq    : Nat
  code   : Nat
  cls    : Nat
  args   : List Nat
  commd  : Bool
  holdup : Bool
  prov   : Bool
  keep   : Bool
  time   : Nat
  csn    : Nat
  opS    : Nat
  cycles : Nat
  warms  : Nat
  slot   : Option Nat
  text   : List Octet
deriving DecidableEq, Repr

/-- The event recorder (R403–R416): the last SEQ, raw records, formatted records by SEQ, whether
formatting is forced, operating time in units of 2⁻³⁶ s and since when it counts, cold starts and warm restarts. -/
structure Recorder where
  seq    : Nat
  raw    : List EvRec
  fmt    : NMap EvRec
  newest : Nat
  forced : Bool
  opT    : Nat
  opFrom : Option Nat
  cycles : Nat
  warms  : Nat
deriving DecidableEq, Repr

/-- A switched power domain (R419): state (0 OFF, 1 WAKING, 2 ON, 3 CLOSING, 4 SWITCHING, 5 FAULT), when it entered
it, consecutive failed wakes, the cause of the close in progress (0 idle time, 1 configuration, 2 holdup, 3 warm
restart, 4 stop), and whether a wake is wanted that waits for OFF or for a dependency. -/
structure Domain where
  st    : Nat
  since : Nat
  fails : Nat
  why   : Nat
  want  : Bool
deriving DecidableEq, Repr

/-- A comparator channel (R423, R424): resolved or not, whether its input then reads high, and since when it has been watched. -/
structure Aoc where
  res   : Bool
  high  : Bool
  since : Nat
deriving DecidableEq, Repr

/-- The holdup sequence (R426): t_L in device time and on the running axis, the last step done, whether HOLD_CRIT cut
it short, whether measurement has ended, and whether the store is closed. -/
structure Holdup where
  tL    : Nat
  clkL  : Nat
  stage : Nat
  crit  : Bool
  metro : Bool
  store : Bool
deriving DecidableEq, Repr

/-- Power (R417–R434): the domains, the comparators, HOLD_CRIT and VBAK_LOW, the crossing that began AOC0's run below VTH_L, on the running
axis and in device time, the holdup sequence running, and what PD1 keeps of the last one: t_L, the instant of step 13, LAST_OUT_S,
LAST_HU_MS, LAST_STAGE, LAST_CLEAN, LAST_CRIT, LAST_VBAK_LOW; whether HOLDUP_OK has been set since the start (R433); whether PD1 is valid;
and whether it records PRIMARY and which last CSN for the last stop (R393, R467). -/
structure Power where
  doms   : NMap Domain
  aoc    : NMap Aoc
  crit   : Bool
  vbak   : Bool
  low    : Option (Nat × Nat)
  hu     : Option Holdup
  lastTl : Nat
  offAt  : Option Nat
  outS   : Nat
  huMs   : Nat
  stage  : Nat
  clean  : Bool
  cut    : Bool
  heldOk : Bool
  vbakLow : Bool
  pd1     : Bool
  wasPrim : Bool
  wasCsn  : Nat
deriving DecidableEq, Repr

/-- A boot record (R437): BSEQ, FW_ACTIVE (B), STATE_A, STATE_B, STARTED, LEGAL_ACTIVE (B), RU_V, FAIL_REASON, the versions and
state formats of the slots, STATE_VER_DATA, and the 42 words of the recovery uplink. -/
structure BootRec where
  bseq   : Nat
  actB   : Bool
  stA    : Nat
  stB    : Nat
  started : Bool
  legB   : Bool
  ruV    : Bool
  fail   : Nat
  verA   : Nat
  verB   : Nat
  svA    : Nat
  svB    : Nat
  svData : Nat
  ru     : List Word
deriving DecidableEq, Repr

/-- Boot, configuration and firmware (R435–R457): the phase of the device (0 off, 1 PWR_EN driven, 2 supplies good, 3 started, 4 warm
restart, 5 waiting to drive PWR_EN again) and since when; the boot record in force, whether it is copy 1, and the words of the two copies in
the NOR; of the running firmware FW_VER, the configuration formats it reads and its state format; the cause of recovery, 0 with none;
installed DRAM in Gi words; whether a copy is in force, whether it is copy B, and SEQ_A and SEQ_B; of region 0x0A STAGE, REASON, BAD_BLOCK,
BAD_WORD and since when; of region 0x0B STAGE, REASON and BLOCKS; which legal images are valid; whether a card asked for a start after its
INSTALL; the restart accepted as (ACTION, cold, since); the start of a trial, whether a BLOCK_ACK or PAIR_HB on each path has come under it;
ARG2 of the COLD_START event still owed; and whether the start commits WARM_START. -/
structure Boot where
  phase  : Nat
  since  : Nat
  br     : BootRec
  copyR  : Bool
  rec0   : List Word
  rec1   : List Word
  fwVer  : Nat
  cfgMin : Nat
  cfgMax : Nat
  stVer  : Nat
  recovery : Nat
  dramGiw : Nat
  cfgOn  : Bool
  copyB  : Bool
  seqA   : Nat
  seqB   : Nat
  cStage : Nat
  cWhy   : Nat
  cBlock : Nat
  cWord  : Nat
  cAt    : Nat
  fStage : Nat
  fWhy   : Nat
  fBlocks : Nat
  legAok : Bool
  legBok : Bool
  card   : Bool
  restart : Option (Nat × Bool × Nat)
  trial  : Option Nat
  tAck   : Bool
  tLink  : Bool
  tCxp   : Bool
  arg2   : Nat
  warm   : Bool
deriving DecidableEq, Repr

/-- A checkpoint under receipt (R462): CKPT_NO, the next PART expected, the words of part 0, and of each section received so far, latest
first, its TYPE, its words so far and what it holds. -/
structure PartRx where
  no   : Nat
  next : Nat
  head : List Word
  got  : List (Nat × Nat × SectBody)
deriving DecidableEq, Repr

/-- The pair (R458–R476): PSTATE and since when, the epoch held and the highest known, block lock of the pair link; of the
last PAIR_HB its ROLE, HEALTHY, EPOCH and LAST_CSN; when one last came on the pair link, over CXP, and with ROLE 1 on
either; whether one has come on each path in the running interval, intervals missed on both in a row and intervals in a row
in which the peer reported ROLE 1 with HEALTHY 0; the highest BNO shipped and when the peer's LAST_CSN last advanced; the
checkpoint under receipt; at a takeover whether the grant has come, the MSG_SEQ of the BLOCK_FETCH, the BNO its
LEDGER_ACK named and whether restoration is complete; the handover under way or just taken (0 none, 1 return, 2 swap);
since when the conditions of R472 hold; the next CSN when the lease lapsed; whether the service cores have failed to
check in (R30); whether the checkpoint of a handover has been shipped, the epoch of the last checkpoint shipped, the highest epoch
known before a takeover grant, the 50 ms intervals last ended and last used to send, and the last 58 line bits of the pair link
each way. -/
structure Pair where
  st       : Nat
  since    : Nat
  epoch    : Nat
  known    : Nat
  link     : Bool
  pRole    : Nat
  pHealthy : Bool
  pEpoch   : Nat
  pCsn     : Nat
  hbL      : Option Nat
  hbC      : Option Nat
  role1    : Nat
  gotL     : Bool
  gotC     : Bool
  missN    : Nat
  sick     : Bool
  sickN    : Nat
  shipped  : Nat
  moved    : Nat
  part     : Option PartRx
  granted  : Bool
  fetch    : Option Nat
  head     : Option Nat
  restored : Bool
  hand     : Nat
  ret      : Option Nat
  lapse    : Option Nat
  dead     : Bool
  handed   : Bool
  shipCk   : Option Nat
  old      : Nat
  ivl      : Nat
  outAt    : Nat
  scrT     : Nat
  scrR     : Nat
deriving DecidableEq, Repr

/-- An enrolment record of the enrolment OTP with its valid fuse blown (R478, R482): ENR_HASH and the revoke fuse. -/
structure EnrRec where
  hash    : Nat
  revoked : Bool
deriving DecidableEq, Repr

/-- Identity (R478–R491): the serial that KEY_ID is taken from, the fuse root FR, the custody key CK, the transport key TK and
the DRAM key DK where the device holds them, the enrolment records used, the revoked firmware key slots as a
mask, the four firmware keys (X and the parity of Y) the public key of the Skovan manufacturing CA, the identity key the peer
showed in its certificate (R395, R483), the armed actions of
PD0 as TAMPER_ACT lays them out, per comparator channel whether its assertion has been acted on and since when it reads deasserted,
pins whose assertion is latched for the next start with the RTC count of it, and an ERASE that the next start completes. The private
half of IK and K_WRAP are what FR and CK give (R479, R485). -/
structure Ident where
  serial : Nat
  fr     : Nat
  ck     : Option Nat
  tk     : Option Nat
  dk     : Option Nat
  recs   : List EnrRec
  fwRev  : Nat
  fwKeys : List (Nat × Bool)
  caKey  : List Octet
  peerKey : Option (Nat × Bool)
  armed  : Option Nat
  acted  : NMap (Bool × Option Nat)
  latch  : List (Nat × Nat)
  due    : Bool
deriving DecidableEq, Repr

/-- A commit of the display firmware (R495): the image's address, its words, the mode, and when it was made. -/
structure DispCommit where
  addr  : Nat
  image : List Word
  mode  : Nat
  made  : Nat
deriving DecidableEq, Repr

/-- An update under way (R496, R505): what is shown, whether it is a clearing refresh, its number of frames, and the range
each block of pixels uses. -/
structure DispRun where
  what   : DispCommit
  clear  : Bool
  nf     : Nat
  ranges : List Nat
deriving DecidableEq, Repr

/-- The panel controller (R493–R508): DSTATE and since when, the last tick of the frame timer, MODE, RANGE, FRAME and TEMP_C,
CUT_PENDING, STRESS_LOST, CUR with its words, the commit that waits, the update under way, the display record's UPD_OPEN and
FRAMES_DONE, whether a clearing refresh comes first, whether a stop was requested, neutral frames left in STOPPING, whether the
rails are discharged without the off sequence, the
stress counters by block, and FRAMES_DONE of a cut whose event waits for the ledger. -/
structure Display where
  st     : Nat
  since  : Nat
  tick   : Option Nat
  mode   : Nat
  range  : Nat
  frame  : Nat
  temp   : Int
  cutP   : Bool
  lost   : Bool
  cur    : Nat
  curImg : List Word
  next   : Option DispCommit
  run    : Option DispRun
  isOpen : Bool
  done   : Nat
  clear  : Bool
  stop   : Bool
  left   : Option Nat
  atOnce : Bool
  stress : NMap Nat
  cutDue : Option Nat
deriving DecidableEq, Repr

/-- A UART (R516–R518): octets of a request not yet whole and when its last character ended; since when
UART_DE is active; LOG lines that wait, with the time each takes on the line and when
it was formatted; and when the line being sent ends. -/
structure Uart where
  part  : List Octet
  heard : Nat
  de    : Nat
  lines : List (List Octet × Nat × Nat)
  busy  : Nat
deriving DecidableEq, Repr

/-- A card's container header (R520, R521): whether MAGIC and the block's CRC are right, the blocks the file holds, and the header's
fields; `fresh` says that no log block of this CARD_ID stands on it. -/
structure CardHdr where
  sound    : Bool
  blocks   : Nat
  id       : Nat
  nblk     : Nat
  logFirst : Nat
  logCount : Nat
  impFirst : Nat
  impCount : Nat
  kind     : Nat
  flags    : Nat
  octets   : Nat
  from'    : Nat
  fresh    : Bool
deriving DecidableEq, Repr

/-- The service card (R519–R525): CSTATE and since when, the header of the card in the slot, whether its import has been
carried out; CARD_ID, BSEQ_OK and the block being written with its records as PD1 keeps them, the next SEQ to export, and
when a block was last written; and SD_PWR_EN (R549). -/
structure Card where
  st    : Nat
  since : Nat
  hdr   : Option CardHdr
  done  : Bool
  id    : Nat
  ok    : Nat
  cur   : Option (Nat × Nat × Nat)
  next  : Nat
  wrote : Nat
  power : Bool
deriving DecidableEq, Repr

/-- Local pins, UARTs and the service card (R509–R528): whether pins have their run functions (2), hold their outage
functions (1) or are inputs (0), the bank AO assignments PD0 holds, for each OUT pin whether its source is active and since
when, the last second and cycle pulsed, when the last pulse on each pin ends, the last C0 commit, UARTs, and the card. -/
structure Local where
  pins  : Nat
  ao    : List Nat
  outs  : NMap (Bool × Nat)
  pps   : Nat
  cycle : Nat
  pulses : NMap Nat
  c0    : Option Nat
  uarts : NMap Uart
  card  : Card
deriving DecidableEq, Repr

/-- What the block sends or drives outward; `out` in the state holds what the most recent step produced. -/
inductive Out where
  | linkFrame (link : Nat) (line : List LineBlock)
  | air (stream sub : Nat) (phy : Phy) (psdu : List Octet)
  | ack (stream sub : Nat) (phy : Phy) (psdu : List Octet)
  | horn (stream sub : Nat) (burst : List Octet) (repeats : Nat)
  | rfTxen (port : Nat) (on : Bool)
  | plFrame (stream mask modn atten : Nat) (tmr : Bool) (mac : List Octet)
  | plResp (stream : Nat) (ack : Bool) (check : Nat)
  | plTxen (fe : Nat) (on : Bool)
  | plGain (fe code : Nat)
  | gain (port code : Nat)
  | cxp (peer port typ seq ref : Nat) (body : List Word) (segs : List (List Octet)) (line : List LineBlock)
  | announce (port seq : Nat) (f : Foreign) (taiUtc : Nat) (leap : Option Bool)
  | sync (port seq sec ns corr : Nat)
  | delayReq (port seq : Nat)
  | delayResp (port seq sec ns corr : Nat) (to' port' : Nat)
  | pulse (pin us : Nat)
  | md (w : Option Word)
  | uart (port : Nat) (octets : List Octet)
  | uartLine (port : Nat) (text : List Octet)
  | card (block : Nat) (octets : List Octet)
  | cardResult (kind stage reason keyId cfgSeq fw time bseq : Nat)
  | arp (port addr : Nat)
  | echo (port : Nat) (body : List Octet)
  | pwrEn (on : Bool)
  | epd (lines : List (List Nat))
  | sdPower (on : Bool)
  | nandPage (die block page : Nat) (octets : List Octet)
  | nandErase (die block : Nat)
  | nandFeature (die addr value : Nat)
  | cxpTaken (peer typ seq ref : Nat) (body : List Word)
deriving DecidableEq, Repr

/-- Everything the spec gives the device but its flash memories and staging areas. -/
structure Dev where
  variant : Variant
  clk  : Nat
  out  : List Out
  ctrs : NMap Nat
  draws : Nat
  cfg  : Memory
  tb   : Timebase
  pw   : Power
  q    : Queues
  fr   : Field
  air  : Air
  pl   : Pline
  led  : Ledger
  cmd  : Commands
  bal  : Balance
  met  : Metro
  leg  : LegalPart
  mir  : Mirror
  up   : Uplink
  sto  : Store
  evr  : Recorder
  pair : Pair
  disp : Display
  loc  : Local
  idn  : Ident
  boot : Boot
deriving DecidableEq, Repr

/-- An octet image in the NOR: its blocks of 4 KiB by number. -/
abbrev Image := NMap (List Octet)

/-- The memories of the block: in the NOR the two configuration copies, the two firmware slots and the two legal images
(R435), in DRAM the staging areas (R442, R448, R350). -/
structure Stores where
  norA  : Memory
  norB  : Memory
  cfgStage : Memory
  fwStage  : Memory
  campStage : Memory
  slotA : Image
  slotB : Image
  legA  : Image
  legB  : Image
deriving DecidableEq, Repr

/-- The whole state: commands that wait, first in first out, the word memories, and the device. -/
structure State where
  pending : List Instr
  stores  : Stores
  dev     : Dev
deriving DecidableEq, Repr

/-! The machine right after reset: PD0 first supplied, every other domain off (R424, R433). What the spec gives no value for
is named in notes/assumptions/30.md. -/

def RegSet.zero : RegSet := ⟨List.replicate 48 0, List.replicate 48 0, 0, List.replicate 8 (0, 0), List.replicate 8 (0, 0)⟩

/-- The legal state of a device that has none (R299): all registers 0. -/
def Legal.zero : Legal :=
  { sets := List.replicate 9 RegSet.zero, tariff := 0, bnum := 0, highT := 0, snapNo := 0, bill := false, start := 0,
    at0 := List.replicate 9 (0, 0), ticks := 0, grid := false, broken := false, stepIn := false, leapIn := 0,
    dem := List.replicate 9 (0, 0), tickT := 0 }

/-- A set of directory tables of the least size with nothing in it. -/
def DirSet.empty : DirSet := ⟨17, [0, 0, 0, 0], 0, [], []⟩

def Queues.reset : Queues := ⟨[], []⟩

def Field.reset : Field :=
  { links := [], gain := [], due := [], pend := [], grps := [], nextG := 1, txs := [], cuts := [], keyed := [] }

def Air.reset : Air := ⟨[], [], [], [], [], [], 1, 0⟩

def Pline.reset : Pline :=
  { lanes := [], grps := [], nextG := 1, blank := [], segs := [], reasm := [], jobs := [], sweep := [], route := 0, rreq := [],
    lastS := [], tones := [], keyed := [] }

/-- The ledger with nothing committed: the first block is BNO 1 (R187); the first commit takes CSN 1 (DESIGN CHOICE,
notes/assumptions/30.md). -/
def Ledger.reset : Ledger :=
  { csn := 1, bno := 1, enrolled := false, accepts := false, isSealed := false, openB := none, blocks := [], signQ := [], signAt := 0, verAt := 0,
    prev := 0, acked := 0, sentB := 0, recs := [], keys := [], heldS := [], dir := DirSet.empty,
    rebuild := ⟨.idle, 0, 0, 0, DirSet.empty⟩, load90 := false, stash48 := false, ann := [], inVal := [], aside := [],
    scan := 0 }

def Commands.reset : Commands := ⟨[], [], [], 0⟩

def Balance.reset : Balance := ⟨0, 0, [], [], [], []⟩

def Metro.reset : Metro := ⟨none, [], [], [], [], 0, []⟩

def LegalPart.reset : LegalPart :=
  { st := Legal.zero, due := none, why := 0, snaps := [], check := 0, prev := 0, ver := 0, img := [], copies := [], item := 0,
    shown := 0, pause := none, press := false }

/-- The timebase UNSET (R307), with the RTC model R327 starts from. -/
def Timebase.reset : Timebase :=
  { set := false, off := 0, prov := false, st := 0, servo := 0, left := 0, debt := 0, freq := 0, learned := false,
    lastOff := 0, hist := [], disc := [], far := [], lockN := 0, unlockN := 0, backN := 0, pend := none, step := none,
    lastAcc := 0, unc := 0, uncAt := 0, lastStep := 0, ports := [], tsq := [], tsId := 0, gm := 0, removed := 0,
    taiUtc := 0, leap := none, utcBad := none, bins := [], f0 := 0, t0 := 25, k := -340, fit := false, rtc := none,
    rtcUnc := 0, beacons := [], beaconT := [], sent := 0 }

def Uplink.reset : Uplink :=
  { linkA := false, linkB := false, sess := [], txSeq := [], gen := 0, rx := [], kept := [], lease := none, hbs := [],
    hbSeq := 0, pairSeq := 0, shed := 0, shedAt := 0, gasp := none, hbAt := 0, lastReq := 0, peerGasp := none }

def Mirror.reset : Mirror := ⟨none, false, 0, 0, 0, []⟩

/-- A store that has never been formatted. -/
def Store.reset : Store :=
  { st := 0, w := 0, dies := [], copy := none, staged := [], pseq := 0, bands := [], wear := [], opens := [], mapNo := 0, words := [], idx := [],
    days := [], dead := [], arch := [], jour := [], ckpts := [], cur := none, ckNo := 0, ckAt := 0, disc := [], tail := none,
    looks := 0, fixed := none }

def Recorder.reset : Recorder := ⟨0, [], [], 0, false, 0, none, 0, 0⟩

/-- Every domain off, every comparator unresolved (R424), PD1 holding nothing valid. -/
def Power.reset : Power :=
  { doms := [], aoc := (List.range 8).map fun n => (n, ⟨false, false, 0⟩), crit := false, vbak := false, low := none,
    hu := none, lastTl := 0, offAt := none, outS := 0, huMs := 0, stage := 0, clean := false, cut := false, heldOk := false,
    vbakLow := false, pd1 := false, wasPrim := false, wasCsn := 0 }

def BootRec.reset : BootRec := ⟨0, false, 0, 0, false, false, false, 0, 0, 0, 0, 0, 0, []⟩

def Boot.reset : Boot :=
  { phase := 0, since := 0, br := BootRec.reset, copyR := false, rec0 := [], rec1 := [], fwVer := 0, cfgMin := 0, cfgMax := 0, stVer := 0, recovery := 0,
    dramGiw := 0, cfgOn := false, copyB := false, seqA := 0, seqB := 0, cStage := 0, cWhy := 0, cBlock := 0, cWord := 0,
    cAt := 0, fStage := 0, fWhy := 0, fBlocks := 0, legAok := false, legBok := false, card := false, restart := none,
    trial := none, tAck := false, tLink := false, tCxp := false, arg2 := 0, warm := false }

def Pair.reset : Pair :=
  { st := 0, since := 0, epoch := 0, known := 0, link := false, pRole := 0, pHealthy := false, pEpoch := 0, pCsn := 0,
    hbL := none, hbC := none, role1 := 0, gotL := false, gotC := false, missN := 0, sick := false, sickN := 0, shipped := 0,
    moved := 0, part := none, granted := false, fetch := none, head := none, restored := false, hand := 0, ret := none,
    lapse := none, dead := false, handed := false, shipCk := none, old := 0, ivl := 0, outAt := 0, scrT := 0,
    scrR := 0 }

def Display.reset : Display :=
  { st := 0, since := 0, tick := none, mode := 0, range := 0, frame := 0, temp := 0, cutP := false, lost := false, cur := 0,
    curImg := [], next := none, run := none, isOpen := false, done := 0, clear := false, stop := false, left := none, atOnce := false,
    stress := [], cutDue := none }

def Local.reset : Local := ⟨0, [], [], 0, 0, [], none, [], ⟨0, 0, none, false, 0, 0, none, 1, 0, false⟩⟩

def Ident.reset : Ident :=
  { serial := 0, fr := 0, ck := none, tk := none, dk := none, recs := [], fwRev := 0, fwKeys := List.replicate 4 (0, false), caKey := [], peerKey := none, armed := none, acted := [], latch := [],
    due := false }

/-- The device of a variant right after reset. -/
def Dev.reset (v : Variant) : Dev :=
  { variant := v, clk := 0, out := [], ctrs := [], draws := 0, cfg := [], tb := Timebase.reset, pw := Power.reset,
    q := Queues.reset, fr := Field.reset, air := Air.reset, pl := Pline.reset, led := Ledger.reset, cmd := Commands.reset,
    bal := Balance.reset, met := Metro.reset, leg := LegalPart.reset, mir := Mirror.reset, up := Uplink.reset,
    sto := Store.reset, evr := Recorder.reset, pair := Pair.reset, disp := Display.reset, loc := Local.reset,
    idn := Ident.reset, boot := Boot.reset }

/-- Flash memories and staging areas with nothing in them. -/
def Stores.empty : Stores := ⟨[], [], [], [], [], [], [], [], []⟩

/-- The machine right after reset: an AX3621 (notes/assumptions/30.md) with no command waiting. -/
def State.reset : State := ⟨[], Stores.empty, Dev.reset .ax3621⟩

end Sys2Proof.Machine
end

