-- ==== Sys2Proof/Machine/Ops.lean ====
section
/-!
DEFINITION. The operations every meaning is made of: time, outputs, counters, random draws, and the order in which items that
compete are served.
-/

namespace Sys2Proof.Machine

/-- The outcome of a command. -/
abbrev Result := Host.Outcome State Fault Refusal

/-- `n` microseconds in units of 2⁻³⁶ s, rounded up to a whole unit. -/
def usT (n : Nat) : Nat := cdiv (n * 2 ^ 36) 1000000

/-- `n` seconds in units of 2⁻³⁶ s. -/
def secT (n : Nat) : Nat := n * 2 ^ 36

/-- At least `n` µs have passed on the running axis since instant `t0`. -/
def Dev.passedUs (d : Dev) (t0 n : Nat) : Bool := decide ((d.clk - t0) * 1000000 ≥ n * 2 ^ 36)

/-- At least `n` ms have passed on the running axis since instant `t0`. -/
def Dev.passedMs (d : Dev) (t0 n : Nat) : Bool := d.passedUs t0 (n * 1000)

/-- Device time as a double word (R14); 0 while it is not set (R15). -/
def Dev.now (d : Dev) : Nat := if d.tb.set then ((d.clk : Int) + d.tb.off).toNat else 0

/-- Device time as it runs, whether or not it has been set (R14). -/
def Dev.axis (d : Dev) : Nat := ((d.clk : Int) + d.tb.off).toNat

/-- Device time as the links carry it: SEC28 and FRAC in 64 bits (R69). -/
def Dev.linkTime (d : Dev) : Nat := d.axis % 2 ^ 64

/-- A time of 64 bits, SEC28 and FRAC, extended to the double word nearest the device's own time (R69). -/
def Dev.extend (d : Dev) (v : Nat) : Nat := ((d.axis : Int) + ofTwos 64 (toTwos 64 ((v : Int) - d.axis))).toNat

/-- 20 µs boundaries of device time up to `t` (R62, R68). -/
def ticks20 (t : Nat) : Nat := t * 50000 / 2 ^ 36

/-- Milliseconds of device time up to `t` (R81). -/
def msOf (t : Nat) : Nat := t * 1000 / 2 ^ 36

/-- Device-time seconds. -/
def Dev.nowS (d : Dev) : Nat := d.now / 2 ^ 36

/-- Slews move device time while the running axis moves by `e` (R312, R313): the servo's correction evenly over what is
left of its interval, the debt with what SLEW_MAX_PPM `ppm` leaves. -/
def Timebase.slew (b : Timebase) (ppm e : Nat) : Timebase :=
  let m := min e b.left
  let a : Int := if b.left == 0 then 0 else Int.tdiv (b.servo * m) b.left
  let cap : Int := ((ppm * e / 1000000 : Nat) : Int) - (a.natAbs : Int)
  let c : Int := max (-(max 0 cap)) (min (max 0 cap) b.debt)
  { b with servo := b.servo - a, left := b.left - m, debt := b.debt - c, off := b.off + a + c }

/-- SLEW_MAX_PPM (R328). -/
def Dev.slewPpm (d : Dev) : Nat := (Memory.read d.cfg 18159).toNat / 2 % 512

/-- At most `n` µs have passed on the running axis since instant `t0`. -/
def Dev.withinUs (d : Dev) (t0 n : Nat) : Bool := decide ((d.clk - t0) * 1000000 ≤ n * 2 ^ 36)

/-- A counter field: its word's address in the mirror counter region (R372) and its bits. -/
structure Fld where
  addr : Nat
  hi   : Nat
  lo   : Nat
deriving DecidableEq, Repr

/-- The key of a counter field. -/
def Fld.key (f : Fld) : Nat := f.addr * 64 + f.lo

/-- The largest value of a counter field. -/
def Fld.top (f : Fld) : Nat := 2 ^ (f.hi + 1 - f.lo) - 1

/-- What a counter field holds. -/
def Dev.ctr (d : Dev) (f : Fld) : Nat := NMap.look d.ctrs f.key 0

/-- A counter field `n` higher, held at its all-ones value (R18). -/
def Dev.countN (d : Dev) (f : Fld) (n : Nat) : Dev :=
  { d with ctrs := NMap.put d.ctrs f.key (min (d.ctr f + n) f.top) }

/-- A counter field one higher, held at its all-ones value (R18). -/
def Dev.count (d : Dev) (f : Fld) : Dev := d.countN f 1

/-- A counter field set to a value it can hold. -/
def Dev.setCtr (d : Dev) (f : Fld) (v : Nat) : Dev := { d with ctrs := NMap.put d.ctrs f.key (min v f.top) }

/-- The device after it has put out `o`. -/
def Dev.emit (d : Dev) (o : Out) : Dev := { d with out := d.out ++ [o] }

/-- A pulse of `us` µs begins now on local pin `p` (R267, R326). -/
def Dev.pulse (d : Dev) (p us : Nat) : Dev :=
  ({ d with loc := { d.loc with pulses := NMap.put d.loc.pulses p (d.clk + usT us) } } : Dev).emit (.pulse p us)

/-! Local pins and LOG lines, which move with time (R510, R512, R518). -/

/-- The word of local pin `p` (R510). -/
def Dev.pinW (d : Dev) (p : Nat) : Word := Memory.read d.cfg (34726 + p)
def Dev.pinFunc (d : Dev) (p : Nat) : Nat := fld (d.pinW p) 35 32

/-- The pins have their run functions (R515). -/
def Dev.pinsRun (d : Dev) : Bool := d.loc.pins == 2

/-- Comparator channel `n` is resolved and reads high (R423, R424). -/
def Dev.aocHigh (d : Dev) (n : Nat) : Bool := ((NMap.find d.pw.aoc n).map fun x => x.res && x.high).getD false

/-- The pin word that governs the comparator of pin `k`: the one in force, or before a copy is in force what PD0 holds
(R510, R515). -/
def Dev.tamperW (d : Dev) (k : Nat) : Word := if d.boot.cfgOn then d.pinW k else W (d.loc.ao.getD k 0)

/-- Pin `k` is a tamper input (R511): until a pin word is known, every channel is. -/
def Dev.isTamper (d : Dev) (k : Nat) : Bool :=
  (!d.boot.cfgOn && d.loc.ao.isEmpty) || fld (d.tamperW k) 35 32 == 1

/-- The tamper input on pin `k` reads asserted (R423, R424, R510, R511): as its polarity says, and until its channel
resolves, always. -/
def Dev.tamperOn (d : Dev) (k : Nat) : Bool :=
  d.isTamper k && match NMap.find d.pw.aoc (k + 2) with
    | some x => !x.res || x.high != bitOf (d.tamperW k) 31
    | none => true

/-- The SOURCE of an OUT pin holds (R510); a C0 commit is no state. -/
def Dev.outSource (d : Dev) (p : Nat) : Bool :=
  match fld (d.pinW p) 28 25 with
  | 1 => d.bal.zones.any fun z => z.2.lossAl || z.2.negAl
  | 2 => (List.range 6).any d.tamperOn
  | 3 => d.tb.st != 2
  | 4 => d.sto.st != 1
  | 5 => d.pair.st == 3 || d.pair.st == 6
  | 7 => d.aocHigh 0
  | _ => false

/-- What is known of an OUT pin's source, brought up to now. -/
def Dev.settleOut (d : Dev) (m : NMap (Bool × Nat)) (p : Nat) : NMap (Bool × Nat) :=
  let x := NMap.look m p (false, 0)
  let a := d.outSource p
  if !(d.pinsRun && d.pinFunc p == 3) || a == x.1 then m else NMap.put m p (a, if a then d.clk else x.2)

/-- Each OUT pin's source as it stands now, with the instant it last became active (R510). -/
def Dev.settleOuts (d : Dev) : Dev :=
  let m := (List.range 48).foldl d.settleOut d.loc.outs
  { d with loc := { d.loc with outs := m } }

/-- The word of UART `u` (R516). -/
def Dev.uartW (d : Dev) (u : Nat) : Word := Memory.read d.cfg (34774 + u)

def Uart.idle : Uart := ⟨[], 0, 0, [], 0⟩

def Dev.uart (d : Dev) (u : Nat) : Uart := NMap.look d.loc.uarts u Uart.idle

def Dev.setUart (d : Dev) (u : Nat) (x : Uart) : Dev := { d with loc := { d.loc with uarts := NMap.put d.loc.uarts u x } }

def fUartFrames (u : Nat) : Fld := ⟨0x04F4 + 2 * u, 35, 0⟩
def fUartCrc (u : Nat) : Fld := ⟨0x04F5 + 2 * u, 35, 24⟩
def fUartFraming (u : Nat) : Fld := ⟨0x04F5 + 2 * u, 23, 12⟩
def fLogSkip (u : Nat) : Fld := ⟨0x04F5 + 2 * u, 11, 0⟩

/-- LOG lines whose turn has come go out one after the other (R518). -/
def Dev.sendLines (d : Dev) (u : Nat) : Nat → Dev
  | 0 => d
  | fuel + 1 =>
    let x := d.uart u
    match x.lines with
    | [] => d
    | (os, dur, q) :: r =>
      if d.clk < x.busy then d
      else
        Dev.sendLines (((d.setUart u { x with lines := r, de := max x.busy q, busy := max x.busy q + dur }).count (fUartFrames u)).emit
          (.uartLine u os)) u fuel

/-- Every UART sends the lines whose turn has come. -/
def Dev.sendLog (d : Dev) : Dev := d.loc.uarts.foldl (fun x u => x.sendLines u.1 u.2.lines.length) d

/-- A lease is valid now (R356). -/
def Dev.leased (d : Dev) : Bool :=
  match d.up.lease with
  | some e => decide (d.clk < e)
  | none => false

/-- The device is the primary of its pair, or a single device (R459, R467). -/
def Dev.primary (d : Dev) : Bool := d.pair.st == 3 || d.pair.st == 6

/-- The air and the powerline are not used: device time is provisional (R321), the holdup sequence runs (R427), or the
device is not a primary whose lease is valid (R466). -/
def Dev.quiet (d : Dev) : Bool := d.pw.hu.isSome || d.tb.prov || !(d.primary && d.leased)

/-- `f` applied where `c` holds. -/
def Dev.onlyIf (d : Dev) (c : Bool) (f : Dev → Dev) : Dev := if c then f d else d

/-- A random draw below `n` (a whole number from 0 to n − 1), and the device with that draw taken. -/
def Dev.draw (d : Dev) (n : Nat) : Nat × Dev := (Config.random d.draws % n, { d with draws := d.draws + 1 })

/-- Of two items, by class, time tag, stream and subchannel, the first is served before the second (R27, R28). -/
def before (a b : Nat × Nat × Nat × Nat) : Bool :=
  decide (a.1 < b.1) || (a.1 == b.1 && (decide (a.2.1 < b.2.1) || (a.2.1 == b.2.1 &&
    (decide (a.2.2.1 < b.2.2.1) || (a.2.2.1 == b.2.2.1 && decide (a.2.2.2 < b.2.2.2))))))

/-- The element ranked first by an order; of elements equal in it, the earliest in the list. -/
def bestBy {α : Type} (lt : α → α → Bool) : List α → Option α
  | [] => none
  | a :: r =>
    match bestBy lt r with
    | none => some a
    | some b => if lt b a then some b else some a

def Domain.off : Domain := ⟨0, 0, 0, 0, false⟩

/-- A power domain. -/
def Dev.dom (d : Dev) (n : Nat) : Domain := NMap.look d.pw.doms n Domain.off

/-- Whether a power domain is ON (R419); PD0 and PD1 always are (R418). -/
def Dev.domOn (d : Dev) (n : Nat) : Bool := decide (n < 2) || (d.dom n).st == 2

end Sys2Proof.Machine
end

