-- ==== Sys2Proof/Machine/Settings.lean ====
section
/-!
DEFINITION. The configuration in force, field by field, at the places R439 gives its blocks in the copy (spec 17), and
the fields of each block as its chapter lays them out.
-/

namespace Sys2Proof.Machine

/-- Word `i` of the configuration in force, counted from H0. -/
def Dev.cfgW (d : Dev) (i : Nat) : Word := Memory.read d.cfg i

/-- CFG_SEQ of the copy in force, 0 with none (R438). -/
def Dev.cfgSeq (d : Dev) : Nat := (d.cfgW 1).toNat

/-! The first word of each block in a copy of CFG_VER 1 (R439): 8 header words and 24 directory entries come first. -/

def blkQueues : Nat := 56
def blkRf : Nat := 57
def blkLinks : Nat := 889
def blkDet : Nat := 905
def blkClassOct : Nat := 906
def blkAir : Nat := 912
def blkDwell : Nat := 950
def blkPl : Nat := 1462
def blkPlNet : Nat := 1622
def blkLedger : Nat := 1642
def blkCommands : Nat := 1645
def blkBalance : Nat := 1647
def blkZones : Nat := 1713
def blkMetro : Nat := 18097
def blkTime : Nat := 18158
def blkUplink : Nat := 18197
def blkMirror : Nat := 18239
def blkStore : Nat := 18240
def blkRecorder : Nat := 18264
def blkPower : Nat := 18265
def blkPair : Nat := 18267

/-- Block 0x18, and PAIR_ID in it (R481). -/
def blkIdentity : Nat := 34779
def Dev.pairId (d : Dev) : Nat := (d.cfgW (blkIdentity + 1)).toNat

/-! The variant's resources (R1). -/

def Variant.slots : Variant → Nat
  | .ax3621 => 2097152
  | .ax3619 => 524288

def Variant.lanes : Variant → Nat
  | .ax3621 => 128
  | .ax3619 => 64

def Variant.streams : Variant → Nat
  | .ax3621 => 32
  | .ax3619 => 16

/-- PART in the part identification word (R5). -/
def Variant.part : Variant → Nat
  | .ax3621 => 0x3621
  | .ax3619 => 0x3619

/-- The part identification word (R5). -/
def Variant.partId (v : Variant) : Word := pk [(0xA, 35, 32), (v.part, 31, 16), (0xB, 15, 12), (0, 11, 8)]

/-! Queues (R52). -/

def Dev.staleUs (d : Dev) : Nat := fld (d.cfgW blkQueues) 35 20

/-- Pages of the Mire: MIRE_MIWORDS × 2²⁰ words in pages of 1,024 (R52). -/
def Dev.mirePages (d : Dev) : Nat := fld (d.cfgW blkQueues) 19 9 * 1024

/-! RF streams (R65, R80). -/

def Dev.rfW (d : Dev) (s w : Nat) : Word := d.cfgW (blkRf + 26 * s + w)
def Dev.rfEn (d : Dev) (s : Nat) : Bool := decide (s < d.variant.streams) && bitOf (d.rfW s 0) 35
def Dev.rfSrcLink (d : Dev) (s : Nat) : Bool := bitOf (d.rfW s 0) 34
def Dev.rfLink (d : Dev) (s : Nat) : Nat := fld (d.rfW s 0) 33 30
def Dev.rfPos (d : Dev) (s : Nat) : Nat := fld (d.rfW s 0) 29 28
def Dev.rfCentreKhz (d : Dev) (s : Nat) : Nat := fld (d.rfW s 0) 27 0
def Dev.rfFineHz (d : Dev) (s : Nat) : Int := ofTwos 18 (fld (d.rfW s 1) 35 18)
def Dev.rfSpan (d : Dev) (s : Nat) : Bool := fld (d.rfW s 1) 17 16 == 1
def Dev.rfGuard (d : Dev) (s : Nat) : Nat := fld (d.rfW s 1) 15 12
def Dev.rfOverlap (d : Dev) (s : Nat) : Nat := fld (d.rfW s 1) 11 8
def Dev.rfAntNs (d : Dev) (s : Nat) : Nat := fld (d.rfW s 2) 35 24
def Dev.rfClassMark (d : Dev) (s : Nat) : Bool := bitOf (d.rfW s 2) 23
def Dev.rfModeMask (d : Dev) (s : Nat) : Nat := fld (d.rfW s 2) 22 15
def Dev.rfDetThr (d : Dev) (s : Nat) : Nat := fld (d.rfW s 1) 7 0
def Dev.rfTailUs (d : Dev) (s : Nat) : Nat := fld (d.rfW s 2) 14 7
def Dev.rfGainCfg (d : Dev) (s : Nat) : Nat := fld (d.rfW s 2) 6 1

/-- The channel-plan entry of a subchannel: NARROW and GROUP (R80). -/
def Dev.planEntry (d : Dev) (s sub : Nat) : Nat :=
  fld (d.rfW s (3 + sub / 9)) (4 * (sub % 9) + 3) (4 * (sub % 9))

def Dev.planNarrow (d : Dev) (s sub : Nat) : Bool := decide (d.planEntry s sub ≥ 8)
def Dev.planGroup (d : Dev) (s sub : Nat) : Nat := d.planEntry s sub % 8

/-! Field links (R67). -/

def Dev.linkW (d : Dev) (k : Nat) : Word := d.cfgW (blkLinks + k)
def Dev.linkEn (d : Dev) (k : Nat) : Bool := decide (k < 16) && bitOf (d.linkW k) 35
def Dev.linkPl (d : Dev) (k : Nat) : Bool := bitOf (d.linkW k) 34
def Dev.linkCount (d : Dev) (k : Nat) : Nat := fld (d.linkW k) 33 29
def Dev.linkCtrlBlocks (d : Dev) (k : Nat) : Nat := fld (d.linkW k) 28 24

/-! Detection (R87) and the class-octet table (R107). -/

def Dev.grantWaitUs (d : Dev) : Nat := fld (d.cfgW blkDet) 35 26

/-- Entry `k` of the class-octet table. -/
def Dev.classEntry (d : Dev) (k : Nat) : Nat :=
  fld (d.cfgW (blkClassOct + k / 3)) (12 * (k % 3) + 11) (12 * (k % 3))

/-- The class a valid entry of the class-octet table gives an octet. -/
def Dev.classOfOctet (d : Dev) (o : Octet) : Option Nat :=
  (List.range 16).findSome? fun k =>
    let e := d.classEntry k
    if e / 2048 == 1 && e % 256 == o.toNat then some (e / 256 % 8) else none

/-! Air access (R119, R129). -/

def Dev.airW (d : Dev) (i : Nat) : Word := d.cfgW (blkAir + i)
def Dev.txLanes (d : Dev) : Nat := fld (d.airW 0) 35 28
def Dev.maxRetries (d : Dev) : Nat := fld (d.airW 0) 27 25
def Dev.minBe (d : Dev) : Nat := fld (d.airW 0) 24 21
def Dev.maxBe (d : Dev) : Nat := fld (d.airW 0) 20 17
def Dev.maxCca (d : Dev) : Nat := fld (d.airW 0) 16 14
def Dev.ccaUs (d : Dev) : Nat := fld (d.airW 0) 13 6 * 10
def Dev.dlSec (d : Dev) : Nat := fld (d.airW 0) 5 4
def Dev.mailMs (d : Dev) : Nat := fld (d.airW 1) 35 26
def Dev.ccaThr (d : Dev) : Nat := fld (d.airW 1) 25 18
def Dev.panId (d : Dev) : Nat := fld (d.airW 1) 17 2
def Dev.netShort (d : Dev) : Nat := fld (d.airW 2) 35 20
def Dev.netEui (d : Dev) : Eui := BitVec.ofNat 64 (fld (d.airW 3) 35 4 * 2 ^ 32 + fld (d.airW 4) 35 4)
def Dev.hornRepeat (d : Dev) : Nat := fld (d.airW 5) 35 32
def Dev.hornDayMax (d : Dev) : Nat := fld (d.airW 5) 31 24
def Dev.hornWakeMs (d : Dev) : Nat := fld (d.airW 5) 23 16
def Dev.hornListenMs (d : Dev) : Nat := fld (d.airW 5) 15 4
def Dev.hornSub (d : Dev) (s : Nat) : Nat := fld (d.airW (6 + s)) 35 28
def Dev.dwellTable (d : Dev) (s : Nat) : Nat := fld (d.airW (6 + s)) 27 26

/-- An entry of a dwell table (R120). -/
structure DwellEntry where
  low    : Nat
  high   : Nat
  resPct : Nat
  winS   : Nat
  maxMs  : Nat
  chKhz  : Nat
deriving DecidableEq, Repr

/-- The valid entries of a dwell table with their numbers (R120). -/
def Dev.dwellEntries (d : Dev) (tab : Nat) : List (Nat × DwellEntry) :=
  (List.range 32).filterMap fun e =>
    let w (i : Nat) := d.cfgW (blkDwell + 128 * tab + 4 * e + i)
    if bitOf (w 0) 0 then
      some (e, ⟨fld (w 0) 35 8, fld (w 1) 35 8, fld (w 0) 7 1, fld (w 2) 35 24, fld (w 2) 23 0, fld (w 3) 35 20⟩)
    else none

/-! Powerline (R132, R146, R150, R156). -/

def Dev.plW (d : Dev) (s w : Nat) : Word := d.cfgW (blkPl + 5 * s + w)
def Dev.plEn (d : Dev) (s : Nat) : Bool := decide (s < 32) && bitOf (d.plW s 0) 35
def Dev.plSrcLink (d : Dev) (s : Nat) : Bool := bitOf (d.plW s 0) 34
def Dev.plLink (d : Dev) (s : Nat) : Nat := fld (d.plW s 0) 33 30
def Dev.plPos (d : Dev) (s : Nat) : Nat := fld (d.plW s 0) 29 26
def Dev.plFcc (d : Dev) (s : Nat) : Bool := bitOf (d.plW s 0) 25
def Dev.plOverlap (d : Dev) (s : Nat) : Nat := fld (d.plW s 0) 24 21
def Dev.plDetThr (d : Dev) (s : Nat) : Nat := fld (d.plW s 0) 20 13
def Dev.plBlankK (d : Dev) (s : Nat) : Nat := fld (d.plW s 1) 35 30
def Dev.plBlankFloor (d : Dev) (s : Nat) : Nat := fld (d.plW s 1) 29 14
def Dev.plBlankHold (d : Dev) (s : Nat) : Nat := fld (d.plW s 1) 13 6
def Dev.plAntNs (d : Dev) (s : Nat) : Nat := fld (d.plW s 2) 35 24
def Dev.plAtten (d : Dev) (s : Nat) : Nat := fld (d.plW s 2) 23 19

/-- TONE_MASK: bit k set means that carrier k is not used. -/
def Dev.plToneMask (d : Dev) (s : Nat) : Nat := joinW (d.plW s 3) (d.plW s 4)
def Dev.plGain (d : Dev) (s : Nat) : Nat := fld (d.plW s 2) 18 15
def Dev.plSlotUs (d : Dev) (s : Nat) : Nat := fld (d.plW s 2) 14 3

def Dev.pnW (d : Dev) (i : Nat) : Word := d.cfgW (blkPlNet + i)
def Dev.plAckUs (d : Dev) : Nat := fld (d.pnW 0) 35 24
def Dev.plCifs (d : Dev) : Nat := fld (d.pnW 0) 23 20
def Dev.plPcw (d : Dev) : Nat := fld (d.pnW 0) 19 16
def Dev.plMinBe (d : Dev) : Nat := fld (d.pnW 0) 15 12
def Dev.plMaxBe (d : Dev) : Nat := fld (d.pnW 0) 11 8
def Dev.plMaxCsma (d : Dev) : Nat := fld (d.pnW 0) 7 5
def Dev.plMaxRetries (d : Dev) : Nat := fld (d.pnW 0) 4 2
def Dev.plRouteS (d : Dev) : Nat := fld (d.pnW 1) 35 24
def Dev.plMaxHops (d : Dev) : Nat := fld (d.pnW 1) 23 20
def Dev.plKh (d : Dev) : Nat := fld (d.pnW 1) 19 16
def Dev.plKm (d : Dev) : Nat := fld (d.pnW 1) 15 12
def Dev.plKq (d : Dev) : Nat := fld (d.pnW 1) 11 8
def Dev.plQref (d : Dev) : Nat := fld (d.pnW 1) 7 0
def Dev.plRouteAge (d : Dev) : Nat := fld (d.pnW 2) 35 24
def Dev.plRreqS (d : Dev) : Nat := fld (d.pnW 2) 23 16
def Dev.reasmS (d : Dev) : Nat := fld (d.pnW 2) 15 10
def Dev.discWinMs (d : Dev) : Nat := fld (d.pnW 3) 35 24
def Dev.sweepH (d : Dev) : Nat := fld (d.pnW 3) 23 16
def Dev.confTries (d : Dev) : Nat := fld (d.pnW 3) 15 13
def Dev.sweepMax (d : Dev) : Nat := fld (d.pnW 3) 12 0

/-- The valid start prefixes, as (length, address), with zeros below their length (R152, R156). -/
def Dev.startPrefixes (d : Dev) : List (Nat × Eui) :=
  (List.range 8).filterMap fun i =>
    if bitOf (d.pnW (5 + 2 * i)) 29 then
      let len := fld (d.pnW (5 + 2 * i)) 35 30
      some (len, BitVec.ofNat 64 (fld (d.pnW (4 + 2 * i)) 35 4 * 2 ^ 32 / 2 ^ (64 - len) * 2 ^ (64 - len)))
    else none

/-! Ledger (R199). -/

def Dev.ldW (d : Dev) (i : Nat) : Word := d.cfgW (blkLedger + i)
def Dev.plausSoft (d : Dev) : Nat := fld (d.ldW 0) 35 26
def Dev.plausHard (d : Dev) : Nat := fld (d.ldW 0) 25 16
def Dev.skewFlagMs (d : Dev) : Nat := fld (d.ldW 0) 15 0
def Dev.skewQuarMs (d : Dev) : Nat := fld (d.ldW 1) 35 20
def Dev.staleMult (d : Dev) : Nat := fld (d.ldW 1) 19 12
def Dev.rcptDeadlineS (d : Dev) : Nat := fld (d.ldW 1) 11 0
def Dev.dirLog2Cfg (d : Dev) : Nat := fld (d.ldW 2) 35 31
def Dev.rebuildRate (d : Dev) : Nat := fld (d.ldW 2) 30 25
def Dev.annHoldS (d : Dev) : Nat := fld (d.ldW 2) 24 13

/-! Commands (R234, R235). -/

def Dev.respWaitS (d : Dev) : Nat := fld (d.cfgW blkCommands) 35 24
def Dev.actGraceMin (d : Dev) : Nat := fld (d.cfgW blkCommands) 23 12

/-- A late-action policy: RUN_LATE, and LATE_MAX_MIN where 0 is no limit (R219, R235). -/
structure Policy where
  runLate : Bool
  maxMin  : Nat
deriving DecidableEq, Repr

def Dev.polMeterAt (d : Dev) : Policy := ⟨bitOf (d.cfgW (blkCommands + 1)) 35, fld (d.cfgW (blkCommands + 1)) 34 27⟩
def Dev.polCampStart (d : Dev) : Policy := ⟨bitOf (d.cfgW (blkCommands + 1)) 26, fld (d.cfgW (blkCommands + 1)) 25 18⟩
def Dev.polCampAct (d : Dev) : Policy := ⟨bitOf (d.cfgW (blkCommands + 1)) 17, fld (d.cfgW (blkCommands + 1)) 16 9⟩

/-- A late action still runs: RUN_LATE, and not late by more than LATE_MAX_MIN (R219). -/
def Policy.runs (p : Policy) (lateS : Nat) : Bool := p.runLate && (p.maxMin == 0 || decide (lateS ≤ p.maxMin * 60))

/-! Balance (R237, R238, R254). -/

def Dev.zoneW (d : Dev) (z i : Nat) : Word := d.cfgW (blkZones + 4 * z + i)

/-- A zone is defined (R237). -/
def Dev.zoneV (d : Dev) (z : Nat) : Bool := decide (z < 4096) && bitOf (d.zoneW z 0) 35
def Dev.zRefKind (d : Dev) (z : Nat) : Nat := fld (d.zoneW z 0) 34 33
def Dev.zFeeder (d : Dev) (z : Nat) : Nat := fld (d.zoneW z 0) 32 30
def Dev.zRefPhase (d : Dev) (z : Nat) : Nat := fld (d.zoneW z 0) 29 28
def Dev.zBusbar (d : Dev) (z : Nat) : Nat := fld (d.zoneW z 0) 27 26
def Dev.zVrefLl (d : Dev) (z : Nat) : Bool := bitOf (d.zoneW z 0) 25
def Dev.zAutoPhase (d : Dev) (z : Nat) : Bool := bitOf (d.zoneW z 0) 24
def Dev.zRefSlot (d : Dev) (z : Nat) : Nat := fld (d.zoneW z 0) 23 3
def Dev.zLossFix (d : Dev) (z : Nat) : Nat := fld (d.zoneW z 1) 35 16
def Dev.zVnom (d : Dev) (z : Nat) : Nat := fld (d.zoneW z 1) 15 0
def Dev.zLossR (d : Dev) (z : Nat) : Nat := fld (d.zoneW z 2) 35 12
def Dev.zResPermil (d : Dev) (z : Nat) : Nat := fld (d.zoneW z 2) 11 2
def Dev.zResAbs (d : Dev) (z : Nat) : Nat := fld (d.zoneW z 3) 35 20
def Dev.zPersistN (d : Dev) (z : Nat) : Nat := fld (d.zoneW z 3) 19 16
def Dev.zPersistM (d : Dev) (z : Nat) : Nat := fld (d.zoneW z 3) 15 12
def Dev.zClearN (d : Dev) (z : Nat) : Nat := fld (d.zoneW z 3) 11 8
def Dev.zMissMax (d : Dev) (z : Nat) : Nat := fld (d.zoneW z 3) 7 1
def Dev.balIvlMin (d : Dev) : Nat := fld (d.cfgW blkBalance) 35 30
def Dev.balWaitMin (d : Dev) : Nat := fld (d.cfgW blkBalance) 29 20
def Dev.phiWinD (d : Dev) : Nat := fld (d.cfgW blkBalance) 19 14
def Dev.phiMin (d : Dev) : Nat := fld (d.cfgW blkBalance) 13 7
def Dev.phiMargin (d : Dev) : Nat := fld (d.cfgW blkBalance) 6 0
def Dev.phiMinN (d : Dev) : Nat := fld (d.cfgW (blkBalance + 1)) 35 22

/-- The roles of a meter type's registers (R238). -/
def Dev.roles (d : Dev) (mtype : Nat) : List Nat :=
  match (List.range 64).find? fun i =>
      bitOf (d.cfgW (blkBalance + 2 + i)) 19 && fld (d.cfgW (blkBalance + 2 + i)) 35 20 == mtype with
  | some i => let w := d.cfgW (blkBalance + 2 + i); [fld w 18 16, fld w 15 13, fld w 12 10, fld w 9 7]
  | none => [1, 0, 0, 0]

/-! Metrology (R271). -/

def Dev.rmsTicks (d : Dev) : Nat := fld (d.cfgW blkMetro) 35 29
def Dev.fnom60 (d : Dev) : Bool := bitOf (d.cfgW blkMetro) 28
def Dev.syncEn (d : Dev) : Bool := bitOf (d.cfgW blkMetro) 27
def Dev.syncFall (d : Dev) : Bool := bitOf (d.cfgW blkMetro) 26
def Dev.groupPreset (d : Dev) (g : Nat) : Nat := fld (d.cfgW (blkMetro + 1 + g)) 35 33
def Dev.groupScs (d : Dev) (g : Nat) : Bool := bitOf (d.cfgW (blkMetro + 1 + g)) 32

/-- A metrology channel is enabled. -/
def Dev.chanEn (d : Dev) (c : Nat) : Bool := decide (c < 48) && bitOf (d.cfgW (blkMetro + 5 + c)) 35
def Dev.chanGain (d : Dev) (c : Nat) : Nat := fld (d.cfgW (blkMetro + 5 + c)) 34 31
def Dev.chanFs (d : Dev) (c : Nat) : Nat := fld (d.cfgW (blkMetro + 5 + c)) 28 0
def Dev.feederEn (d : Dev) (f : Nat) : Bool := decide (f < 8) && bitOf (d.cfgW (blkMetro + 53 + f)) 35
def Dev.feederBus (d : Dev) (f : Nat) : Nat := fld (d.cfgW (blkMetro + 53 + f)) 34 33
def Dev.feederInv (d : Dev) (f : Nat) : Bool := bitOf (d.cfgW (blkMetro + 53 + f)) 32

/-- The group of a channel (R257). -/
def Dev.chanGroup (d : Dev) (c : Nat) : Nat := if c < 32 then d.feederBus (c / 4) else (c - 32) / 4

/-! Time (R328). -/

def Dev.tmW (d : Dev) (i : Nat) : Word := d.cfgW (blkTime + i)
def Dev.ptpEn (d : Dev) (p : Nat) : Bool := bitOf (d.tmW 0) (35 - min p 1)
def Dev.ptpDomain (d : Dev) : Nat := fld (d.tmW 0) 31 24
def Dev.ptpPrio1 (d : Dev) : Nat := fld (d.tmW 0) 23 16
def Dev.ptpPrio2 (d : Dev) : Nat := fld (d.tmW 0) 15 8
def Dev.logSync (d : Dev) : Nat := fld (d.tmW 0) 7 5
def Dev.kpShift (d : Dev) : Nat := fld (d.tmW 1) 35 32
def Dev.kiShift (d : Dev) : Nat := fld (d.tmW 1) 31 28
def Dev.lockNs (d : Dev) : Nat := fld (d.tmW 1) 27 20
def Dev.unlockNs (d : Dev) : Nat := fld (d.tmW 1) 19 10
def Dev.fwdAuto (d : Dev) : Bool := bitOf (d.tmW 1) 0
def Dev.asymNs (d : Dev) (p : Nat) : Int := ofTwos 18 (if p == 0 then fld (d.tmW 2) 35 18 else fld (d.tmW 2) 17 0)
def Dev.taiCfg (d : Dev) : Nat := fld (d.tmW 3) 35 28
def Dev.stdOffMin (d : Dev) : Int := ofTwos 11 (fld (d.tmW 3) 27 17)
def Dev.dstOffMin (d : Dev) : Nat := fld (d.tmW 3) 16 9
def Dev.timeWaitS (d : Dev) : Nat := fld (d.tmW 3) 8 2
def Dev.beaconS (d : Dev) : Nat := fld (d.tmW 6) 35 24
def Dev.beaconPlS (d : Dev) : Nat := fld (d.tmW 6) 23 12
def Dev.cycleMs (d : Dev) : Nat := fld (d.tmW 6) 11 0
def Dev.beaconSub (d : Dev) (s : Nat) : Nat := fld (d.tmW (7 + s)) 35 28
def Dev.beaconMode (d : Dev) (s : Nat) : Nat := fld (d.tmW (7 + s)) 27 20

/-! Store (R379). -/

def Dev.stW (d : Dev) (i : Nat) : Word := d.cfgW (blkStore + i)
def Dev.diesPerCh (d : Dev) : Nat := fld (d.stW 0) 35 32
def Dev.pageCode (d : Dev) : Nat := fld (d.stW 0) 31 30
def Dev.ppb (d : Dev) : Nat := fld (d.stW 0) 29 18
def Dev.bpd (d : Dev) : Nat := fld (d.stW 0) 17 2
def Dev.tprogUs (d : Dev) : Nat := fld (d.stW 1) 32 21
def Dev.sparePct (d : Dev) : Nat := fld (d.stW 1) 12 7
def Dev.intDays (d : Dev) : Nat := fld (d.stW 2) 35 26
def Dev.archDays (d : Dev) : Nat := fld (d.stW 2) 25 16
def Dev.intPct (d : Dev) : Nat := fld (d.stW 2) 15 9
def Dev.archPct (d : Dev) : Nat := fld (d.stW 2) 8 2
def Dev.discardOnRemove (d : Dev) : Bool := bitOf (d.stW 2) 1
def Dev.rebuildMbs (d : Dev) : Nat := fld (d.stW 3) 35 24
def Dev.scrubBits (d : Dev) : Nat := fld (d.stW 3) 15 8
def Dev.ckptKeep (d : Dev) : Nat := fld (d.stW 3) 7 4

/-! Uplink (R331, R332); port 0 is A, port 1 is B. -/

def Dev.portW (d : Dev) (p w : Nat) : Word := d.cfgW (blkUplink + 20 * p + w)
def Dev.portEn (d : Dev) (p : Nat) : Bool := decide (p < 2) && bitOf (d.portW p 0) 35
def Dev.portMode (d : Dev) (p : Nat) : Nat := fld (d.portW p 0) 34 33
def Dev.portIpv4 (d : Dev) (p : Nat) : Bool := bitOf (d.portW p 0) 32
def Dev.portMtu (d : Dev) (p : Nat) : Nat := fld (d.portW p 0) 15 2

/-- Four words of an address, 32 bits each (R331). -/
def Dev.portAddr (d : Dev) (p w : Nat) : Nat := ofWords32 [d.portW p w, d.portW p (w + 1), d.portW p (w + 2), d.portW p (w + 3)]

def Dev.peerSet (d : Dev) (p : Nat) : Bool := d.portAddr p 16 != 0
def Dev.resendMs (d : Dev) : Nat := fld (d.cfgW (blkUplink + 40)) 19 8
def Dev.txWindow (d : Dev) : Nat := fld (d.cfgW (blkUplink + 40)) 7 0
def Dev.sessionToS (d : Dev) : Nat := fld (d.cfgW (blkUplink + 41)) 35 30
def Dev.busyRetryMs (d : Dev) : Nat := fld (d.cfgW (blkUplink + 41)) 29 18
def Dev.pairClient (d : Dev) : Bool := bitOf (d.cfgW (blkUplink + 41)) 17

/-! Power (R422). -/

def Dev.mainsFiltUs (d : Dev) : Nat := fld (d.cfgW blkPower) 35 25
def Dev.huMetroMs (d : Dev) : Nat := fld (d.cfgW blkPower) 24 15
def Dev.laneIdleUs (d : Dev) : Nat := fld (d.cfgW blkPower) 14 3
def Dev.cryptoIdleUs (d : Dev) : Nat := fld (d.cfgW (blkPower + 1)) 35 24
def Dev.coreIdleMs (d : Dev) : Nat := fld (d.cfgW (blkPower + 1)) 23 14
def Dev.coresMin (d : Dev) : Nat := fld (d.cfgW (blkPower + 1)) 13 11

/-! Event recorder (R409). -/

def Dev.recOverwrite (d : Dev) : Bool := bitOf (d.cfgW blkRecorder) 35

/-- N records of an area (R409). -/
def Dev.recN (d : Dev) : Nat := fld (d.cfgW blkRecorder) 34 25 * 1024

/-! The mirror word (R369), and mirror epochs (R364). -/

def Dev.epochMs (d : Dev) : Nat := fld (d.cfgW blkMirror) 35 22
def Dev.holdAlarmMs (d : Dev) : Nat := fld (d.cfgW blkMirror) 21 8

/-- The number of the scheduled flip instant at or before device time `n` (R364). -/
def Dev.epochIdx (d : Dev) (n : Nat) : Nat := if d.epochMs == 0 then 0 else n * 1000 / (d.epochMs * 2 ^ 36)

/-- Device time `n` is within 2 µs after a scheduled flip instant (R364). -/
def Dev.onEpoch (d : Dev) (n : Nat) : Bool :=
  d.epochMs != 0 && decide (n * 1000 % (d.epochMs * 2 ^ 36) * 1000 ≤ 2 * 2 ^ 36)

/-- Scheduled instants since the last one dealt with (R364, R365). -/
def Dev.epochsPassed (d : Dev) : Nat := d.epochIdx d.now - d.mir.last

/-- Device time has been set or stepped since `d0` (R326, R377): the next scheduled instant is the first at or after the new
time, and those that passed during a hold stay counted. -/
def Dev.epochKeep (d d0 : Dev) : Dev :=
  let n := if d0.mir.held.isSome then d0.epochsPassed else 0
  { d with mir := { d.mir with last := d.epochIdx d.now - (n + b2n (d.onEpoch d.now)) } }

end Sys2Proof.Machine
end

