-- ==== Sys2Proof/Machine/Streams.lean ====
section
/-!
DEFINITION. Streams, lanes and transmissions as they stand: which streams are up, what subchannels a mode occupies, air
times, blanking windows, detectors, and the ways a lane or a request ends (spec 03, R60–R65, R78–R94; 04, R95–R99).
-/

namespace Sys2Proof.Machine

/-! Stream counters (R94) and air counters (R130). -/

def fDetect (s : Nat) : Fld := ⟨0x0600 + 8 * s, 35, 0⟩
def fGranted (s : Nat) : Fld := ⟨0x0600 + 8 * s + 1, 35, 0⟩
def fStarved (s : Nat) : Fld := ⟨0x0600 + 8 * s + 2, 35, 18⟩
def fBlanked (s : Nat) : Fld := ⟨0x0600 + 8 * s + 2, 17, 0⟩
def fDupDrop (s : Nat) : Fld := ⟨0x0600 + 8 * s + 3, 35, 18⟩
def fLateDup (s : Nat) : Fld := ⟨0x0600 + 8 * s + 3, 17, 0⟩
def fSelfSupp (s : Nat) : Fld := ⟨0x0600 + 8 * s + 4, 35, 18⟩
def fBusySub (s : Nat) : Fld := ⟨0x0600 + 8 * s + 4, 17, 0⟩
def fLinkAbort (s : Nat) : Fld := ⟨0x0600 + 8 * s + 5, 35, 18⟩
def fAckDrop (s : Nat) : Fld := ⟨0x0600 + 8 * s + 5, 17, 0⟩
def fOverrange (s : Nat) : Fld := ⟨0x0600 + 8 * s + 6, 35, 18⟩

def fTxFrames (s : Nat) : Fld := ⟨0x0800 + 16 * s, 35, 0⟩
def fTxAcked (s : Nat) : Fld := ⟨0x0800 + 16 * s + 1, 35, 18⟩
def fNoAck (s : Nat) : Fld := ⟨0x0800 + 16 * s + 1, 17, 0⟩
def fAckSent (s : Nat) : Fld := ⟨0x0800 + 16 * s + 2, 35, 0⟩
def fAckDwell (s : Nat) : Fld := ⟨0x0800 + 16 * s + 3, 35, 18⟩
def fAckLate (s : Nat) : Fld := ⟨0x0800 + 16 * s + 3, 17, 0⟩
def fCcaBusy (s : Nat) : Fld := ⟨0x0800 + 16 * s + 4, 35, 18⟩
def fLbtFail (s : Nat) : Fld := ⟨0x0800 + 16 * s + 4, 17, 0⟩
def fDwellDefer (s : Nat) : Fld := ⟨0x0800 + 16 * s + 5, 35, 18⟩
def fDwellReject (s : Nat) : Fld := ⟨0x0800 + 16 * s + 5, 17, 0⟩
def fHornCalls (s : Nat) : Fld := ⟨0x0800 + 16 * s + 6, 35, 18⟩
def fHornRefused (s : Nat) : Fld := ⟨0x0800 + 16 * s + 6, 17, 0⟩
def fSlotBusy (s : Nat) : Fld := ⟨0x0800 + 16 * s + 7, 35, 18⟩
def fSlotUnsync (s : Nat) : Fld := ⟨0x0800 + 16 * s + 7, 17, 0⟩
def fFcsErr (s : Nat) : Fld := ⟨0x0800 + 16 * s + 8, 35, 18⟩
def fPhrErr (s : Nat) : Fld := ⟨0x0800 + 16 * s + 8, 17, 0⟩
def fAddrFilter (s : Nat) : Fld := ⟨0x0800 + 16 * s + 9, 35, 18⟩
def fUnknownSrc (s : Nat) : Fld := ⟨0x0800 + 16 * s + 9, 17, 0⟩
def fReplay (s : Nat) : Fld := ⟨0x0800 + 16 * s + 10, 35, 18⟩
def fSecFail (s : Nat) : Fld := ⟨0x0800 + 16 * s + 10, 17, 0⟩
def fCounterEnd (s : Nat) : Fld := ⟨0x0800 + 16 * s + 11, 35, 18⟩

/-! Links and streams. -/

def Link.down : Link :=
  { st := .off, since := 0, scrT := 0, scrR := 0, txK := none, txSeq := 0, rxSeq := none, lastOk := 0, good := 0, bad := 0, req := none, exch := false,
    sent := 0, delay := 0, offset := 0, alarm := 0, status := 0, silent := false, started := 0, body := [], ctlQ := [] }

def Dev.link (d : Dev) (k : Nat) : Link := NMap.look d.fr.links k Link.down

def Dev.setLink (d : Dev) (k : Nat) (l : Link) : Dev :=
  { d with fr := { d.fr with links := NMap.put d.fr.links k l } }

/-- An RF stream's source carries samples: a local port whose domain is ON, or a link that is UP (R75, R88). -/
def Dev.sourceUp (d : Dev) (s : Nat) : Bool :=
  if d.rfSrcLink s then (d.link (d.rfLink s)).st == .up else d.domOn (36 + d.rfPos s)

/-- An RF stream is enabled and its source is UP. -/
def Dev.streamUp (d : Dev) (s : Nat) : Bool := d.rfEn s && d.sourceUp s

/-- Detection runs on the stream: it is up, and its channeliser quarter and detection plane are ON (R82, R88). -/
def Dev.searching (d : Dev) (s : Nat) : Bool := d.streamUp s && d.domOn (9 + s / 8) && d.domOn (13 + s / 8)

/-- The RF streams a link carries. -/
def Dev.streamsOf (d : Dev) (k : Nat) : List Nat :=
  (List.range d.variant.streams).filter fun s => d.rfEn s && d.rfSrcLink s && d.rfLink s == k

/-! Modes. -/

/-- Centre frequency of a subchannel in Hz (R78). -/
def Dev.subFreq (d : Dev) (s sub : Nat) : Int :=
  (d.rfCentreKhz s : Int) * 1000 + d.rfFineHz s + ((sub : Int) - 100) * 200000

/-- Centre frequency in Hz of what is received or sent at a subchannel (R78, R79, R96). -/
def Dev.centre (d : Dev) (s sub : Nat) (p : Phy) : Int :=
  d.subFreq s sub + if p.ofdm then ((p.width : Int) - 1) * 100000 else 0

/-- Whether a stream's channel plan searches a subchannel for a mode (R80, R82). -/
def Dev.searches (d : Dev) (s sub : Nat) (p : Phy) : Bool :=
  decide (sub < 200) &&
  if p.ofdm then
    if p.n == 4 then d.planNarrow s sub else 1 ≤ p.n && p.n ≤ 3 && d.planGroup s sub == 4 - p.n
  else d.planNarrow s sub && d.rfModeMask s / 2 ^ p.n % 2 == 1 && (p.width == 1 || (1 ≤ sub && sub ≤ 198))

/-! Lanes. -/

def Lane.idle : Lane :=
  { st := .idle, det := Detect.none, cls := 2, grp := 0, phr := none, hdr := none, looked := false, slot := none,
    rxCtr := 0, keys := [], fin := none, job := none, be := 0, busy := 0, phase := 0, wait := 0, heard := false, horn := false,
    slotted := false, fpend := false, since := 0 }

/-- A lane; one in a cluster whose domain is not ON, or that the variant has not, is OFF (R86, R99). -/
def Dev.lane (d : Dev) (n : Nat) : Lane := NMap.look d.air.lanes n { Lane.idle with st := .off }

def Dev.setLane (d : Dev) (n : Nat) (l : Lane) : Dev :=
  { d with air := { d.air with lanes := NMap.put d.air.lanes n l } }

/-- A lane goes to IDLE, or to OFF where its cluster is closing (R99). -/
def Dev.freeLane (d : Dev) (n : Nat) : Dev :=
  d.setLane n { Lane.idle with st := if d.domOn (17 + n / 8) then .idle else .off, since := d.clk }

/-- A lane's frame waits under back-pressure, and the lane keeps it and stays busy (R55). -/
def Dev.laneKeeps (d : Dev) (n : Nat) : Bool :=
  d.q.q.any fun e => e.2.held.any fun p => match p.item with
    | .frame x => !x.pl && x.lane == n
    | _ => false

/-- The lowest-numbered free lane in a cluster whose domain is ON (R86). -/
def Dev.freeLane? (d : Dev) : Option Nat :=
  (List.range d.variant.lanes).find? fun n => (d.lane n).st == .idle && !d.laneKeeps n && d.domOn (17 + n / 8)

/-! Transmissions and blanking. -/

/-- A transmission is running or holds a reserved place (R64). -/
def Tx.counts (x : Tx) : Bool := x.phase == .onAir || x.phase == .reserved || x.phase == .ackLead

/-- Transmissions running or reserved on a stream (R64). -/
def Dev.txCount (d : Dev) (s : Nat) : Nat := (d.fr.txs.filter fun x => x.stream == s && x.counts).length

/-- The window of a transmission blanks from 10 µs before its first sample to its tail's end, or for the 50 µs of a gain change
(R63, R92). -/
def Tx.blanks (x : Tx) : Bool := x.phase != .reserved && x.phase != .planned

/-- Transmissions that run on one stream at once do not overlap (R64): some of `subs` is taken already. -/
def Dev.txOverlaps (d : Dev) (lane s : Nat) (subs : List Nat) : Bool :=
  d.fr.txs.any fun x => x.stream == s && x.lane != lane && (x.counts || x.phase == .planned || x.phase == .lead)
    && x.subs.any subs.contains

/-- A blanking window covers a subchannel of its own stream (R92). -/
def Dev.blankCovers (d : Dev) (x : Tx) (sub : Nat) : Bool :=
  x.phase == .gain || !d.rfSpan x.stream ||
    x.subs.any fun u => decide (u ≤ sub + d.rfGuard x.stream) && decide (sub ≤ u + d.rfGuard x.stream)

/-- Some subchannel of `subs` on a stream is blanked (R92). -/
def Dev.blanked (d : Dev) (s : Nat) (subs : List Nat) : Bool :=
  d.fr.txs.any fun x => x.stream == s && x.blanks && subs.any (d.blankCovers x)

/-- A detection at these subchannels is self-hearing: another stream of the same non-zero coverage set transmits there
(R93). -/
def Dev.selfHeard (d : Dev) (s : Nat) (subs : List Nat) : Bool :=
  d.rfOverlap s != 0 && d.fr.txs.any fun x =>
    x.stream != s && x.blanks && x.phase != .gain && d.rfOverlap x.stream == d.rfOverlap s &&
    x.subs.any fun u => subs.any fun v =>
      decide (((d.subFreq x.stream u - d.subFreq s v).natAbs) ≤ 100000 * (1 + d.rfGuard x.stream))

/-! Detectors, requests and duplicate groups. -/

/-- Two detections come from one detector (R88). -/
def sameDetector (a b : Detect) : Bool := a.stream == b.stream && a.sub == b.sub && a.group == b.group

/-- A detector is PENDING (R88). -/
def Dev.detPending (d : Dev) (x : Detect) : Bool := d.fr.pend.any fun r => sameDetector r.det x

/-- A detector is GRANTED: a lane receives from it (R88). -/
def Dev.detGranted (d : Dev) (x : Detect) : Bool :=
  d.air.lanes.any fun p => p.2.st == .rx && sameDetector p.2.det x

/-- Duplicate groups nobody refers to any longer are closed (R89). -/
def Dev.pruneGroups (d : Dev) : Dev :=
  let busy (g : Nat) : Bool :=
    d.fr.pend.any (fun r => r.grp == g)
      || d.air.lanes.any (fun p => (p.2.st == .rx || p.2.st == .hold) && p.2.grp == g)
  { d with fr := { d.fr with grps := NMap.keep d.fr.grps fun g _ => busy g } }

/-- Pending requests that pass `p` are dropped, each counted by `f` on its stream. -/
def Dev.dropRequests (d : Dev) (p : Request → Bool) (f : Nat → Fld) : Dev :=
  let gone := d.fr.pend.filter p
  let d1 := { d with fr := { d.fr with pend := d.fr.pend.filter fun r => !p r } }
  gone.foldl (fun x r => x.count (f r.det.stream)) d1

/-- Lanes that pass `p` are aborted, each counted by `f` on its stream. -/
def Dev.abortLanes (d : Dev) (p : Nat → Lane → Bool) (f : Nat → Fld) : Dev :=
  (d.air.lanes.filter fun e => p e.1 e.2).foldl (fun x e => (x.count (f e.2.det.stream)).freeLane e.1) d

/-- Some detector the window of `x` covers (R92). -/
def Dev.windowHits (d : Dev) (x : Tx) (q : Detect) : Bool := q.stream == x.stream && q.subs.any (d.blankCovers x)

/-- A window opens: lanes in RX inside it are aborted except the transmitting one, pending requests inside it are dropped, all
counted as BLANKED (R92). -/
def Dev.openWindow (d : Dev) (x : Tx) : Dev :=
  ((d.abortLanes (fun n l => l.st == .rx && n != x.lane && d.windowHits x l.det) fBlanked).dropRequests
    (fun r => d.windowHits x r.det) fBlanked).pruneGroups

/-- The phase a planned or reserved transmission goes to when its window opens. -/
def Tx.opened (x : Tx) : Tx :=
  match x.phase with
  | .reserved => { x with phase := .ackLead }
  | .planned => { x with phase := .lead }
  | _ => x

/-- The subchannels a window covers. -/
def Dev.coveredBy (d : Dev) (x : Tx) : List Nat := (List.range 200).filter (d.blankCovers x)

/-- A window that has blanked ends: what it covered gets no averages for the milliseconds it touched (R81). Ended windows that no
noise floor can rest on any longer are forgotten. -/
def Dev.addCut (d : Dev) (x : Tx) : Dev :=
  if !x.blanks then d
  else
    let c : Cut := ⟨x.stream, d.coveredBy x, msOf (((x.opens : Int) + d.tb.off).toNat), msOf d.axis⟩
    let later (e : Cut) : Nat :=
      ((d.fr.cuts.filter fun f => f.stream == e.stream && decide (e.last ≤ f.last)).map fun f => f.last + 1 - f.from').sum
    { d with fr := { d.fr with
        cuts := (d.fr.cuts.filter fun e => decide (msOf d.axis < e.last + 18 + later e + (c.last + 1 - c.from'))) ++ [c] } }

/-- Transmissions and windows that pass `p` are gone. -/
def Dev.endTx (d : Dev) (p : Tx → Bool) : Dev :=
  let d1 := (d.fr.txs.filter p).foldl Dev.addCut d
  { d1 with fr := { d1.fr with txs := d1.fr.txs.filter fun x => !p x } }

/-- The last sample of a lane's transmission has left: its blanking tail begins (R92). -/
def Dev.stopTx (d : Dev) (lane : Nat) : Dev :=
  { d with fr := { d.fr with txs := d.fr.txs.map fun x =>
      if x.lane == lane && x.phase == .onAir then { x with phase := .tail, since := d.clk } else x } }

/-- A lane's reserved place, planned or running transmission is given up, and its dwell reservation. -/
def Dev.dropTx (d : Dev) (lane : Nat) : Dev :=
  let d1 := d.endTx fun x => x.lane == lane && (x.counts || x.phase == .planned || x.phase == .lead)
  { d1 with air := { d1.air with dwell := d1.air.dwell.map fun p => (p.1, { p.2 with resv := NMap.del p.2.resv lane }) } }

/-- A transmission joins those of its stream; one whose window opens at once blanks at once. -/
def Dev.addTx (d : Dev) (x : Tx) : Dev :=
  let y := if x.opens ≤ d.clk then x.opened else x
  let d1 : Dev := { d with fr := { d.fr with txs := d.fr.txs ++ [y] } }
  if y.blanks then d1.openWindow y else d1

/-- The first sample of a lane's planned or reserved transmission leaves (R92, R99). -/
def Dev.startTx (d : Dev) (lane : Nat) : Dev :=
  let go (x : Tx) : Bool := x.lane == lane && x.phase != .onAir && x.phase != .tail && x.phase != .gain
  let d1 := (d.fr.txs.filter fun x => go x && !x.blanks).foldl Dev.openWindow d
  { d1 with fr := { d1.fr with txs := d1.fr.txs.map fun x => if go x then { x with phase := .onAir, since := d.clk } else x } }

/-- The receive gain in effect on an RF stream (R63, R65). -/
def Dev.rfGain (d : Dev) (s : Nat) : Nat := NMap.look d.fr.gain s (d.rfGainCfg s)

/-- The window of a stream's gain change (R63): 50 µs of the whole stream. -/
def gainWindow (stream clk : Nat) : Tx := ⟨4096 + stream, stream, [], .gain, clk, clk, 0, ⟨false, 0, 0, false⟩, 0, [], 0⟩

/-- A gain change whose 20 µs boundary has come takes effect, driven on a local port's outputs, and blanks its stream (R63, R65). -/
def Dev.applyGain (d : Dev) (e : Nat × Nat × Nat) : Dev :=
  if d.axis < e.2.1 then d
  else
    let d1 : Dev := { d with fr := { d.fr with gain := NMap.put d.fr.gain e.1 e.2.2, due := NMap.del d.fr.due e.1 } }
    let d2 := if d.rfSrcLink e.1 then d1 else d1.emit (.gain (d.rfPos e.1) e.2.2)
    d2.addTx (gainWindow e.1 (d.clk - (d.axis - e.2.1)))

/-- Gain changes and windows whose time has come. -/
def Dev.openDue (d : Dev) : Dev :=
  let d1 := d.fr.due.foldl Dev.applyGain d
  let now (x : Tx) : Bool := (x.phase == .reserved || x.phase == .planned) && decide (x.opens ≤ d.clk)
  let d2 := (d1.fr.txs.filter now).foldl Dev.openWindow d1
  { d2 with fr := { d2.fr with txs := d2.fr.txs.map fun x => if now x then x.opened else x } }

/-- RFn_TR and RFn_TXEN of local port `p` are to be asserted: from 10 µs before the first sample to 5 µs after the last (R543). -/
def Dev.portKeyed (d : Dev) (p : Nat) : Bool :=
  d.fr.txs.any fun x => !d.rfSrcLink x.stream && d.rfPos x.stream == p && x.blanks && x.phase != .gain
    && !(x.phase == .tail && d.passedUs x.since 5)

/-- The transmit outputs of local ports follow (R543). -/
def Dev.keyPorts (d : Dev) : Dev :=
  (List.range 4).foldl (fun (x : Dev) p =>
    if x.portKeyed p == x.fr.keyed.contains p then x
    else
      ({ x with fr := { x.fr with keyed := if x.portKeyed p then x.fr.keyed ++ [p] else x.fr.keyed.filter (· != p) } }).emit
        (.rfTxen p (x.portKeyed p))) d

end Sys2Proof.Machine
end

