-- ==== Sys2Proof/Machine/PlBase.lean ====
section
/-!
DEFINITION. Powerline streams and lanes as they stand, their counters, and the impulsive-noise blanking (spec 05, R131–R139, R157;
22, R544).
-/

namespace Sys2Proof.Machine

/-! Powerline counters (R157). -/

def plF (s w hi lo : Nat) : Fld := ⟨0x0C00 + 16 * s + w, hi, lo⟩
def fPlRxFrames (s : Nat) : Fld := plF s 0 35 0
def fPlFchErr (s : Nat) : Fld := plF s 1 35 18
def fPlFcsErr (s : Nat) : Fld := plF s 1 17 0
def fPlAckSent (s : Nat) : Fld := plF s 2 35 0
def fPlNackSent (s : Nat) : Fld := plF s 3 35 18
def fPlAckLate (s : Nat) : Fld := plF s 3 17 0
def fPlBlankSamples (s : Nat) : Fld := plF s 4 35 0
def fPlImpulses (s : Nat) : Fld := plF s 5 35 18
def fPlErased (s : Nat) : Fld := plF s 5 17 0
def fPlBursts (s : Nat) : Fld := plF s 6 35 18
def fPlOverrange (s : Nat) : Fld := plF s 6 17 0
def fPlTxFrames (s : Nat) : Fld := plF s 7 35 0
def fPlCcaBusy (s : Nat) : Fld := plF s 8 35 18
def fPlLbtFail (s : Nat) : Fld := plF s 8 17 0
def fPlNoAck (s : Nat) : Fld := plF s 9 35 18
def fPlNoRoute (s : Nat) : Fld := plF s 9 17 0
def fPlReasmTo (s : Nat) : Fld := plF s 10 35 18
def fPlReasmFull (s : Nat) : Fld := plF s 10 17 0
def fPlDupDrop (s : Nat) : Fld := plF s 11 35 18
def fPlUnknownSrc (s : Nat) : Fld := plF s 11 17 0
def fPlSecFail (s : Nat) : Fld := plF s 12 35 18
def fPlReplay (s : Nat) : Fld := plF s 12 17 0
def fDiscFound (s : Nat) : Fld := plF s 13 35 18
def fDiscDropped (s : Nat) : Fld := plF s 13 17 0
def fDiscKnown (s : Nat) : Fld := plF s 14 35 18
def fDupEui (s : Nat) : Fld := plF s 14 17 0

/-- The domain of a powerline lane (R134). -/
def plLaneDom (s : Nat) : Nat := 33 + min 2 (s / 11)

/-- A powerline stream's source carries samples. -/
def Dev.plSourceUp (d : Dev) (s : Nat) : Bool :=
  if d.plSrcLink s then (d.link (d.plLink s)).st == .up else d.domOn (33 + d.plPos s / 2)

/-- The three conditions of a powerline lane hold (R135). -/
def Dev.plUp (d : Dev) (s : Nat) : Bool := d.plEn s && d.plSourceUp s && d.domOn (plLaneDom s)

def PlLane.init : PlLane :=
  { st := .off, tag := 0, lq := 0, frame := none, endT := 0, ar := false, check := 0, grp := 0, nbr := none, slot := none, cls := 2,
    ack := false, job := none, be := 0, busy := 0, draw := 0, idle := 0, blank := 0, first := 0, octets := [], tone := (0, 0), since := 0 }

def Dev.plLane (d : Dev) (s : Nat) : PlLane := NMap.look d.pl.lanes s PlLane.init

def Dev.setPlLane (d : Dev) (s : Nat) (l : PlLane) : Dev :=
  { d with pl := { d.pl with lanes := NMap.put d.pl.lanes s l } }

/-- A powerline lane's frame waits under back-pressure, and the lane keeps it and stays busy (R55). -/
def Dev.plKeeps (d : Dev) (s : Nat) : Bool :=
  d.q.q.any fun e => e.2.held.any fun p => match p.item with
    | .frame x => x.pl && x.lane == s
    | _ => false

/-- The powerline streams a link carries. -/
def Dev.plStreamsOf (d : Dev) (k : Nat) : List Nat :=
  (List.range 32).filter fun s => d.plEn s && d.plSrcLink s && d.plLink s == k

/-! Samples sent (R131, R132, R544). -/

/-- A contention slot's start, or a response's: the running-axis instant at which the lane's next first sample leaves (R143, R144). A job
of C2 to C4 backs off from the end of the priority window, or from when it came where that has passed; one of C0 or C1 has its slot in the
window, or counts it from when it came (DESIGN CHOICE for what comes after the window, notes/assumptions/60.md). -/
def Dev.plStartAt (d : Dev) (s : Nat) (cls : Nat) : Nat :=
  let l := d.plLane s
  let slots (n : Nat) : Nat := usT (n * d.plSlotUs s)
  if cls ≤ 1 then
    let own := l.idle + slots (d.plCifs + l.draw)
    if l.since ≤ own then own else l.since + slots l.draw
  else max (l.idle + slots (d.plCifs + d.plPcw)) l.since + slots l.draw

/-- How long before its emission a sample leaves the device: a link's delay and 20 µs (R112). -/
def Dev.plLead (d : Dev) (s : Nat) : Nat := if d.plSrcLink s then (d.link (d.plLink s)).delay.toNat + usT 20 else 0

/-- When a lane in TURN or NACK is to send its first response sample, on the running axis (R143). -/
def Dev.plRespAt (d : Dev) (s : Nat) : Nat := (((d.plLane s).endT + usT d.plAckUs : Nat) - d.tb.off).toNat

/-- The first sample a lane is about to send, on the running axis. -/
def Dev.plNext (d : Dev) (s : Nat) : Option Nat :=
  match (d.plLane s).st with
  | .access =>
    ((d.plLane s).job.bind (NMap.find d.pl.jobs)).map fun j => d.plStartAt s j.cls
  | .turn | .nack => some (d.plRespAt s)
  | _ => none

/-- The lane's own transmission blanks its stream: from 10 µs before the first sample to 40 µs after the last (R134). -/
def Dev.plBlanked (d : Dev) (s : Nat) : Bool :=
  let l := d.plLane s
  l.st == .tx || l.st == .resp || decide (d.clk < l.blank) ||
    match d.plNext s with
    | some t => decide (t ≤ d.clk + usT 10)
    | none => false

/-- PLn_TXEN of a front end is to be asserted: from 20 µs before the first sample to 10 µs after the last (R544). -/
def Dev.feKeyed (d : Dev) (fe : Nat) : Bool :=
  (List.range 32).any fun s => d.plEn s && !d.plSrcLink s && d.plPos s == fe &&
    ((d.plLane s).st == .tx || (d.plLane s).st == .resp || decide (d.clk + usT 30 < (d.plLane s).blank) ||
      match d.plNext s with
      | some t => decide (t ≤ d.clk + usT 20)
      | none => false)

/-- The transmit outputs of front ends follow (R544). -/
def Dev.keyFes (d : Dev) : Dev :=
  (List.range 6).foldl (fun (x : Dev) p =>
    if x.feKeyed p == x.pl.keyed.contains p then x
    else
      ({ x with pl := { x.pl with keyed := if x.feKeyed p then x.pl.keyed ++ [p] else x.pl.keyed.filter (· != p) } }).emit
        (.plTxen p (x.feKeyed p))) d

/-- A stream sends during the 20 µs from device time `t` (R69). -/
def Dev.plSends (d : Dev) (s t : Nat) : Bool :=
  let l := d.plLane s
  (l.st == .tx || l.st == .resp) && decide (l.first < t + usT 20)

/-- A stream's transmit sample for the converter at device time `t`: advanced by ANT_DELAY and attenuated by TX_ATTEN (R132, R544). -/
def Dev.plTxSample (d : Dev) (s t : Nat) : Int :=
  let l := d.plLane s
  let at' := t + cdiv (d.plAntNs s * 2 ^ 36) 1000000000
  if (l.st == .tx || l.st == .resp) && decide (l.first ≤ at') then
    max (-32767) (min 32767 (Config.plWaveform (b2n (d.plFcc s)) l.tone.1 l.tone.2 (d.plAtten s) l.octets
      ((at' - l.first) * 1200000 / 2 ^ 36)))
  else 0

/-! Impulsive-noise blanking (R139). -/

def Blanker.init : Blanker := ⟨0, 0, 0, [], 0, 0, 0, 0⟩

def Dev.blanker (d : Dev) (s : Nat) : Blanker := NMap.look d.pl.blank s Blanker.init

/-- The whole square root of a number below 4ⁿ, bit by bit. -/
def isqrt (v : Nat) : Nat → Nat → Nat
  | 0, r => r
  | n + 1, r => isqrt v n (if (r + 2 ^ n) * (r + 2 ^ n) ≤ v then r + 2 ^ n else r)

/-- The element at place `i` of a list put in rising order. -/
def nth (l : List Nat) (i : Nat) : Nat := (l.foldr (insertOn id) []).getD i 0

/-- The running RMS: the median of the last 16 values (of the two in the middle the first, notes/assumptions/60.md). -/
def Blanker.running (b : Blanker) : Nat := nth b.rms ((b.rms.length - 1) / 2)

/-- The threshold T: BLANK_FLOOR alone while fewer than 16 values stand, and none where that is 0 or BLANK_K is. -/
def Dev.blankAt (d : Dev) (s : Nat) (b : Blanker) : Option Nat :=
  if d.plBlankK s == 0 then none
  else if b.rms.length < 16 then (if d.plBlankFloor s == 0 then none else some (d.plBlankFloor s))
  else some (max (d.plBlankK s * b.running / 4) (d.plBlankFloor s))

/-- Samples of an OFDM symbol of a band. -/
def symbolSamples (fcc : Bool) : Nat := Config.plSymbol (b2n fcc)

/-- The millisecond that has ended leaves its RMS, where a sample of it was not blanked. -/
def Blanker.turn (b : Blanker) (ms : Nat) : Blanker :=
  if b.ms == ms then b
  else
    { b with ms := ms, sum := 0, n := 0,
             rms := if b.n == 0 then b.rms else (isqrt (b.sum / b.n) 16 0 :: b.rms).take 16 }

/-- One sample `v` in the millisecond `ms` on stream `s`, while a frame is received or not: blanked or not, and what is counted
(R139, R157). -/
def Dev.plSample (d : Dev) (s ms : Nat) (v : Int) : Dev :=
  let b := (d.blanker s).turn ms
  let hit := match d.blankAt s b with
    | some t => decide (t < v.natAbs)
    | none => false
  let out := hit || decide (0 < b.hold)
  let rx := (d.plLane s).st == .rx
  let len := symbolSamples (d.plFcc s)
  let symB := b.symB + b2n out
  let full := rx && decide (len ≤ b.sym + 1)
  let b1 : Blanker := { b with
    sum := if out then b.sum else b.sum + v.natAbs * v.natAbs
    n := if out then b.n else b.n + 1
    hold := if hit then d.plBlankHold s else b.hold - 1
    run := if out then b.run + 1 else 0
    sym := if full || !rx then 0 else b.sym + 1
    symB := if full || !rx then 0 else symB }
  let d1 : Dev := { d with pl := { d.pl with blank := NMap.put d.pl.blank s b1 } }
  let d2 := d1.onlyIf out fun x => (x.count (fPlBlankSamples s)).onlyIf (b.run == 0) fun y => y.count (fPlImpulses s)
  let d3 := d2.onlyIf (out && b.run == 1200) fun x => x.count (fPlBursts s)
  d3.onlyIf (full && decide (len < 4 * symB)) fun x => x.count (fPlErased s)

/-- The samples of a link's powerline streams in one frame (R69, R139). -/
def Dev.plTakeFrame (d : Dev) (k : Nat) (samples : NMap (List Int)) : Dev :=
  (d.plStreamsOf k).foldl (fun (x : Dev) s =>
    (NMap.look samples (x.plPos s) []).foldl (fun (y : Dev) v => y.plSample s (msOf y.axis) v) x) d

/-- An RMS in 0.25 dB below full scale, 0 to 1,023: as many steps of 10^(1/80) as it lies below 32,768. -/
def quarterDb (rms : Nat) : Nat :=
  if rms == 0 then 1023
  else ((List.range 1023).filter fun k => decide (rms ^ 80 * 10 ^ (k + 1) ≤ 32768 ^ 80)).length

/-- NOISE of a powerline stream (R157). -/
def Dev.plNoise (d : Dev) (s : Nat) : Nat := quarterDb (d.blanker s).running

end Sys2Proof.Machine
end

