-- ==== Sys2Proof/Machine/Samples.lean ====
section
/-!
DEFINITION. Samples: what local ports convert, overrange, noise floors, and the samples the device sends (spec 03, R61, R62, R64,
R81, R94; 05, R131).
-/

namespace Sys2Proof.Machine

/-! Received samples. -/

/-- The number of the sample of a rate in samples per second at device time `t` (R62, R131). -/
def sampleNo (rate t : Nat) : Nat := t * rate / 2 ^ 36

/-- A source never gives −32,768 (R61, R131). -/
def clampSample (v : Int) : Int := max (-32767) v

/-- A rail of a local RF port: the 14-bit converter value in bits [15:2], zeros below (R61). -/
def railOf (code : Nat) : Int := clampSample (4 * ofTwos 14 (code % 2 ^ 14))

/-- Sample `n` of a local RF port. -/
def portSample (port n : Nat) : Int × Int :=
  (railOf (Config.rfConverter port n).1, railOf (Config.rfConverter port n).2)

/-- Sample `n` of a local powerline front end (R131). -/
def plPortSample (fe n : Nat) : Int := clampSample (ofTwos 16 (Config.plConverter fe n % 2 ^ 16))

/-- A rail or a real sample is overrange (R61, R131). -/
def overrange (v : Int) : Bool := decide (32764 ≤ v.natAbs)

/-- Some sample of a local RF port is overrange in a 20 µs interval of device time (R81): 1,024 samples. -/
def portOver (port k : Nat) : Bool :=
  (List.range 1024).any fun i => overrange (portSample port (1024 * k + i)).1 || overrange (portSample port (1024 * k + i)).2

/-- Some sample of a local powerline front end is overrange in a 20 µs interval: 24 samples. -/
def plPortOver (fe k : Nat) : Bool := (List.range 24).any fun i => overrange (plPortSample fe (24 * k + i))

/-- The enabled RF streams of local ports that are on. -/
def Dev.localStreams (d : Dev) : List Nat :=
  (List.range d.variant.streams).filter fun s => d.rfEn s && !d.rfSrcLink s && d.sourceUp s

/-- Overrange intervals of local ports between two instants of device time are counted (R81). -/
def Dev.countOver (d : Dev) (t0 t1 : Nat) : Dev :=
  d.localStreams.foldl (fun x s => x.countN (fOverrange s)
    ((List.range (ticks20 t1 - ticks20 t0)).filter fun i => portOver (x.rfPos s) (ticks20 t0 + i)).length) d

/-- The powerline streams of local front ends that are on. -/
def Dev.plLocals (d : Dev) : List Nat :=
  (List.range 32).filter fun s => d.plEn s && !d.plSrcLink s && d.plSourceUp s

/-- What local powerline front ends have converted between two instants of device time (R131, R139, R157). -/
def Dev.plConvert (d : Dev) (t0 t1 : Nat) : Dev :=
  d.plLocals.foldl (fun (x : Dev) s =>
    (List.range (ticks20 t1 - ticks20 t0)).foldl (fun (y : Dev) i =>
      let k := ticks20 t0 + i
      ((List.range 24).foldl (fun (z : Dev) j => z.plSample s (k / 50) (plPortSample (z.plPos s) (24 * k + j))) y).onlyIf
        (plPortOver (y.plPos s) k) fun z => z.count (fPlOverrange s)) x) d

/-! Noise floors (R81). -/

/-- Bin of a subchannel (R78). -/
def binOf (sub : Nat) : Nat := sub + 28

/-- A millisecond in which a bin was blanked gives it no average (DESIGN CHOICE, notes/assumptions/60.md: also where the blanking
covers a part of it only). -/
def Dev.msBlanked (d : Dev) (s sub m : Nat) : Bool :=
  d.fr.cuts.any (fun c => c.stream == s && c.subs.contains sub && decide (c.from' ≤ m) && decide (m ≤ c.last))
    || d.fr.txs.any fun x => x.stream == s && x.blanks && d.blankCovers x sub &&
        decide (msOf (((x.opens : Int) + d.tb.off).toNat) ≤ m)

/-- The milliseconds whose averages a subchannel's noise floor rests on: the last 16 complete ones in which it was not blanked. -/
def Dev.floorMs (d : Dev) (s sub : Nat) : List Nat :=
  let now := msOf d.axis
  let span := (d.fr.cuts.map fun c => c.last + 1 - c.from').sum
    + (d.fr.txs.map fun x => now + 1 - msOf (((x.opens : Int) + d.tb.off).toNat)).sum
  (((List.range (min now (16 + span))).map fun i => now - 1 - i).filter fun m => !d.msBlanked s sub m).take 16

/-- A subchannel's noise floor in 0.25 dB below full scale: the lowest of its last 16 averages (R81), held to the 1,023 that the
NOISE field can show. -/
def Dev.noiseFloor (d : Dev) (s sub : Nat) : Nat :=
  min 1023 (((d.floorMs s sub).map (Config.binPower s (binOf sub))).foldl max 0)

/-- A power in 0.25 dB below full scale exceeds the noise floor of a subchannel by at least `thr` (R82, R116). -/
def Dev.exceeds (d : Dev) (s sub p thr : Nat) : Bool := decide (p + thr ≤ d.noiseFloor s sub)

/-- NOISE of a stream (R94): the median noise floor of its 200 usable bins (of the two in the middle the first, notes/assumptions/60.md). -/
def Dev.streamNoise (d : Dev) (s : Nat) : Nat := nth ((List.range 200).map (d.noiseFloor s)) 99

/-! Samples to be sent (R64). -/

/-- A number for a mode. -/
def phyCode (p : Phy) : Nat := b2n p.ofdm * 4096 + p.n * 64 + p.mcs * 2 + b2n p.il

/-- The sample of a transmission that leaves the antenna at device time `t`; a horn call's bursts follow back to back. -/
def Dev.txPart (d : Dev) (x : Tx) (t : Nat) : Int × Int :=
  if t < x.first then (0, 0)
  else
    let freq := d.centre x.stream x.sub x.phy - ((d.rfCentreKhz x.stream : Int) * 1000 + d.rfFineHz x.stream)
    if x.horn == 0 then Config.waveform (phyCode x.phy) freq x.octets (sampleNo 51200000 (t - x.first))
    else Config.waveform 8191 freq (List.replicate x.horn x.octets).flatten (sampleNo 51200000 (t - x.first))

/-- A transmission that a stream carries or is about to carry. -/
def Tx.sends (x : Tx) : Bool :=
  x.phase == .reserved || x.phase == .ackLead || x.phase == .planned || x.phase == .lead || x.phase == .onAir

/-- A stream's transmit sample for the converter at device time `t`: the sum of what leaves the antenna ANT_DELAY later (R64, R65). -/
def Dev.txSample (d : Dev) (s t : Nat) : Int × Int :=
  let at' := t + cdiv (d.rfAntNs s * 2 ^ 36) 1000000000
  let parts := (d.fr.txs.filter fun x => x.stream == s && x.sends).map fun x => d.txPart x at'
  (max (-32767) (min 32767 (parts.map (·.1)).sum), max (-32767) (min 32767 (parts.map (·.2)).sum))

/-- A quarter, rounded to the nearest whole number, halves to even (R64). -/
def quarterEven (v : Int) : Int :=
  let q := v / 4
  let r := v - 4 * q
  if r < 2 then q else if r == 2 then (if q % 2 == 0 then q else q + 1) else q + 1

/-- What a local port gives its transmit converters: bits [15:2] of the sum after convergent rounding (R64). -/
def Dev.txCode (d : Dev) (s t : Nat) : Int × Int :=
  ((fun v => min 8191 (quarterEven v)) (d.txSample s t).1, (fun v => min 8191 (quarterEven v)) (d.txSample s t).2)

end Sys2Proof.Machine
end

