-- ==== Sys2Proof/Machine/Advance.lean ====
section
/-!
DEFINITION. Running a command at its instant: what has happened by itself since the step before, and the two shapes of a meaning.
-/

namespace Sys2Proof.Machine

/-- Slews have gone on and the running axis has reached `t`; it never goes back. What the step before put out is gone. -/
def Dev.moveTo (d : Dev) (t : Nat) : Dev :=
  { d with clk := max d.clk t, out := [], tb := d.tb.slew d.slewPpm (max d.clk t - d.clk) }

/-- Work that waits for the service cores (R29): events not yet formatted, and sessions in handshake. -/
def Dev.coreWork (d : Dev) : Nat := d.evr.raw.length + (d.up.sess.filter fun p => p.2.st == .handshake).length

/-- Shedding while the cores run (R29): with the work queue above its high mark one step is taken, below its low mark one undone, at most one
at an instant, so that each is taken only while the one before does not suffice (DESIGN CHOICE, notes/assumptions/61.md). -/
def Dev.shedWork (d : Dev) : Dev :=
  let to' (n : Nat) : Dev := { d with up := { d.up with shed := n, shedAt := d.clk } }
  if !d.domOn 3 || d.clk ≤ d.up.shedAt then d
  else if d.coreWork == 0 then if d.up.shed == 0 then d else to' (d.up.shed - 1)
  else if Config.workHigh < d.coreWork && d.up.shed < 4 && [4, 5, 6].all d.domOn then to' (d.up.shed + 1)
  else if d.coreWork < Config.workLow && d.up.shed != 0 then to' (d.up.shed - 1)
  else d

/-- SD_PWR_EN goes high 10 ms after INIT began (R549). -/
def Dev.keyCard (d : Dev) : Dev :=
  if d.loc.card.st == 1 && !d.loc.card.power && d.passedMs d.loc.card.since 10 then
    ({ d with loc := { d.loc with card := { d.loc.card with power := true } } } : Dev).emit (.sdPower true)
  else d

/-- The device as a command that falls at instant `t` finds it: what moves with time has moved (local pins, LOG lines, overrange
counts and impulsive noise of local converters, gain changes, blanking windows and transmit outputs, card power, and the shedding step). -/
def Dev.advance (d : Dev) (t : Nat) : Dev :=
  let a := (d.moveTo t).axis
  ((((d.settleOuts.moveTo t).sendLog.countOver d.axis a).plConvert d.axis a).openDue).keyPorts.keyFes.keyCard.shedWork

/-- A command that changes only the device. No effect moves the running axis but the command's own instant. -/
def run (t : Nat) (s : State) (f : Dev → Dev) : Result :=
  .next { s with dev := { f (s.dev.advance t) with clk := (s.dev.advance t).clk } }

/-- A command that may also change the word memories. -/
def runS (t : Nat) (s : State) (f : Stores → Dev → Stores × Dev) : Result :=
  .next { s with
    stores := (f s.stores (s.dev.advance t)).1
    dev := { (f s.stores (s.dev.advance t)).2 with clk := (s.dev.advance t).clk } }

end Sys2Proof.Machine
end

