-- ==== Sys2Proof/Machine/Domains.lean ====
section
/-!
DEFINITION. The power domains: policies, dependencies, latencies, conditions, and the wake and close of a domain
(spec 16, R417–R421).
-/

namespace Sys2Proof.Machine

/-- The policy of a domain (R417). -/
inductive Policy4 where
  | ao | runs | cfg | demand
deriving DecidableEq, Repr

def domPolicy (n : Nat) : Policy4 :=
  if n ≤ 1 then .ao
  else if n == 2 || n == 3 || (46 ≤ n && n ≤ 50) || n == 55 then .runs
  else if (4 ≤ n && n ≤ 8) || (18 ≤ n && n ≤ 32) || n == 54 then .demand
  else .cfg

/-- The domains a domain depends on (R417). -/
def domDeps (n : Nat) : List Nat :=
  if n ≤ 1 then [] else if n == 2 then [0]
  else if (3 ≤ n && n ≤ 6) || (17 ≤ n && n ≤ 35) || n == 49 || n == 54 then [2, 47, 48]
  else if 13 ≤ n && n ≤ 16 then [n - 4]
  else if n == 44 || n == 45 then [2, 3]
  else if n == 50 then [2, 47, 48, 49]
  else if n == 51 then [50]
  else if n == 53 then [2, 52]
  else [2]

/-- The wake latency of a domain in µs (R417). -/
def domLatencyUs (n : Nat) : Nat :=
  if n == 2 then 2000
  else if 3 ≤ n && n ≤ 6 then 250
  else if n == 7 || n == 8 then 20
  else if (9 ≤ n && n ≤ 16) || (36 ≤ n && n ≤ 43) then 1000
  else if 17 ≤ n && n ≤ 32 then 60
  else if 33 ≤ n && n ≤ 35 then 2000
  else if n == 44 || n == 45 || n == 49 then 5000
  else if n == 46 || n == 53 || n == 55 then 100
  else if n == 47 || n == 48 then 25000
  else if n == 52 then 10000
  else 50

/-- The domains the AX3619 has not (R2). -/
def Variant.lacks (v : Variant) (n : Nat) : Bool :=
  v == .ax3619 && (n == 11 || n == 12 || n == 15 || n == 16 || (decide (25 ≤ n) && decide (n ≤ 32)))

/-- The condition of a CFG domain under the configuration in force (R417). -/
def Dev.domCond (d : Dev) (n : Nat) : Bool :=
  if 9 ≤ n && n ≤ 16 then (List.range 8).any fun k => d.rfEn (8 * ((n - 9) % 4) + k)
  else if n == 17 then (List.range 32).any d.rfEn
  else if 33 ≤ n && n ≤ 35 then (List.range 32).any fun s =>
    d.plEn s && ((!d.plSrcLink s && d.plPos s / 2 == n - 33) || min 2 (s / 11) == n - 33)
  else if 36 ≤ n && n ≤ 39 then (List.range 32).any fun s => d.rfEn s && !d.rfSrcLink s && d.rfPos s == n - 36
  else if 40 ≤ n && n ≤ 43 then (List.range 4).any fun k => d.linkEn (4 * (n - 40) + k)
  else if n == 44 || n == 45 then d.portEn (n - 44)
  else if n == 51 then (List.range 4096).any d.zoneV
  else if n == 52 || n == 53 then (List.range 48).any d.chanEn
  else false

/-! Power counters (R434). -/

def fWakes : Fld := ⟨0x04B6, 35, 0⟩
def fCloseCancel : Fld := ⟨0x04B7, 35, 18⟩
def fWakeFail : Fld := ⟨0x04B7, 17, 0⟩
def fMainsLosses : Fld := ⟨0x04B8, 35, 18⟩
def fHoldCrit : Fld := ⟨0x04B8, 17, 0⟩
def fBandFiltered : Fld := ⟨0x04B9, 35, 18⟩

def Dev.setDom (d : Dev) (n : Nat) (x : Domain) : Dev := { d with pw := { d.pw with doms := NMap.put d.pw.doms n x } }

/-- A wake request (R419): an absent domain and one in FAULT never wake; one that is OFF wakes once every domain it
depends on is ON, which are woken first; one that is switching wakes as soon as it reaches OFF; a cancellable close is
cancelled. -/
def Dev.wake (d : Dev) (n : Nat) : Nat → Dev
  | 0 => d
  | fuel + 1 =>
    let x := d.dom n
    if n < 2 || d.variant.lacks n then d
    else match x.st with
      | 0 =>
        if (domDeps n).all d.domOn then d.setDom n { x with st := 1, since := d.clk, want := false }
        else
          (domDeps n).foldl (fun y m => if y.domOn m then y else Dev.wake y m fuel) (d.setDom n { x with want := true })
      | 3 => if x.why == 0 then (d.setDom n { x with st := 2, since := d.clk }).count fCloseCancel else d
      | 4 => if x.why == 0 then d.setDom n { x with want := true } else d
      | _ => d

/-- Work arrives for a DEMAND domain (R420). -/
def Dev.wakeFor (d : Dev) (n : Nat) : Dev := d.wake n 6

/-- A domain begins to close, for a cause of R419; one that closes for idleness already is cancellable no longer. -/
def Dev.closeDom (d : Dev) (n why : Nat) : Dev :=
  let x := d.dom n
  if x.st == 2 then d.setDom n { x with st := 3, since := d.clk, why := why, want := false }
  else if x.st == 1 || x.st == 0 then d.setDom n { x with st := 0, since := d.clk, want := false }
  else if (x.st == 3 || x.st == 4) && why != 0 then d.setDom n { x with why := why, want := false }
  else d

/-- Lane clusters brought for `waiting` items beyond `coming` lanes (R421): the lowest cluster in a cancellable close
is brought back, else the lowest that is OFF is woken, while the items exceed the lanes. -/
def Dev.bringClusters (d : Dev) (waiting coming : Nat) : Nat → Dev
  | 0 => d
  | fuel + 1 =>
    if waiting ≤ coming then d
    else
      let ks := ((List.range 16).map (17 + ·)).filter fun n => !d.variant.lacks n && 18 ≤ n
      match ks.find? (fun n => (d.dom n).st == 3 && (d.dom n).why == 0) with
      | some n => Dev.bringClusters (d.wake n 6) waiting (coming + 8) fuel
      | none =>
        match ks.find? (fun n => (d.dom n).st == 0 && !(d.dom n).want) with
        | some n => Dev.bringClusters (d.wake n 6) waiting (coming + 8) fuel
        | none => d

/-- Lanes of clusters already WAKING, or wanted and on their way to it (R421). -/
def Dev.lanesComing (d : Dev) : Nat :=
  8 * (((List.range 16).map (17 + ·)).filter fun n => (d.dom n).st == 1 || (d.dom n).want).length

end Sys2Proof.Machine
end

