-- ==== Sys2Proof/Machine/Queues.lean ====
section
/-!
DEFINITION. Class queues, the Mire and their commands (spec 02, R40–R59).
-/

namespace Sys2Proof.Machine

/-- Ring depth in words of each queue group (R50). -/
def groupRing (g : Nat) : Nat := [8192, 4096, 4096, 8192, 32768, 32768, 32768, 2048].getD g 0

/-- Maximum packet in octets of each queue group (R50). -/
def groupMax (g : Nat) : Nat := [2047, 1280, 2047, 2047, 65535, 65535, 65535, 256].getD g 0

def CQueue.empty : CQueue := ⟨[], none, 0, [], 0, false, [], none⟩

/-- The class queue of a group and class. -/
def Dev.queue (d : Dev) (g c : Nat) : CQueue := NMap.look d.q.q (g * 5 + c) CQueue.empty

def Dev.setQueue (d : Dev) (g c : Nat) (q : CQueue) : Dev :=
  { d with q := { d.q with q := NMap.put d.q.q (g * 5 + c) q } }

/-- Words a packet takes in a ring or in the Mire: its data words and five tag words (R40, R41, R43). -/
def Packet.words (p : Packet) : Nat := max 1 (cdiv p.len 4) + 5

def CQueue.ringWords (q : CQueue) : Nat := (q.ring.map Packet.words).sum

/-- Pages a queue's chain holds: from the page of its first unread word to the page of its last written one; an empty
chain holds none (R53). -/
def CQueue.pages (q : CQueue) : Nat :=
  match q.chain with
  | [] => 0
  | (o, _) :: _ => cdiv q.wr 1024 - o / 1024

/-! The counter fields of class `c` (R59). -/

def fPagesHigh (c : Nat) : Fld := ⟨0x0400 + 8 * c + 1, 35, 15⟩
def fSpilled (c : Nat) : Fld := ⟨0x0400 + 8 * c + 2, 35, 0⟩
def fBpTime (c : Nat) : Fld := ⟨0x0400 + 8 * c + 3, 35, 0⟩
def fStale (c : Nat) : Fld := ⟨0x0400 + 8 * c + 4, 35, 18⟩
def fOversize (c : Nat) : Fld := ⟨0x0400 + 8 * c + 4, 17, 0⟩
def fMalformed (c : Nat) : Fld := ⟨0x0400 + 8 * c + 5, 35, 18⟩
def fEcc (c : Nat) : Fld := ⟨0x0400 + 8 * c + 5, 17, 0⟩
def fFlushed (c : Nat) : Fld := ⟨0x0400 + 8 * c + 6, 35, 0⟩

/-- PAGES_USED of a class (R59). -/
def Dev.pagesUsed (d : Dev) (c : Nat) : Nat := ((List.range 8).map fun g => (d.queue g c).pages).sum

/-- The pages a class may hold (R27, R55). -/
def Dev.pageShare (d : Dev) (c : Nat) : Nat :=
  d.mirePages * ([100, 100, 75, 50, 25].getD c 0) / 100

/-- Whether a class is given `n` further pages (R55). -/
def Dev.pagesGranted (d : Dev) (c n : Nat) : Bool :=
  n == 0 || (decide (d.pagesUsed c + n ≤ d.pageShare c) &&
    decide (((List.range 5).map d.pagesUsed).sum + n ≤ d.mirePages))

/-- PAGES_HIGH follows PAGES_USED upward (R59). -/
def Dev.notePages (d : Dev) (c : Nat) : Dev :=
  if d.ctr (fPagesHigh c) < d.pagesUsed c then d.setCtr (fPagesHigh c) (d.pagesUsed c) else d

/-- The packet moved to the end of its queue's Mire chain (R53). -/
def Dev.spill (d : Dev) (g c : Nat) (p : Packet) : Dev :=
  let q := d.queue g c
  let o := if q.chain.isEmpty then 0 else q.wr
  ((d.setQueue g c { q with chain := q.chain ++ [(o, p)], wr := o + p.words }).count (fSpilled c)).notePages c

/-- Further pages a packet of `n` words needs at the end of the chain. -/
def CQueue.newPages (q : CQueue) (n : Nat) : Nat :=
  if q.chain.isEmpty then cdiv n 1024 else cdiv (q.wr + n) 1024 - cdiv q.wr 1024

/-- A packet becomes visible: in the ring, or spilled to the Mire (R46, R53, R55). None where it cannot, and its
producer sees back-pressure. -/
def Dev.place (d : Dev) (g c : Nat) (p0 : Packet) : Option Dev :=
  let q := d.queue g c
  let p := { p0 with qseq := q.qseq }
  let d1 := d.setQueue g c { q with qseq := (q.qseq + 1) % 65536 }
  let q1 := d1.queue g c
  let n := p.words
  if !q.chain.isEmpty then
    if d.pagesGranted c (q.newPages n) then some (d1.spill g c p) else none
  else if 4 * (q.ringWords + n) > 3 * groupRing g && d.pagesGranted c (q.newPages n) then some (d1.spill g c p)
  else if q.ringWords + n ≤ groupRing g then some (d1.setQueue g c { q1 with ring := q1.ring ++ [p] })
  else none

/-- A queue applies back-pressure: a whole packet waits that it cannot take (R55). -/
def CQueue.pressing (q : CQueue) : Bool := (q.part.map Partial.whole).getD false || !q.held.isEmpty

/-- Some queue of the class applies back-pressure (R59). -/
def Dev.pressed (d : Dev) (c : Nat) : Bool := (List.range 8).any fun g => (d.queue g c).pressing

/-- A packet in progress of a queue that has applied back-pressure since `t0`: its stale timer stood still meanwhile (R48). -/
def Partial.resume (p : Partial) (t0 clk : Nat) : Partial := { p with last := p.last + (clk - max t0 p.last) }

/-- A queue notes since when it applies back-pressure, and lets the stale timer of a packet in progress run on (R48, R55). -/
def Dev.noteBp (d : Dev) (g c : Nat) : Dev :=
  let q := d.queue g c
  match q.pressing, q.bp with
  | true, none => d.setQueue g c { q with bp := some d.clk }
  | false, some t0 => d.setQueue g c { q with bp := none, part := q.part.map fun p => p.resume t0 d.clk }
  | _, _ => d

/-- BP_TIME runs while any queue of the class applies back-pressure (R59). -/
def Dev.pressure (d : Dev) (c : Nat) : Dev :=
  match d.pressed c, NMap.find d.q.bp c with
  | true, none => { d with q := { d.q with bp := NMap.put d.q.bp c d.clk } }
  | false, some t0 =>
    ({ d with q := { d.q with bp := NMap.del d.q.bp c } }).countN (fBpTime c) ((d.clk - t0) * 1000000 / 2 ^ 36)
  | _, _ => d

/-- A packet in progress that is whole becomes visible where it can; one a flush has marked is discarded at its
last-word commit and keeps its QSEQ (R49). -/
def Dev.settlePart (d : Dev) (g c : Nat) : Dev :=
  let q := d.queue g c
  match q.part with
  | none => d
  | some t =>
    if !t.whole then d
    else if t.flush then
      (d.setQueue g c { q with part := none, qseq := (q.qseq + 1) % 65536 }).count (fFlushed c)
    else ((d.setQueue g c { q with part := none }).place g c t.pkt).getD d

/-- Whole packets units have kept under back-pressure become visible in their order, as far as they can (R48, R55). -/
def Dev.settleHeld (d : Dev) (g c : Nat) : List Packet → Dev
  | [] => d.setQueue g c { d.queue g c with held := [] }
  | p :: r =>
    match d.place g c p with
    | some d' => Dev.settleHeld d' g c r
    | none => d.setQueue g c { d.queue g c with held := p :: r }

/-- What waits under back-pressure moves on, and the time of back-pressure is kept (R55, R59). The packet PACKET_WRITE has
brought becomes visible before the packets that units keep: the spec does not say which of several producers held at once goes
first (DESIGN CHOICE, notes/assumptions/58.md). -/
def Dev.settle (d : Dev) (g c : Nat) : Dev :=
  let d1 := d.settlePart g c
  ((d1.settleHeld g c (d1.queue g c).held).noteBp g c).pressure c

/-- Every class queue moves on what it can: pages have come free (R55). -/
def Dev.settleAll (d : Dev) : Dev :=
  (List.range 5).foldl (fun x c => (List.range 8).foldl (fun y g => y.settle g c) x) d

/-- A unit writes a whole packet to a class queue. One longer than the group's maximum is rewound (R50); one the queue cannot
take stays with the unit, under back-pressure (R48, R55). -/
def Dev.enqueue (d : Dev) (g c : Nat) (p : Packet) : Dev :=
  if groupMax g < p.len then d.count (fOversize c)
  else (d.setQueue g c { d.queue g c with held := (d.queue g c).held ++ [p] }).settle g c

/-- The packet of a unit's item, `len` octets long (notes/assumptions/18.md). -/
def Item.packet (x : Item) (cls time len : Nat) (slot : Option Nat) : Packet :=
  { cls := cls, len := len, qseq := 0, time := time, slot := slot, dup := Option.none, stream := 0, sub := 0, lq := 0, data := [],
    item := x }

/-- Octets that `n` words take, two words in nine octets (R335). -/
def octetsOfWords (n : Nat) : Nat := cdiv (9 * n) 2

/-- The packets of a class queue its consumer will still see, in their order, and after them those units keep. -/
def CQueue.all (q : CQueue) : List Packet := q.ring ++ q.chain.map (·.2) ++ q.held

/-- Items of a group in the order of classes, and in that of their queue within a class. -/
def Dev.items (d : Dev) (g : Nat) : List Item := (List.range 5).flatMap fun c => (d.queue g c).all.map Packet.item

/-- A class queue without the packets of certain items: the unit that queued them has withdrawn them. -/
def CQueue.without (q : CQueue) (gone : Item → Bool) : CQueue :=
  let chain := q.chain.filter fun e => !gone e.2.item
  { q with
    ring := q.ring.filter fun p => !gone p.item
    chain := chain
    wr := if chain.isEmpty then 0 else q.wr
    held := q.held.filter fun p => !gone p.item }

/-- A unit withdraws items it has queued; their QSEQ values stay a gap. -/
def Dev.dropItems (d : Dev) (g : Nat) (gone : Item → Bool) : Dev :=
  if (d.items g).any gone then
    ((List.range 5).foldl (fun (x : Dev) c => x.setQueue g c ((x.queue g c).without gone)) d).settleAll
  else d

/-- Every packet of a group is discarded, visible or not (R428); QSEQ goes on. -/
def Dev.clearGroup (d : Dev) (g : Nat) : Dev :=
  ((List.range 5).foldl (fun (x : Dev) c => x.setQueue g c { CQueue.empty with qseq := (x.queue g c).qseq }) d).settleAll

/-- Items of a group changed where they stand. -/
def Dev.mapItems (d : Dev) (g : Nat) (f : Item → Item) : Dev :=
  let h (p : Packet) : Packet := { p with item := f p.item }
  (List.range 5).foldl (fun (x : Dev) c =>
    let q := x.queue g c
    x.setQueue g c { q with
      ring := q.ring.map h
      chain := q.chain.map fun e => (e.1, h e.2)
      held := q.held.map h }) d

/-- A packet of zero octets (R41). -/
def Packet.isEmpty (p : Packet) : Bool := p.len == 0

/-- What a consumer finds at the head of a ring and discards: empty packets, counted, and where `own` says that it takes only
items of the device's units, packets that carry none (R41; notes/assumptions/18.md). -/
def dropLead (own : Bool) : List Packet → Nat × List Packet
  | [] => (0, [])
  | p :: r =>
    if p.item == .none && (own || p.isEmpty) then ((dropLead own r).1 + b2n p.isEmpty, (dropLead own r).2) else (0, p :: r)

/-- A consumer discards what it does not accept (R41). -/
def Dev.discard (d : Dev) (g : Nat) (own : Bool) : Dev :=
  (List.range 5).foldl (fun (x : Dev) c =>
    let q := x.queue g c
    let l := dropLead own q.ring
    if l.2.length == q.ring.length then x
    else ((x.setQueue g c { q with ring := l.2 }).countN (fMalformed c) l.1).settle g c) d

/-- A consumer takes the first visible packet of the highest class that has one in its ring (R27, R54). -/
def Dev.takePacket (d : Dev) (g : Nat) : Option (Packet × Dev) :=
  (List.range 5).findSome? fun c =>
    match (d.queue g c).ring with
    | [] => none
    | p :: r => some (p, (d.setQueue g c { d.queue g c with ring := r }).settle g c)

/-- A packet is taken out of the ring of its class queue. -/
def Dev.takeOut (d : Dev) (g c : Nat) (p : Packet) : Dev :=
  let q := d.queue g c
  (d.setQueue g c { q with ring := q.ring.erase p }).settle g c

/-- The first visible item of a group, highest class first, with what is left (R27, R54). -/
def Dev.takeItem (d : Dev) (g : Nat) : Option (Item × Dev) :=
  ((d.discard g true).takePacket g).map fun x => (x.1.item, x.2)

/-- A packet as its five tag words lay it out (R43); the QSEQ of a packet in progress is not yet assigned. -/
def Packet.ofTags (ws : List Word) : Packet :=
  let w (i : Nat) : Word := ws.getD i 0
  { cls := fld (w 0) 35 33, len := fld (w 0) 31 16, qseq := 0, time := joinW (w 1) (w 2),
    slot := if bitOf (w 4) 14 then some (fld (w 3) 35 15) else none,
    dup := if bitOf (w 4) 13 then some (fld (w 3) 14 3) else none,
    stream := fld (w 4) 35 31, sub := fld (w 4) 30 23, lq := fld (w 4) 22 15, data := [], item := .none }

/-- The five tag words of a packet (R43). -/
def Packet.tagWords (p : Packet) : List Word :=
  [pk [(p.cls, 35, 33), (p.len, 31, 16), (p.qseq, 15, 0)], hiW p.time, loW p.time,
    pk [(p.slot.getD 0, 35, 15), (p.dup.getD 0, 14, 3)],
    pk [(p.stream, 35, 31), (p.sub, 30, 23), (p.lq, 22, 15), (b2n p.slot.isSome, 14, 14), (b2n p.dup.isSome, 13, 13)]]

/-- A packet obeys its LENGTH, the padding rule and the class range (R42–R44). -/
def Packet.wellMade (p : Packet) : Bool :=
  decide (p.cls ≤ 4) && marksOk p.data && (unpackOctets p.data).length == p.len
    && p.data.length == (packOctets (unpackOctets p.data)).length

/-- The packet in progress is withdrawn; its producer's remaining words are discarded up to the next start (R47). -/
def Dev.rewind (d : Dev) (g c : Nat) (more : Bool) : Dev :=
  d.setQueue g c { d.queue g c with part := none, drop := more }

/-- Words join the packet in progress; at its last word it is judged and becomes visible (R44, R46, R50), unless a check of the
producer's own has failed (R47). -/
def Dev.writeWords (d : Dev) (g c : Nat) (t : Partial) (b : Burst) : Dev :=
  let p := { t.pkt with data := t.pkt.data ++ b.words }
  let n := (unpackOctets p.data).length
  if b.bad then d.rewind g c (!b.last)
  else if groupMax g < n || (groupMax g ≤ n && !b.last) then (d.rewind g c (!b.last)).count (fOversize c)
  else if !b.last then d.setQueue g c { d.queue g c with part := some { t with pkt := p, last := d.clk } }
  else if p.wellMade then
    (d.setQueue g c { d.queue g c with part := some { t with pkt := p, last := d.clk, whole := true } }).settle g c
  else (d.rewind g c false).count (fMalformed c)

/-- A packet in progress has stood for longer than the stale timeout; its timer stands still while the queue applies
back-pressure (R48). -/
def Dev.isStale (d : Dev) (g c : Nat) : Bool :=
  let q := d.queue g c
  match q.part with
  | some p => !q.pressing && decide ((d.clk - p.last) * 1000000 > d.staleUs * 2 ^ 36)
  | none => false

/-- A stale packet is rewound and counted once (R48). -/
def Dev.expire (d : Dev) (g c : Nat) : Dev := if d.isStale g c then (d.rewind g c true).count (fStale c) else d

/-- One burst of a producer (R43–R50). A producer held by back-pressure writes nothing. A packet that another start cuts off is
rewound and counted MALFORMED: R47 names no cause for it (DESIGN CHOICE, notes/assumptions/58.md). -/
def Dev.packetWrite (d : Dev) (g : Nat) (b : Burst) : Dev :=
  let c := b.queueOf
  if 8 ≤ g || 5 ≤ c then d
  else
    let d0 := d.expire g c
    let q := d0.queue g c
    match q.part, b.tags with
    | some t, none => if t.whole then d0 else d0.writeWords g c t b
    | some t, some ws =>
      if t.whole then d0
      else ((d0.count (fMalformed c)).setQueue g c { q with part := none, drop := false }).writeWords g c
        ⟨Packet.ofTags ws, d.clk, false, false⟩ b
    | none, some ws =>
      (d0.setQueue g c { q with drop := false }).writeWords g c ⟨Packet.ofTags ws, d.clk, false, false⟩ b
    | none, none => d0

/-- PACKET_WRITE (R43). -/
def execPacketWrite (t g : Nat) (b : Burst) (s : State) : Result := run t s fun d => d.packetWrite g b

/-- STALE_TIMEOUT (R48). -/
def execStaleTimeout (t g c : Nat) (s : State) : Result := run t s fun d => d.expire g c

/-- A class queue as a flush leaves it: its visible packets gone, its packet in progress marked (R49). -/
def CQueue.flushed (q : CQueue) : CQueue :=
  let marked := q.part.map fun p => { p with flush := true }
  { q with ring := [], chain := [], wr := 0, part := marked }

/-- FLUSH (R49): every visible packet goes at once, a packet in progress at its last-word commit. Packets that units keep under
back-pressure become visible after the flush, and are kept. -/
def execFlush (t g c : Nat) (s : State) : Result := run t s fun d =>
  let q := d.queue g c
  ((d.setQueue g c q.flushed).countN (fFlushed c) (q.ring.length + q.chain.length)).settleAll

/-- The packets of a chain with a word in page `k`, counted from the chain's first page, and the others (R56). -/
def splitPage (k : Nat) (ps : List (Nat × Packet)) : List (Nat × Packet) × List (Nat × Packet) :=
  ps.partition fun e => decide (e.1 < (k + 1) * 1024) && decide (k * 1024 < e.1 + e.2.words)

/-- Packets move back from the chain, whole and oldest first, while the next leaves the ring at or below three quarters
of its depth (R53). -/
def fillRing (depth used : Nat) : List (Nat × Packet) → List Packet × List (Nat × Packet)
  | [] => ([], [])
  | (o, p) :: r =>
    if 4 * (used + p.words) ≤ 3 * depth then
      let f := fillRing depth (used + p.words) r
      (p :: f.1, f.2)
    else ([], (o, p) :: r)

/-- The spill engine fills a ring below half its depth from its Mire chain (R53, R56); `bad` is a page of the chain that reads
with an uncorrectable error. -/
def Dev.mireFill (d : Dev) (g c : Nat) (bad : Option Nat) : Dev :=
  let q := d.queue g c
  if q.chain.isEmpty || decide (groupRing g ≤ 2 * q.ringWords) then d
  else
    let (lost, left) := match bad with
      | none => ([], q.chain)
      | some k => splitPage k q.chain
    let (back, rest) := fillRing (groupRing g) q.ringWords left
    ((d.setQueue g c { q with ring := q.ring ++ back, chain := rest, wr := if rest.isEmpty then 0 else q.wr }).countN
      (fEcc c) lost.length).settleAll

/-- MIRE_FILL (R53, R56). -/
def execMireFill (t g c : Nat) (bad : Option Nat) (s : State) : Result := run t s fun d => d.mireFill g c bad

/-- Every ring of a group that can be filled is: what a drain does before it takes each packet (R53, R428). -/
def Dev.fillGroup (d : Dev) (g : Nat) : Dev := (List.range 5).foldl (fun (x : Dev) c => x.mireFill g c none) d

/-! The event input (R404, R415). -/

/-- Class of an event code (R415). -/
def evClass (c : Nat) : Nat :=
  if [0x003, 0x012, 0x013, 0x090, 0x092, 0x094, 0x0A0, 0x0B0].contains c then 0
  else if c == 0x031 then 4 else 1

/-- An event enters the event input queue (R50, R404), in its code's class and with the device time as its tag. -/
def Dev.raise (d : Dev) (code : Nat) (args : List Nat) (slot : Option Nat := none) : Dev :=
  d.enqueue 7 (evClass code) (Item.packet (.event ⟨code, args, slot⟩) (evClass code) d.now (octetsOfWords (3 + args.length)) slot)

end Sys2Proof.Machine
end

