-- ==== Sys2Proof/Machine/Records.lean ====
section
/-!
DEFINITION. Meter records and key blocks: their words, and reading and writing them by slot (spec 06, R162–R165).
-/

namespace Sys2Proof.Machine

/-- A record nobody is assigned to: every field 0. -/
def MeterRec.blank : MeterRec :=
  { inUse := false, pl := false, batt := false, state := 0, mail := false, openTx := 0, mtype := 0, regN := 0, eui := 0,
    rxCtr := 0, txCtr := 0, keyCur := 0, keyNext := 0, keyNextV := false, ctrEndEv := false, campId := 0,
    campState := 0, campTries := 0, key := 0, lastCsn := 0, seen := 0, rated := 0, ivlMin := 0, rollExp := 0,
    lastEnd := 0, lastReg := [0, 0, 0, 0], ttActive := 0, ttStaged := 0, stagedV := false, skew := 0, homeKhz := 0,
    stream1 := 0, stream2 := 0, period := 0, drift := 0, window := 0, offset := 0, syncT := 0, syncOff := 0, horns := 0,
    wake := 0, dlMode := 0, route := none, cands := [] }

def KeyBlock.blank : KeyBlock := ⟨0, false, false, 0⟩

/-- The two words of a candidate (R162). -/
def Route.words (r : Route) : List Word :=
  [pk [(r.stream, 35, 31), (r.next, 30, 10), (r.hops, 9, 6), (1, 5, 5)], pk [(r.cost, 35, 24), (r.time, 23, 8)]]

def Route.ofWords (a b : Word) : Option Route :=
  if bitOf a 5 then some ⟨fld a 35 31, fld a 30 10, fld a 9 6, fld b 35 24, fld b 23 8⟩ else none

/-- Words 21 to 31 of a record: the overlay by MEDIUM (R162). -/
def MeterRec.overlay (r : MeterRec) : List Word :=
  if r.pl then
    (match r.route with
      | some a => [pk [(a.stream, 35, 31), (a.next, 30, 10), (a.hops, 9, 6), (1, 5, 5)],
          pk [(a.cost, 35, 24), (a.time, 23, 0)]]
      | none => [0, 0])
    ++ (List.range 4).flatMap (fun j => match r.cands[j]? with | some c => c.words | none => [0, 0]) ++ [0]
  else
    [pk [(r.homeKhz, 35, 14), (r.stream1, 13, 9), (r.stream2, 8, 4)],
      pk [(r.period, 35, 20), (r.drift, 19, 17), (r.window, 16, 1)],
      pk [(r.offset, 35, 10)], W r.syncT,
      pk [(toTwos 24 r.syncOff, 35, 12), (r.horns, 11, 4)],
      pk [(r.wake, 35, 12), (r.dlMode, 11, 4)], 0, 0, 0, 0, 0]

/-- The 32 words of a record (R162). -/
def MeterRec.words (r : MeterRec) : List Word :=
  [pk [(b2n r.inUse, 35, 35), (b2n r.pl, 34, 34), (b2n r.batt, 33, 33), (r.state, 32, 25), (b2n r.mail, 24, 24),
      (r.openTx, 23, 21), (r.mtype, 20, 5), (r.regN, 4, 3)],
    pk [(r.eui.toNat / 2 ^ 32, 35, 4)], pk [(r.eui.toNat, 35, 4)],
    pk [(r.rxCtr, 35, 4)], pk [(r.txCtr, 35, 4)],
    pk [(r.keyCur, 35, 28), (r.keyNext, 27, 20), (b2n r.keyNextV, 19, 19), (b2n r.ctrEndEv, 18, 18),
      (r.campId, 17, 12), (r.campState, 11, 8), (r.campTries, 7, 0)]]
  ++ words32 r.key.toNat 4 ++ dw r.lastCsn ++ words32 r.seen.toNat 2
  ++ [pk [(r.rated, 35, 16), (r.ivlMin, 15, 4), (r.rollExp, 3, 0)], W r.lastEnd]
  ++ (List.range 4).map (fun i => W (r.lastReg.getD i 0))
  ++ [pk [(r.ttActive, 35, 28), (r.ttStaged, 27, 20), (b2n r.stagedV, 19, 19), (toTwos 16 r.skew, 18, 3)]]
  ++ r.overlay

/-- The record 32 words hold (R162). -/
def MeterRec.ofWords (ws : List Word) : MeterRec :=
  let w (i : Nat) : Word := ws.getD i 0
  let pl := bitOf (w 0) 34
  let base : MeterRec :=
    { MeterRec.blank with
      inUse := bitOf (w 0) 35, pl := pl, batt := bitOf (w 0) 33, state := fld (w 0) 32 25, mail := bitOf (w 0) 24,
      openTx := fld (w 0) 23 21, mtype := fld (w 0) 20 5, regN := fld (w 0) 4 3,
      eui := BitVec.ofNat 64 (fld (w 1) 35 4 * 2 ^ 32 + fld (w 2) 35 4),
      rxCtr := fld (w 3) 35 4, txCtr := fld (w 4) 35 4, keyCur := fld (w 5) 35 28, keyNext := fld (w 5) 27 20,
      keyNextV := bitOf (w 5) 19, ctrEndEv := bitOf (w 5) 18, campId := fld (w 5) 17 12, campState := fld (w 5) 11 8,
      campTries := fld (w 5) 7 0, key := BitVec.ofNat 128 (ofWords32 [w 6, w 7, w 8, w 9]),
      lastCsn := joinW (w 10) (w 11), seen := BitVec.ofNat 64 (ofWords32 [w 12, w 13]),
      rated := fld (w 14) 35 16, ivlMin := fld (w 14) 15 4, rollExp := fld (w 14) 3 0, lastEnd := (w 15).toNat,
      lastReg := [(w 16).toNat, (w 17).toNat, (w 18).toNat, (w 19).toNat],
      ttActive := fld (w 20) 35 28, ttStaged := fld (w 20) 27 20, stagedV := bitOf (w 20) 19,
      skew := ofTwos 16 (fld (w 20) 18 3) }
  if pl then
    { base with
      route := if bitOf (w 21) 5 then
          some ⟨fld (w 21) 35 31, fld (w 21) 30 10, fld (w 21) 9 6, fld (w 22) 35 24, fld (w 22) 23 0⟩ else none
      cands := [(23, 24), (25, 26), (27, 28), (29, 30)].filterMap fun p => Route.ofWords (w p.1) (w p.2) }
  else
    { base with
      homeKhz := fld (w 21) 35 14, stream1 := fld (w 21) 13 9, stream2 := fld (w 21) 8 4, period := fld (w 22) 35 20,
      drift := fld (w 22) 19 17, window := fld (w 22) 16 1, offset := fld (w 23) 35 10, syncT := (w 24).toNat,
      syncOff := ofTwos 24 (fld (w 25) 35 12), horns := fld (w 25) 11 4, wake := fld (w 26) 35 12,
      dlMode := fld (w 26) 11 4 }

/-- The 16 words of a key block (R164). -/
def KeyBlock.words (k : KeyBlock) : List Word :=
  let x := words32 k.sigX.toNat 8
  x.take 7 ++ [W ((x.getD 7 0).toNat + b2n k.odd * 8 + b2n k.sigV * 4)] ++ words32 k.next.toNat 4 ++ [0, 0, 0, 0]

def KeyBlock.ofWords (ws : List Word) : KeyBlock :=
  let w (i : Nat) : Word := ws.getD i 0
  ⟨BitVec.ofNat 256 (ofWords32 (ws.take 8)), bitOf (w 7) 3, bitOf (w 7) 2,
    BitVec.ofNat 128 (ofWords32 [w 8, w 9, w 10, w 11])⟩

/-- The record of an assigned slot (R161, R162). -/
def Dev.rec? (d : Dev) (slot : Nat) : Option MeterRec :=
  match NMap.find d.led.recs slot with
  | some r => if r.inUse then some r else none
  | none => none

def Dev.setRec (d : Dev) (slot : Nat) (r : MeterRec) : Dev :=
  { d with led := { d.led with recs := NMap.put d.led.recs slot r } }

/-- An assigned slot's record changed by `f`. -/
def Dev.updRec (d : Dev) (slot : Nat) (f : MeterRec → MeterRec) : Dev :=
  match d.rec? slot with
  | some r => d.setRec slot (f r)
  | none => d

def Dev.keyBlock (d : Dev) (slot : Nat) : KeyBlock := NMap.look d.led.keys slot KeyBlock.blank

def Dev.setKeys (d : Dev) (slot : Nat) (k : KeyBlock) : Dev :=
  { d with led := { d.led with keys := NMap.put d.led.keys slot k } }

/-! State bits 7–0 of the state nonet (R162): alarm, tamper, outage, disconnected, stale, quarantined, campaign pending,
key rotation pending. The alarm bit is bit 7 and key rotation pending bit 0, as R37's example and the nonets 0o410,
0o404 of the spec's examples show for stale and quarantined. -/

def sbAlarm : Nat := 7
def sbTamper : Nat := 6
def sbOutage : Nat := 5
def sbDisconnected : Nat := 4
def sbStale : Nat := 3
def sbQuarantined : Nat := 2
def sbCampaign : Nat := 1
def sbKeyRot : Nat := 0

def MeterRec.has (r : MeterRec) (b : Nat) : Bool := r.state / 2 ^ b % 2 == 1

/-- The record with a state bit set or cleared. -/
def MeterRec.setBit (r : MeterRec) (b : Nat) (v : Bool) : MeterRec :=
  { r with state := if r.has b == v then r.state else if v then r.state + 2 ^ b else r.state - 2 ^ b }

/-- The state nonet of a record (R162, R178). -/
def MeterRec.nonet (r : MeterRec) : Nat := b2n r.inUse * 256 + r.state

/-- The state nonet of a slot: 0o000 where it is not assigned (R161). -/
def Dev.nonet (d : Dev) (slot : Nat) : Nat :=
  match d.rec? slot with
  | some r => r.nonet
  | none => 0

end Sys2Proof.Machine
end

