-- ==== Sys2Proof/Machine/Directory.lean ====
section
/-!
DEFINITION. The meter directory: a four-table cuckoo hash with a stash (spec 06, R158–R161, R197).
-/

namespace Sys2Proof.Machine

/-- Position h_i(e) of an EUI in table i (R158). -/
def DirSet.pos (s : DirSet) (i : Nat) (e : Eui) : Nat :=
  crc32c (octetsBE (s.seeds.getD i 0) 4 ++ octetsBE e.toNat 8) % 2 ^ s.log2

/-- The key of a position in the tables. -/
def DirSet.key (s : DirSet) (i : Nat) (e : Eui) : Nat := i * 2 ^ 21 + s.pos i e

/-- The slot one set gives an EUI: its four positions and the stash, together (R159). -/
def DirSet.find (s : DirSet) (e : Eui) : Option Nat :=
  match (List.range 4).findSome? fun i =>
      (NMap.find s.tab (s.key i e)).bind fun x => if x.1 = e then some x.2 else none with
  | some v => some v
  | none => s.stash.findSome? fun x => if x.1 = e then some x.2 else none

/-- Entries of a set, in the tables and in the stash (R160). -/
def DirSet.count (s : DirSet) : Nat := s.tab.length + s.stash.length

/-- The entry in the first empty candidate position, T0 first (R160). -/
def DirSet.placeFree (s : DirSet) (x : Eui × Nat) : Option DirSet :=
  ((List.range 4).find? fun i => (NMap.find s.tab (s.key i x.1)).isNone).map fun i =>
    { s with tab := NMap.put s.tab (s.key i x.1) x }

/-- Up to `fuel` displacements from draw `n` on: an entry put out of table `was` goes to another of its positions, a free one first, and
what is left over goes to the stash (R160). -/
def DirSet.displace (s : DirSet) (x : Eui × Nat) (was : Option Nat) (n : Nat) : Nat → DirSet × Option (Eui × Nat) × Nat
  | 0 =>
    match s.placeFree x with
    | some s' => (s', none, n)
    | none => (s, some x, n)
  | fuel + 1 =>
    match s.placeFree x with
    | some s' => (s', none, n)
    | none =>
      let others := (List.range 4).filter fun i => some i != was
      let i := others.getD (Config.random n % others.length) 0
      let y := NMap.look s.tab (s.key i x.1) x
      DirSet.displace { s with tab := NMap.put s.tab (s.key i x.1) x } y (some i) (n + 1) fuel

/-- Insertion (R160): none where the stash is full, and then the set stays as it was. The number is the next draw. -/
def DirSet.insert (s : DirSet) (x : Eui × Nat) (n : Nat) : Option (DirSet × Nat) :=
  match s.placeFree x with
  | some s' => some (s', n)
  | none =>
    match s.displace x none n 256 with
    | (s', none, m) => some (s', m)
    | (s', some y, m) =>
      if s'.stash.length < 64 then some ({ s' with stash := s'.stash ++ [y] }, m) else none

/-- Removal of an EUI's entry. -/
def DirSet.remove (s : DirSet) (e : Eui) : DirSet :=
  { s with
    tab := NMap.keep s.tab fun _ x => x.1 != e
    stash := s.stash.filter fun x => x.1 != e }

/-- An empty set with four freshly drawn seeds (R158); the number is the first draw taken. -/
def DirSet.fresh (log2 gen n : Nat) : DirSet :=
  { log2 := log2, seeds := (List.range 4).map fun i => Config.random (n + i) % 2 ^ 32, gen := gen, tab := [], stash := [] }

/-- Both sets are read from entry to BUILD until the end of RELEASE (R197, R198). -/
def Dev.bothSets (d : Dev) : Bool :=
  match d.led.rebuild.st with
  | .build | .switch => true
  | _ => false

/-- A directory lookup (R159, R197). -/
def Dev.lookup (d : Dev) (e : Eui) : Option Nat :=
  match d.led.dir.find e with
  | some v => some v
  | none => if d.bothSets then d.led.rebuild.new.find e else none

/-- The load and stash events of R160, each committed again only after its condition has cleared. -/
def Dev.dirEvents (d : Dev) : Dev :=
  let s := d.led.dir
  let over' := decide (10 * s.count > 9 * (4 * 2 ^ s.log2))
  let full := decide (48 ≤ s.stash.length)
  let d1 := if over' && !d.led.load90 then d.raise 0x021 [s.count] else d
  let d2 := if full && !d.led.stash48 then d1.raise 0x022 [s.stash.length] else d1
  { d2 with led := { d2.led with load90 := over', stash48 := full } }

/-- The entries of a set in the copier's order: T0 to T3 ascending, then the stash (R196). -/
def DirSet.entries (s : DirSet) : List (Eui × Nat) := s.tab.map (·.2) ++ s.stash

/-- The copier's insertions (R197): an EUI the new set already holds is left alone. None where the stash is full. -/
def DirSet.copyIn : List (Eui × Nat) → DirSet → Nat → Option (DirSet × Nat)
  | [], s, n => some (s, n)
  | x :: r, s, n =>
    if (s.find x.1).isSome then DirSet.copyIn r s n
    else match s.insert x n with
      | some (s', m) => DirSet.copyIn r s' m
      | none => none

/-- The seed generation after `g` (R185): from 2³⁶ − 1 it wraps to 1. -/
def nextGen (g : Nat) : Nat := if g == 2 ^ 36 - 1 then 1 else g + 1

/-- A directory built from the assigned records, with up to `tries` seed generations (R161). -/
def buildDir (recs : NMap MeterRec) (log2 gen n : Nat) : Nat → Option (DirSet × Nat)
  | 0 => none
  | tries + 1 =>
    match DirSet.copyIn ((recs.filter fun p => p.2.inUse).map fun p => (p.2.eui, p.1)) (DirSet.fresh log2 gen n) (n + 4) with
    | some r => some r
    | none => buildDir recs log2 (nextGen gen) (n + 4) tries

end Sys2Proof.Machine
end

