-- ==== Sys2Proof/Machine/Commit.lean ====
section
/-!
DEFINITION. Entries, CSNs, the open block and its seal, and the intake of events (spec 06, R178–R190; 15, R403–R408,
R415).
-/

namespace Sys2Proof.Machine

/-! The ledger's counters (R201). -/

def fAccepted : Fld := ⟨0x0440, 35, 0⟩
def fFlagged : Fld := ⟨0x0441, 35, 0⟩
def fQuarantined : Fld := ⟨0x0442, 35, 18⟩
def fRejected : Fld := ⟨0x0442, 17, 0⟩
def fBlocks : Fld := ⟨0x0443, 35, 0⟩
def fRcptSent : Fld := ⟨0x0444, 35, 18⟩
def fRcptDrop : Fld := ⟨0x0444, 17, 0⟩
def fAckIgnored : Fld := ⟨0x0445, 17, 0⟩
def fDirFull : Fld := ⟨0x0447, 35, 18⟩
def fAnnSuppr : Fld := ⟨0x0447, 17, 0⟩

/-- An entry not yet committed: class, time tag, slot and body are set, the CSN is not. -/
def mkEntry (typ cls time : Nat) (slot : Option Nat) (state : Nat) (body : List Word) : Entry :=
  { typ := typ, outcome := 0, reason := 0, flags := 0, csn := 0, time := time, slot := slot, cls := cls,
    state := state, body := body }

/-- The words of an entry: the header of R178 and the body. -/
def Entry.words (e : Entry) : List Word :=
  [pk [(e.typ, 35, 30), (e.outcome, 29, 28), (6 + e.body.length, 27, 16), (e.reason, 15, 8), (e.flags, 7, 0)],
    hiW e.csn, loW e.csn, hiW e.time, loW e.time,
    pk [(e.slot.getD 0, 35, 15), (e.cls, 14, 12), (e.state, 8, 0)]] ++ e.body

/-- The 23 header words of a block (R187). -/
def Block.header (b : Block) : List Word :=
  [pk [(0x01, 35, 28), (b.entries.length, 27, 15)], W b.bno, W b.epoch] ++ dw b.first ++ dw b.last ++ dw b.sealT
  ++ [W (b.entries.map fun e => 6 + e.body.length).sum, pk [(b.sealBy, 35, 32)]] ++ words32 b.prev 12

/-- The words of a block that its signature covers (R188). -/
def Block.signedWords (b : Block) : List Word := b.header ++ b.entries.flatMap Entry.words

/-- The words of a signed block, trailer included (R187). -/
def Block.words (b : Block) : List Word :=
  b.signedWords ++ [W b.keyId] ++ words32 (b.sig.getD (0, 0)).1 12 ++ words32 (b.sig.getD (0, 0)).2 12

/-! Blocks as they arrive (R179, R187). -/

/-- Words an entry of a TYPE has at least (R179); where the size is per result or per event, its header. -/
def entryWords (typ : Nat) : Nat :=
  match typ with
  | 0x01 => 17 | 0x02 => 10 | 0x03 => 8 | 0x04 => 9 | 0x05 => 9 | 0x06 => 10 | 0x07 => 9 | 0x08 => 12 | 0x0A => 54 | 0x0B => 11 | 0x0C => 13 | _ => 6

/-- An entry of a reserved TYPE (R179). -/
def Entry.reserved (e : Entry) : Bool := decide (0x0D ≤ e.typ)

/-- The entry that `LEN` words hold (R178). Slot 0 is read as no slot where neither TYPE, STATE nor a missing SUMMARY flag says that the
entry concerns one (DEDUCED, notes/assumptions/68.md). -/
def Entry.ofWords (ws : List Word) : Entry :=
  let w (i : Nat) : Word := ws.getD i 0
  let typ := fld (w 0) 35 30
  let n := fld (w 5) 35 15
  { typ := typ, outcome := fld (w 0) 29 28, reason := fld (w 0) 15 8, flags := fld (w 0) 7 0, csn := joinW (w 1) (w 2), time := joinW (w 3) (w 4),
    slot := if n != 0 || [3, 4, 5].contains typ || bitOf (w 5) 8 || (typ == 8 && !bitOf (w 0) 1) then some n else none
    cls := fld (w 5) 14 12, state := fld (w 5) 8 0, body := ws.drop 6 }

/-- The entries of a block body; none where one is of TYPE 0, shorter than its TYPE asks, or runs past the body (R179, R187). -/
def readEntries : Nat → List Word → Option (List Entry)
  | 0, ws => if ws.isEmpty then some [] else none
  | fuel + 1, ws =>
    if ws.isEmpty then some []
    else
      let typ := fld (ws.getD 0 0) 35 30
      let n := fld (ws.getD 0 0) 27 16
      if typ == 0 || n < entryWords typ || ws.length < n then none
      else (readEntries fuel (ws.drop n)).map fun es => Entry.ofWords (ws.take n) :: es

/-- CSNs an entry accounts for: a VOID_RANGE entry its own and those it voids (R187, R469). -/
def Entry.csns (e : Entry) : Nat :=
  if e.typ == 0x0C then 1 + (joinW (e.body.getD 2 0) (e.body.getD 3 0) + 1 - joinW (e.body.getD 0 0) (e.body.getD 1 0)) else 1

/-- A block and the words behind its trailer, none where the block is invalid (R187). -/
def Block.ofWords (ws : List Word) : Option (Block × List Word) :=
  let w (i : Nat) : Word := ws.getD i 0
  let n := fld (w 0) 27 15
  let size := (w 9).toNat
  let b (es : List Entry) : Block :=
    { bno := (w 1).toNat, epoch := (w 2).toNat, first := joinW (w 3) (w 4), last := joinW (w 5) (w 6), sealT := joinW (w 7) (w 8),
      sealBy := fld (w 10) 35 32, entries := es, prev := ofWords32 ((ws.drop 11).take 12), keyId := (w (23 + size)).toNat,
      sig := some (ofWords32 ((ws.drop (24 + size)).take 12), ofWords32 ((ws.drop (36 + size)).take 12)), fw := 0, sealClk := 0,
      sent := none, resends := 0 }
  match readEntries size ((ws.drop 23).take size) with
  | none => none
  | some es =>
    if fld (w 0) 35 28 == 1 && decide (1 ≤ n) && decide (n ≤ 4096) && decide (48 + size ≤ ws.length) && es.length == n
        && decide (fld (w 10) 35 32 ≤ 4) && (b es).first + (es.map Entry.csns).sum == (b es).last + 1
    then some (b es, ws.drop (48 + size)) else none

/-- A primary whose lease has lapsed makes 16,777,216 commits and no more until a grant (R466). -/
def Dev.lapseAllows (d : Dev) : Bool :=
  match d.pair.lapse with
  | some n => decide (d.led.csn < n + 16777216)
  | none => true

/-- The ledger runs (R404): the pair is enrolled, the ledger accepts commits, and the holdup has not sealed it. -/
def Dev.ledgerRuns (d : Dev) : Bool := d.led.enrolled && d.led.accepts && !d.led.isSealed && d.lapseAllows

/-- The first CSN an entry accounts for: of a VOID_RANGE entry, the first it voids (R469). -/
def Entry.firstCsn (e : Entry) : Nat :=
  if e.typ == 0x0C then joinW (e.body.getD 0 0) (e.body.getD 1 0) else e.csn

/-- The open block is sealed for cause `c` (R187, R189); an empty block never is. Signing is queued. -/
def Dev.seal (d : Dev) (c : Nat) : Dev :=
  match d.led.openB with
  | none => d
  | some o =>
    let b : Block :=
      { bno := d.led.bno, epoch := d.pair.epoch,
        first := (o.entries.head?.map Entry.firstCsn).getD 0, last := (o.entries.getLast?.map Entry.csn).getD 0,
        sealT := d.now, sealBy := c, entries := o.entries, prev := 0, keyId := d.idn.serial, sig := none,
        fw := d.boot.fwVer, sealClk := d.clk, sent := none, resends := 0 }
    ({ d with led := { d.led with
        openB := none, bno := d.led.bno + 1, blocks := NMap.put d.led.blocks b.bno b,
        signQ := d.led.signQ ++ [b.bno] } }).count fBlocks

/-- An entry takes its CSN and its place in the open block; at its 4,096th entry or after a C0 commit the block seals
(R186, R189). `more` says that a further entry of the same run follows, so that a C0 run seals at its last entry
(R38). Answers the CSN. -/
def Dev.append (d : Dev) (e : Entry) (more : Bool := false) : Nat × Dev :=
  let n := d.led.csn
  let o := d.led.openB.getD ⟨[], d.clk⟩
  let o1 : OpenBlock := { o with entries := o.entries ++ [{ e with csn := n }] }
  let d0 := if e.cls == 0 then { d with loc := { d.loc with c0 := some d.clk } } else d
  let d1 := { d0 with led := { d0.led with csn := n + 1, openB := some o1 } }
  if e.cls == 0 && !more then (n, d1.seal 2)
  else if 4096 ≤ o1.entries.length then (n, d1.seal 0)
  else (n, d1)

/-- A commit of one entry outside a run. -/
def Dev.commit (d : Dev) (e : Entry) : Dev := (d.append e).2

/-! Events (R415). -/

/-- The recorder's counters (R416). -/
def fRecords : Fld := ⟨0x04A1, 35, 0⟩
def fForced : Fld := ⟨0x04A2, 35, 18⟩

/-- Whether an event code is committed when the ledger runs (R415). -/
def evCommitted (c : Nat) : Bool := !([0x004, 0x005].contains c)

/-- Name of an event code (R415). -/
def evName (c : Nat) : String :=
  match c with
  | 0x001 => "COLD_START" | 0x002 => "WARM_START" | 0x003 => "MAINS_LOSS" | 0x004 => "HOLDUP_END"
  | 0x005 => "RECOVERY" | 0x010 => "LINK_UP" | 0x011 => "LINK_LOST" | 0x012 => "REED_SUPPLY"
  | 0x013 => "REED_TAMPER" | 0x014 => "REED_FAULT" | 0x015 => "REED_SILENT" | 0x020 => "COUNTER_END"
  | 0x021 => "DIR_LOAD" | 0x022 => "DIR_STASH" | 0x023 => "REBUILD_ABORT" | 0x030 => "DUP_EUI"
  | 0x031 => "SWEEP_END" | 0x040 => "ACTION_SKIPPED" | 0x041 => "UNEXPECTED_VER" | 0x050 => "METRO_CHANGE"
  | 0x051 => "METRO_RESET" | 0x060 => "LEGAL_CHANGED" | 0x061 => "LEGAL_FALLBACK" | 0x070 => "TIME_STEP"
  | 0x071 => "STEP_WAIT" | 0x072 => "UTC_MISMATCH" | 0x080 => "MIRROR_HOLD" | 0x090 => "DIE_LOST"
  | 0x091 => "STORE_READY" | 0x092 => "STORE_FAILED" | 0x093 => "PAGE_LOST" | 0x094 => "ARCH_LOST"
  | 0x095 => "INT_SHORT" | 0x096 => "DISCARD_HINT" | 0x097 => "SPARE_LOW" | 0x0A0 => "TAKEOVER"
  | 0x0A1 => "HANDBACK" | 0x0A2 => "SWAP" | 0x0A3 => "LEASE_LOST" | 0x0B0 => "TAMPER" | 0x0C0 => "DISPLAY_CUT"
  | _ => ""

/-- The first argument words that are the high word of a double word, by code (R415). -/
def evDoubles (c : Nat) : List Nat :=
  match c with
  | 0x003 => [0] | 0x004 => [0] | 0x030 => [1] | 0x050 => [0] | 0x051 => [0] | 0x070 => [0, 2] | 0x071 => [0]
  | 0x0A3 => [0] | _ => []

/-- Operating seconds (R407). -/
def Dev.opSeconds (d : Dev) : Nat :=
  (d.evr.opT + match d.evr.opFrom with | some t0 => d.clk - t0 | none => 0) / 2 ^ 36

/-- Record words W0, W1, W6, W7, W8 (R406), of which with the arguments an EVENT body consists (R408). -/
def EvRec.head (r : EvRec) : List Word :=
  [W r.seq, pk [(r.code, 35, 24), (r.cls, 23, 21), (r.args.length, 20, 18), (b2n r.commd, 17, 17), (b2n r.holdup, 16, 16),
      (b2n r.prov, 15, 15), (b2n r.keep, 14, 14)],
    pk [(r.opS / 3600, 35, 12), (r.opS % 3600, 11, 0)], pk [(sat 18 r.cycles, 35, 18), (sat 18 r.warms, 17, 0)],
    pk [(r.slot.getD 0, 35, 15), (b2n r.slot.isSome, 14, 14)]]

/-- An event is taken in: it takes its SEQ, is committed where its code is and the ledger runs, and is held raw for
formatting (R403, R404, R405). A COUNTER_END that finds CTR_END_EV set is discarded; its commit sets it (R104). -/
def Dev.intake (d : Dev) (e : Event) : Dev :=
  let commits := evCommitted e.code && d.ledgerRuns
  let ctrEnd := e.code == 0x020
  let already := ctrEnd && ((e.slot.bind d.rec?).map MeterRec.ctrEndEv).getD false
  if commits && already then d
  else
    let q := d.evr.seq + 1
    let r : EvRec :=
      { seq := q, code := e.code, cls := evClass e.code, args := (e.args.take 7).map (· % 2 ^ 36), commd := commits,
        holdup := d.pw.hu.isSome, prov := d.tb.prov, keep := !d.recOverwrite && decide (q ≤ d.recN), time := d.now,
        csn := if commits then d.led.csn else 0, opS := d.opSeconds, cycles := d.evr.cycles, warms := d.evr.warms,
        slot := e.slot, text := [] }
    let d1 := if commits && ctrEnd then
        match e.slot with
        | some n => d.updRec n fun m => { m with ctrEndEv := true }
        | none => d
      else d
    let st := match e.slot with | some n => d1.nonet n | none => 0
    let d2 := if commits then
        d1.commit (mkEntry 0x0B r.cls d.now e.slot st (r.head ++ r.args.map W))
      else d1
    let raw := d2.evr.raw ++ [r]
    let d3 := { d2 with evr := { d2.evr with seq := q, raw := raw } }
    if d3.evr.forced || raw.length < 4096 then d3
    else { d3 with evr := { d3.evr with forced := true } }.count fForced

/-- The first event that waits is taken in (R404). -/
def Dev.nextEvent (d : Dev) : Dev :=
  match d.takeItem 7 with
  | some (.event e, d1) => d1.intake e
  | some (_, d1) => d1
  | none => d

/-- Every event in the input is taken in, in the order of its queue. -/
def Dev.drainFrom (d : Dev) : Nat → Dev
  | 0 => d
  | fuel + 1 => ((d.fillGroup 7).nextEvent).drainFrom fuel

def Dev.drainEvents (d : Dev) : Dev := d.drainFrom (d.items 7).length

/-- An event is raised by a command whose answer waits for its commit; answers the CSN of its entry, or 0 (R349, R353). -/
def Dev.raiseNow (d : Dev) (code : Nat) (args : List Nat) (slot : Option Nat := none) : Nat × Dev :=
  let d1 := (d.drainEvents.raise code args slot).drainEvents
  (((d1.evr.raw.getLast?.map EvRec.csn).getD 0), d1)

end Sys2Proof.Machine
end

