-- ==== Sys2Proof/Machine/Hash.lean ====
section
/-!
DEFINITION. SHA-256 and SHA-384, HMAC and HKDF over SHA-384, and the checks the spec names by their polynomials: the hashes
of spec 06 R188, 10 R290 and R301, 17 R446 and R447, 19 R481 and R482. PRESUMED: the algorithms are those of the published
standards the spec names (notes/assumptions/5.md).
-/

namespace Sys2Proof

/-- What tells SHA-256 from SHA-384: word bits, initial values, rounds, and the shifts of Σ0, Σ1, σ0 and σ1. -/
structure ShaKind where
  bits : Nat
  init : List Nat
  rounds : Nat
  big0 : List Nat
  big1 : List Nat
  small0 : List Nat
  small1 : List Nat

/-- The round constants of the 64-bit hashes; SHA-256 uses the upper halves of the first 64. -/
def shaK : List Nat :=
  [0x428a2f98d728ae22, 0x7137449123ef65cd, 0xb5c0fbcfec4d3b2f, 0xe9b5dba58189dbbc,
   0x3956c25bf348b538, 0x59f111f1b605d019, 0x923f82a4af194f9b, 0xab1c5ed5da6d8118,
   0xd807aa98a3030242, 0x12835b0145706fbe, 0x243185be4ee4b28c, 0x550c7dc3d5ffb4e2,
   0x72be5d74f27b896f, 0x80deb1fe3b1696b1, 0x9bdc06a725c71235, 0xc19bf174cf692694,
   0xe49b69c19ef14ad2, 0xefbe4786384f25e3, 0x0fc19dc68b8cd5b5, 0x240ca1cc77ac9c65] ++
  [0x2de92c6f592b0275, 0x4a7484aa6ea6e483, 0x5cb0a9dcbd41fbd4, 0x76f988da831153b5,
   0x983e5152ee66dfab, 0xa831c66d2db43210, 0xb00327c898fb213f, 0xbf597fc7beef0ee4,
   0xc6e00bf33da88fc2, 0xd5a79147930aa725, 0x06ca6351e003826f, 0x142929670a0e6e70,
   0x27b70a8546d22ffc, 0x2e1b21385c26c926, 0x4d2c6dfc5ac42aed, 0x53380d139d95b3df,
   0x650a73548baf63de, 0x766a0abb3c77b2a8, 0x81c2c92e47edaee6, 0x92722c851482353b] ++
  [0xa2bfe8a14cf10364, 0xa81a664bbc423001, 0xc24b8b70d0f89791, 0xc76c51a30654be30,
   0xd192e819d6ef5218, 0xd69906245565a910, 0xf40e35855771202a, 0x106aa07032bbd1b8,
   0x19a4c116b8d2d0c8, 0x1e376c085141ab53, 0x2748774cdf8eeb99, 0x34b0bcb5e19b48a8,
   0x391c0cb3c5c95a63, 0x4ed8aa4ae3418acb, 0x5b9cca4f7763e373, 0x682e6ff3d6b2b8a3,
   0x748f82ee5defb2fc, 0x78a5636f43172f60, 0x84c87814a1f0ab72, 0x8cc702081a6439ec] ++
  [0x90befffa23631e28, 0xa4506cebde82bde9, 0xbef9a3f7b2c67915, 0xc67178f2e372532b,
   0xca273eceea26619c, 0xd186b8c721c0c207, 0xeada7dd6cde0eb1e, 0xf57d4f7fee6ed178,
   0x06f067aa72176fba, 0x0a637dc5a2c898a6, 0x113f9804bef90dae, 0x1b710b35131c471b,
   0x28db77f523047d84, 0x32caab7b40c72493, 0x3c9ebe0a15c9bebc, 0x431d67c49c100d4c,
   0x4cc5d4becb3e42b6, 0x597f299cfc657e2a, 0x5fcb6fab3ad6faec, 0x6c44198c4a475817]

def ShaKind.sha256 : ShaKind :=
  ⟨32, [0x6a09e667, 0xbb67ae85, 0x3c6ef372, 0xa54ff53a, 0x510e527f, 0x9b05688c, 0x1f83d9ab, 0x5be0cd19], 64,
    [2, 13, 22], [6, 11, 25], [7, 18, 3], [17, 19, 10]⟩

def ShaKind.sha384 : ShaKind :=
  ⟨64, [0xcbbb9d5dc1059ed8, 0x629a292a367cd507, 0x9159015a3070dd17, 0x152fecd8f70e5939,
    0x67332667ffc00b31, 0x8eb44a8768581511, 0xdb0c2e0d64f98fa7, 0x47b5481dbefa4fa4], 80,
    [28, 34, 39], [14, 18, 41], [1, 8, 7], [19, 61, 6]⟩

/-- A rotation to the right in words of `b` bits. -/
def rotr (b n x : Nat) : Nat := x / 2 ^ n + x % 2 ^ n * 2 ^ (b - n)

/-- The exclusive-or of three rotations. -/
def ShaKind.big (k : ShaKind) (r : List Nat) (x : Nat) : Nat :=
  r.foldl (fun a n => a ^^^ rotr k.bits n x) 0

/-- The exclusive-or of two rotations and a shift. -/
def ShaKind.small (k : ShaKind) (r : List Nat) (x : Nat) : Nat :=
  rotr k.bits (r.getD 0 0) x ^^^ rotr k.bits (r.getD 1 0) x ^^^ x / 2 ^ r.getD 2 0

/-- The message schedule, latest word first: `n` more words after the sixteen of the block. -/
def ShaKind.schedule (k : ShaKind) : Nat → List Nat → List Nat
  | 0, w => w
  | n + 1, w =>
    k.schedule n ((k.small k.small1 (w.getD 1 0) + w.getD 6 0 + k.small k.small0 (w.getD 14 0) + w.getD 15 0) % 2 ^ k.bits :: w)

/-- One round on the working variables a to h. -/
def ShaKind.round (k : ShaKind) (s : List Nat) (kw : Nat) : List Nat :=
  match s with
  | [a, b, c, d, e, f, g, h] =>
    let m := 2 ^ k.bits
    let t1 := h + k.big k.big1 e + ((e &&& f) ^^^ ((m - 1 - e) &&& g)) + kw
    let t2 := k.big k.big0 a + ((a &&& b) ^^^ (a &&& c) ^^^ (b &&& c))
    [(t1 + t2) % m, a, b, c, (d + t1) % m, e, f, g]
  | _ => s

/-- One block, as its sixteen words, taken into the hash value. -/
def ShaKind.block (k : ShaKind) (h ws : List Nat) : List Nat :=
  let w := (k.schedule (k.rounds - 16) ws.reverse).reverse
  let kw := (List.zip shaK w).map fun x => (x.1 / 2 ^ (64 - k.bits) + x.2) % 2 ^ k.bits
  (List.zip h (kw.foldl k.round h)).map fun x => (x.1 + x.2) % 2 ^ k.bits

/-- The numbers that pieces of `n` octets give, at most `fuel` pieces. -/
def pieces (n : Nat) : Nat → List Octet → List Nat
  | 0, _ => []
  | fuel + 1, os => if os.isEmpty then [] else ofBE (os.take n) :: pieces n fuel (os.drop n)

/-- Every block of sixteen words taken in turn. -/
def ShaKind.blocks (k : ShaKind) : Nat → List Nat → List Nat → List Nat
  | 0, h, _ => h
  | fuel + 1, h, ws => if ws.isEmpty then h else k.blocks fuel (k.block h (ws.take 16)) (ws.drop 16)

/-- The hash value's words over a message of octets. -/
def ShaKind.hash (k : ShaKind) (os : List Octet) : List Nat :=
  let blk := 2 * k.bits
  let pad := (2 * blk - 1 - k.bits / 4 - os.length % blk) % blk
  let m := os ++ [0x80] ++ List.replicate pad 0 ++ octetsBE (8 * os.length) (k.bits / 4)
  k.blocks (os.length / blk + 2) k.init (pieces (k.bits / 8) (m.length) m)

/-- SHA-256 over octets. -/
def sha256 (os : List Octet) : Nat := (ShaKind.sha256.hash os).foldl (fun a w => a * 2 ^ 32 + w) 0

/-- SHA-384 over octets. -/
def sha384 (os : List Octet) : Nat := ((ShaKind.sha384.hash os).take 6).foldl (fun a w => a * 2 ^ 64 + w) 0

/-- The octet form of words for hashing and signing (R188). -/
def wordsOctets (ws : List Word) : List Octet := ws.flatMap wordOctets

/-- HMAC with SHA-384. -/
def hmac384 (key msg : List Octet) : List Octet :=
  let k := if key.length ≤ 128 then key else octetsBE (sha384 key) 48
  let p := k ++ List.replicate (128 - k.length) 0
  octetsBE (sha384 (p.map (· ^^^ 0x5C) ++ octetsBE (sha384 (p.map (· ^^^ 0x36) ++ msg)) 48)) 48

/-- The blocks of HKDF's expansion from number `i` up, each with the one before it. -/
def hkdfBlocks (prk info : List Octet) : Nat → Nat → List Octet → List Octet
  | 0, _, _ => []
  | n + 1, i, last =>
    let t := hmac384 prk (last ++ info ++ [BitVec.ofNat 8 i])
    t ++ hkdfBlocks prk info n (i + 1) t

/-- HKDF with SHA-384: `n` octets from a salt, input and info. -/
def hkdf384 (salt input info : List Octet) (n : Nat) : List Octet :=
  (hkdfBlocks (hmac384 salt input) info (cdiv n 48) 1 []).take n

/-- One bit of a CRC over `w` bits with polynomial `poly`, most significant bit first. -/
def crcStep (w poly c : Nat) (b : Bool) : Nat :=
  let x := 2 * c % 2 ^ w
  if (2 ^ (w - 1) ≤ c) == b then x else x ^^^ poly

/-- The bits of a number, most significant of `n` first. -/
def bitsMsb (v : Nat) (n : Nat) : List Bool := (List.range n).map fun i => v.testBit (n - 1 - i)

/-- The CRC-8 of a horn call's wake code (R127): x⁸ + x² + x + 1, initial value 0. -/
def crc8 (v bits : Nat) : Nat := (bitsMsb v bits).foldl (crcStep 8 7) 0

/-- Octets as bits, each octet's least significant bit first: the order IEEE 802.15.4 sends them in. -/
def bitsLsb (os : List Octet) : List Bool := os.flatMap fun o => (List.range 8).map fun i => o.toNat.testBit i

/-- The bits of a number in reverse order, as octets, lowest first. -/
def reverseBits (v n : Nat) : Nat := (List.range n).foldl (fun a i => a + (if v.testBit i then 2 ^ (n - 1 - i) else 0)) 0

/-- A number as `n` octets, least significant first. -/
def octetsLE (v n : Nat) : List Octet := (octetsBE v n).reverse

/-- The number that octets give, least significant first. -/
def ofLE (os : List Octet) : Nat := ofBE os.reverse

/-- The two-octet frame check sequence of IEEE 802.15.4 as its octets stand on air: x¹⁶ + x¹² + x⁵ + 1, initial value 0. -/
def fcs16 (os : List Octet) : List Octet :=
  octetsLE (reverseBits ((bitsLsb os).foldl (crcStep 16 0x1021) 0) 16) 2

/-- The four-octet frame check sequence of IEEE 802.15.4 as its octets stand on air: the CRC-32, over at least four octets. -/
def fcs32 (os : List Octet) : List Octet :=
  let m := os ++ List.replicate (4 - os.length) 0
  octetsLE (reverseBits (((bitsLsb m).foldl (crcStep 32 0x04C11DB7) (2 ^ 32 - 1)) ^^^ (2 ^ 32 - 1)) 32) 4

end Sys2Proof
end

