-- ==== Sys2Proof/Machine/Cipher.lean ====
section
/-!
DEFINITION. AES and the modes the spec uses: CCM* for frames (spec 04 R103, R117), GCM for delivered keys and custody secrets
(19 R481, R484) and XTS for stored keys (19 R485). PRESUMED: the algorithms are those of the published standards the spec
names (notes/assumptions/5.md).
-/

namespace Sys2Proof

/-- The AES substitution table, entry 0 in the lowest octet. -/
def aesSub : Nat :=
  0x16bb54b00f2d99416842e6bf0d89a18cdf2855cee9871e9b948ed9691198f8e19e1dc186b95735610ef6034866b53e708a8bbd4b1f74dde8c6b4a61c2e2578ba08ae7a65eaf4566ca94ed58d6d37c8e779e4959162acd3c25c2406490a3a32e0db0b5ede14b8ee4688902a22dc4f816073195d643d7ea7c41744975fec130ccdd2f3ff1021dab6bcf5389d928f40a351a89f3c507f02f94585334d43fbaaefd0cf584c4a39becb6a5bb1fc20ed00d153842fe329b3d63b52a05a6e1b1a2c830975b227ebe28012079a059618c323c7041531d871f1e5a534ccf73f362693fdb7c072a49cafa2d4adf04759fa7dc982ca76abd7fe2b670130c56f6bf27b777c63

/-- The inverse substitution table. -/
def aesInv : Nat :=
  0x7d0c2155631469e126d677ba7e042b17619953833cbbebc8b0f52aae4d3be0a0ef9cc9939f7ae52d0d4ab519a97f51605fec8027591012b131c7078833a8dd1ff45acd78fec0db9a2079d2c64b3e56fc1bbe18aa0e62b76f89c5291d711af1476edf751ce837f9e28535ade72274ac9673e6b4f0cecff297eadc674f4111913a6b8a130103bdafc1020f3fca8f1e2cd00645b3b80558e4f70ad3bc8c00abd890849d8da75746155edab9edfd5048706c92b6655dcc5ca4d41698688664f6f87225d18b6d49a25b76b224d92866a12e084ec3fa420b954cee3d23c2a632947b54cbe9dec444438e3487ff2f9b8239e37cfbd7f3819ea340bf38a53630d56a0952

/-- An octet through a table. -/
def aesBox (t b : Nat) : Nat := t / 2 ^ (8 * b) % 256

/-- A field element times x. -/
def aesX (b : Nat) : Nat := if b < 128 then 2 * b else (2 * b) ^^^ 0x11B

/-- A product in the field, by the low four bits of `k`. -/
def aesMul (k b : Nat) : Nat :=
  let b2 := aesX b
  let b4 := aesX b2
  (if k.testBit 0 then b else 0) ^^^ (if k.testBit 1 then b2 else 0) ^^^ (if k.testBit 2 then b4 else 0) ^^^
    (if k.testBit 3 then aesX b4 else 0)

/-- The exclusive-or of two lists of octet values. -/
def xorL (a b : List Nat) : List Nat := (List.zip a b).map fun x => x.1 ^^^ x.2

/-- The key schedule as words of four octets, latest first: `n` more words after the key's `nk`. -/
def aesExpand (nk : Nat) : Nat → Nat → Nat → List (List Nat) → List (List Nat)
  | 0, _, _, w => w
  | n + 1, i, rc, w =>
    let t := w.headD []
    let s := t.map (aesBox aesSub)
    let x :=
      if i % nk == 0 then xorL ((s.drop 1) ++ (s.take 1)) [rc, 0, 0, 0] else if nk == 8 && i % 8 == 4 then s else t
    aesExpand nk n (i + 1) (if i % nk == 0 then aesX rc else rc) (xorL (w.getD (nk - 1) []) x :: w)

/-- Lists of `n`, at most `fuel` of them. -/
def groupsOf {α : Type} (n : Nat) : Nat → List α → List (List α)
  | 0, _ => []
  | fuel + 1, l => if l.isEmpty then [] else l.take n :: groupsOf n fuel (l.drop n)

/-- The round keys of a key of 16 or 32 octets, in order. -/
def aesKeys (key : List Octet) : List (List Nat) :=
  let nk := key.length / 4
  let w := (groupsOf 4 nk (key.map (·.toNat))).reverse
  (groupsOf 4 (nk + 7) (aesExpand nk (3 * nk + 28) nk 1 w).reverse).map List.flatten

def aesShift (s : List Nat) : List Nat := (List.range 16).map fun i => s.getD (5 * i % 16) 0
def aesUnshift (s : List Nat) : List Nat := (List.range 16).map fun i => s.getD (13 * i % 16) 0

/-- The column mixing with the coefficients of its first row. -/
def aesMix (k : List Nat) (s : List Nat) : List Nat :=
  (List.range 16).map fun i => (List.range 4).foldl (fun a j =>
    a ^^^ aesMul (k.getD ((j + 4 - i % 4) % 4) 0) (s.getD (i / 4 * 4 + j) 0)) 0

/-- The rounds of an encryption after the first key. -/
def aesRounds : List (List Nat) → List Nat → List Nat
  | [], s => s
  | [k], s => xorL (aesShift (s.map (aesBox aesSub))) k
  | k :: r, s => aesRounds r (xorL (aesMix [2, 3, 1, 1] (aesShift (s.map (aesBox aesSub)))) k)

/-- One block of 16 octets encrypted under a key of 16 or 32 octets. -/
def aesEnc (key blk : List Octet) : List Octet :=
  let ks := aesKeys key
  (aesRounds (ks.drop 1) (xorL (blk.map (·.toNat)) (ks.headD []))).map (BitVec.ofNat 8)

/-- The inverse rounds before the last key: shift, substitution, key, and mixing. -/
def aesDecRounds : List (List Nat) → List Nat → List Nat
  | [], s => s
  | [k], s => xorL ((aesUnshift s).map (aesBox aesInv)) k
  | k :: r, s => aesDecRounds r (aesMix [14, 11, 13, 9] (xorL ((aesUnshift s).map (aesBox aesInv)) k))

/-- One block of 16 octets decrypted. -/
def aesDec (key blk : List Octet) : List Octet :=
  let ks := (aesKeys key).reverse
  (aesDecRounds (ks.drop 1) (xorL (blk.map (·.toNat)) (ks.headD []))).map (BitVec.ofNat 8)

/-- Two octet strings combined by exclusive-or, as long as the shorter. -/
def xorO (a b : List Octet) : List Octet := (List.zip a b).map fun x => x.1 ^^^ x.2

/-- Octets with zeros up to a whole number of blocks. -/
def padBlocks (os : List Octet) : List Octet := os ++ List.replicate ((16 - os.length % 16) % 16) 0

/-- CBC-MAC under a key. -/
def cbcMac (key : List Octet) : Nat → List Octet → List Octet → List Octet
  | 0, x, _ => x
  | fuel + 1, x, os => if os.isEmpty then x else cbcMac key fuel (aesEnc key (xorO x (os.take 16))) (os.drop 16)

/-- Counter blocks from number `i` up over octets. -/
def ctrMode (key : List Octet) (ctr : Nat → List Octet) : Nat → Nat → List Octet → List Octet
  | 0, _, _ => []
  | fuel + 1, i, os =>
    if os.isEmpty then [] else xorO (os.take 16) (aesEnc key (ctr i)) ++ ctrMode key ctr fuel (i + 1) (os.drop 16)

/-- The CCM* authentication value before encryption, over at most 65,279 octets of additional data. -/
def ccmMac (key nonce aad plain : List Octet) (m : Nat) : List Octet :=
  let flags : Octet := BitVec.ofNat 8 ((if aad.isEmpty then 0 else 64) + (m - 2) / 2 * 8 + 1)
  let a := if aad.isEmpty then [] else padBlocks (octetsBE aad.length 2 ++ aad)
  let b := [flags] ++ nonce ++ octetsBE plain.length 2 ++ a ++ padBlocks plain
  (cbcMac key (b.length / 16) (List.replicate 16 0) b).take m

/-- The counter blocks of CCM*. -/
def ccmCtr (nonce : List Octet) (i : Nat) : List Octet := [1] ++ nonce ++ octetsBE i 2

/-- A CCM* ciphertext with its MIC of `m` octets. -/
def ccmSeal (key nonce aad plain : List Octet) (m : Nat) : List Octet :=
  ctrMode key (ccmCtr nonce) (cdiv plain.length 16) 1 plain ++ xorO (ccmMac key nonce aad plain m) (aesEnc key (ccmCtr nonce 0))

/-- The plaintext of a CCM* ciphertext with its MIC of `m` octets, and whether the MIC passes. -/
def ccmOpen (key nonce aad ct : List Octet) (m : Nat) : List Octet × Bool :=
  let n := ct.length - m
  let plain := ctrMode key (ccmCtr nonce) (cdiv n 16) 1 (ct.take n)
  (plain, decide (m ≤ ct.length) && ct.drop n == xorO (ccmMac key nonce aad plain m) (aesEnc key (ccmCtr nonce 0)))

/-- The product in the field of GCM: bits of `x` from the most significant, `v` the other factor, `z` the sum so far. -/
def gcmMul (x : Nat) : Nat → Nat → Nat → Nat
  | 0, _, z => z
  | n + 1, v, z =>
    gcmMul x n (if v % 2 == 1 then (v / 2) ^^^ (0xE1 * 2 ^ 120) else v / 2) (if x.testBit n then z ^^^ v else z)

/-- GHASH over blocks. -/
def ghash (h : Nat) (os : List Octet) : Nat :=
  (pieces 16 os.length os).foldl (fun y b => gcmMul (y ^^^ b) 128 h 0) 0

/-- The counter blocks of GCM with a nonce of 12 octets. -/
def gcmCtr (nonce : List Octet) (i : Nat) : List Octet := nonce ++ octetsBE i 4

/-- The GCM tag of 16 octets over additional data and ciphertext. -/
def gcmTag (key nonce aad ct : List Octet) : List Octet :=
  let h := ofBE (aesEnc key (List.replicate 16 0))
  let s := ghash h (padBlocks aad ++ padBlocks ct ++ octetsBE (8 * aad.length) 8 ++ octetsBE (8 * ct.length) 8)
  xorO (octetsBE s 16) (aesEnc key (gcmCtr nonce 1))

/-- The plaintext of a GCM ciphertext, and whether its tag (or as much of it as is given) passes. -/
def gcmOpen (key nonce aad ct tag : List Octet) : List Octet × Bool :=
  (ctrMode key (gcmCtr nonce) (cdiv ct.length 16) 2 ct, (gcmTag key nonce aad ct).take tag.length == tag)

/-- A tweak times x, octets taken least significant first. -/
def xtsNext (t : List Octet) : List Octet :=
  let v := 2 * ofLE t
  octetsLE (if v < 2 ^ 128 then v else (v - 2 ^ 128) ^^^ 0x87) 16

/-- Whole blocks through XTS under a key's first half and a tweak. -/
def xtsBlocks (f : List Octet → List Octet) : Nat → List Octet → List Octet → List Octet
  | 0, _, _ => []
  | fuel + 1, t, os => if os.isEmpty then [] else xorO (f (xorO (os.take 16) t)) t ++ xtsBlocks f fuel (xtsNext t) (os.drop 16)

/-- A data unit of whole blocks wrapped under an XTS key of 64 or 32 octets. -/
def xtsWrap (key tweak os : List Octet) : List Octet :=
  let n := key.length / 2
  xtsBlocks (aesEnc (key.take n)) (os.length / 16) (aesEnc (key.drop n) tweak) os

/-- A data unit of whole blocks unwrapped. -/
def xtsUnwrap (key tweak os : List Octet) : List Octet :=
  let n := key.length / 2
  xtsBlocks (aesDec (key.take n)) (os.length / 16) (aesEnc (key.drop n) tweak) os

end Sys2Proof
end

