-- ==== Sys2Proof/Machine/Curve.lean ====
section
/-!
DEFINITION. ECDSA over P-256 and P-384 and the key agreement over P-384: what verifies readings (spec 06 R169, R173), signs
blocks (06 R188) and unwraps custody secrets (19 R481). PRESUMED: the curves and algorithms are those of the published
standards the spec names (notes/assumptions/5.md).
-/

namespace Sys2Proof

/-- A curve y² = x³ − 3x + b over a prime field, with a base point of prime order. -/
structure Curve where
  p : Nat
  b : Nat
  n : Nat
  gx : Nat
  gy : Nat
  bits : Nat

def p256 : Curve :=
  ⟨0xffffffff00000001000000000000000000000000ffffffffffffffffffffffff,
    0x5ac635d8aa3a93e7b3ebbd55769886bc651d06b0cc53b0f63bce3c3e27d2604b,
    0xffffffff00000000ffffffffffffffffbce6faada7179e84f3b9cac2fc632551,
    0x6b17d1f2e12c4247f8bce6e563a440f277037d812deb33a0f4a13945d898c296,
    0x4fe342e2fe1a7f9b8ee7eb4a7c0f9e162bce33576b315ececbb6406837bf51f5, 256⟩

def p384 : Curve :=
  ⟨0xfffffffffffffffffffffffffffffffffffffffffffffffffffffffffffffffeffffffff0000000000000000ffffffff,
    0xb3312fa7e23ee7e4988e056be3f82d19181d9c6efe8141120314088f5013875ac656398d8a2ed19d2a85c8edd3ec2aef,
    0xffffffffffffffffffffffffffffffffffffffffffffffffc7634d81f4372ddf581a0db248b0a77aecec196accc52973,
    0xaa87ca22be8b05378eb1c71ef320ad746e1d3b628ba79b9859f741e082542a385502f25dbf55296c3a545e3872760ab7,
    0x3617de4a96262c6f5d9e98bf9292dc29f8f41dbd289a147ce9da3113b5f0b8c00a60b1ce1d7e819d7a431d7c90ea0e5f, 384⟩

/-- The power `b` to `e` modulo `m`; `n` bounds the exponent's bits. -/
def modPow (m : Nat) : Nat → Nat → Nat → Nat → Nat
  | 0, _, _, acc => acc
  | n + 1, b, e, acc => modPow m n (b * b % m) (e / 2) (if e % 2 == 1 then acc * b % m else acc)

/-- The inverse modulo a prime. -/
def invMod (m bits a : Nat) : Nat := modPow m bits (a % m) (m - 2) 1

/-- A point in Jacobian coordinates; the point at infinity has Z 0. -/
structure Jac where
  x : Nat
  y : Nat
  z : Nat

/-- The difference of two residues. -/
def subMod (m a b : Nat) : Nat := (a % m + m - b % m) % m

/-- A point doubled. -/
def Curve.dbl (c : Curve) (a : Jac) : Jac :=
  let d := a.z * a.z % c.p
  let g := a.y * a.y % c.p
  let be := a.x * g % c.p
  let al := 3 * subMod c.p a.x d * (a.x + d) % c.p
  let x := subMod c.p (al * al) (8 * be)
  ⟨x, subMod c.p (al * subMod c.p (4 * be) x) (8 * g * g), 2 * a.y * a.z % c.p⟩

/-- The sum of two points. -/
def Curve.add (c : Curve) (a b : Jac) : Jac :=
  if a.z == 0 then b
  else if b.z == 0 then a
  else
    let z1 := a.z * a.z % c.p
    let z2 := b.z * b.z % c.p
    let u1 := a.x * z2 % c.p
    let s1 := a.y * b.z * z2 % c.p
    let h := subMod c.p (b.x * z1) u1
    let r := subMod c.p (b.y * a.z * z1) s1
    if h == 0 then (if r == 0 then c.dbl a else ⟨1, 1, 0⟩)
    else
      let h2 := h * h % c.p
      let h3 := h2 * h % c.p
      let v := u1 * h2 % c.p
      let x := subMod c.p (r * r) (h3 + 2 * v)
      ⟨x, subMod c.p (r * subMod c.p v x) (s1 * h3), h * a.z * b.z % c.p⟩

/-- A multiple of a point, by the low `n` bits of `k`. -/
def Curve.mul (c : Curve) (k : Nat) (a : Jac) : Nat → Jac
  | 0 => ⟨1, 1, 0⟩
  | n + 1 =>
    let q := c.dbl (c.mul (k / 2) a n)
    if k % 2 == 1 then c.add q a else q

/-- The affine X coordinate of a point. -/
def Curve.affX (c : Curve) (a : Jac) : Nat :=
  let i := invMod c.p c.bits a.z
  a.x * (i * i % c.p) % c.p

def Curve.base (c : Curve) : Jac := ⟨c.gx, c.gy, 1⟩

/-- The point with an X coordinate and a parity of Y; none where X is on no point. -/
def Curve.point (c : Curve) (x : Nat) (odd : Bool) : Option Jac :=
  let v := (x * x % c.p * x + 3 * (c.p - x % c.p) + c.b) % c.p
  let y := modPow c.p c.bits v ((c.p + 1) / 4) 1
  if c.p ≤ x || y * y % c.p != v then none
  else some ⟨x, if y % 2 == (if odd then 1 else 0) then y else c.p - y, 1⟩

/-- The ECDSA signature (r, s) verifies over a digest under a public key. -/
def Curve.verify (c : Curve) (q : Option Jac) (e r s : Nat) : Bool :=
  match q with
  | none => false
  | some q =>
    if r == 0 || s == 0 || c.n ≤ r || c.n ≤ s then false
    else
      let w := invMod c.n c.bits s
      let x := c.add (c.mul (e * w % c.n) c.base c.bits) (c.mul (r * w % c.n) q c.bits)
      x.z != 0 && c.affX x % c.n == r

/-- The ECDSA signature over a digest with a private key and a per-signature number. -/
def Curve.sign (c : Curve) (key k e : Nat) : Nat × Nat :=
  let r := c.affX (c.mul k c.base c.bits) % c.n
  (r, invMod c.n c.bits k * ((e + r * key) % c.n) % c.n)

/-- The X coordinate of the product of a private key and a point (ECDH). -/
def Curve.agree (c : Curve) (key : Nat) (q : Jac) : Nat := c.affX (c.mul key q c.bits)

end Sys2Proof
end

