-- ==== Sys2Proof/Machine/Judge.lean ====
section
/-!
DEFINITION. What validation reads and how it judges a reading: the payloads, the six stages, and what a commit does to
the record (spec 06, R165, R168–R177, R180, R558).
-/

namespace Sys2Proof.Machine

/-- One reading of the full form: 24 octets (R168). None where END_S has a top bit set. -/
def fullReading (os : List Octet) : Option Reading :=
  let n := ofBE (os.take 5)
  let tq := ofBE ((os.drop 5).take 1)
  let regs := ofBE ((os.drop 6).take 18)
  if n < 2 ^ 36 then
    some ⟨n, tq / 32, tq % 32, [regs / 2 ^ 108 % 2 ^ 36, regs / 2 ^ 72 % 2 ^ 36, regs / 2 ^ 36 % 2 ^ 36, regs % 2 ^ 36]⟩
  else none

/-- One reading of the compact form: 9 octets (R168). None where its low bits are not 0. -/
def compactReading (ivl : Nat) (os : List Octet) : Option Reading :=
  let v := ofBE (os.take 9)
  if v % 4 == 0 then some ⟨v / 2 ^ 10 % 2 ^ 26 * ivl * 60, v / 2 ^ 7 % 8, v / 4 % 32, [v / 2 ^ 36]⟩ else none

/-- The length that N, FLAGS and ATT_LEN of a READING_SET payload call for (R168–R170). -/
def setLength (os : List Octet) : Nat :=
  let o (i n : Nat) : Nat := ofBE ((os.drop i).take n)
  let each := o 2 1 / 2 % 2 == 1
  let n := o 1 1 * ((if o 2 1 % 2 == 1 then 9 else 24) + (if each then 64 else 0))
  8 + n + (if o 2 1 / 4 % 2 == 1 then 2 + o (8 + n) 2 else 0) + (if each then 0 else 64)

/-- A signature of a payload, its last 64 octets being r and s (R169), with the octets it covers after the EUI-64. -/
def sigAt (covered rs : List Octet) : List Octet × Nat × Nat := (covered, ofBE (rs.take 32), ofBE ((rs.drop 32).take 32))

/-- A READING_SET payload, or none where R170 makes it MALFORMED. -/
def parseSet (os : List Octet) : Option ReadingSet :=
  let o (i n : Nat) : Nat := ofBE ((os.drop i).take n)
  let n := o 1 1
  let fl := o 2 1
  let compact := fl % 2 == 1
  let each := fl / 2 % 2 == 1
  let attach := fl / 4 % 2 == 1
  let ivl := o 4 2
  let bare := if compact then 9 else 24
  let rl := bare + (if each then 64 else 0)
  let attLen := if attach then o (8 + n * rl) 2 else 0
  let want := setLength os
  if os.length < 8 || n == 0 || 24 < n || 8 ≤ fl || (attach && each) || ivl == 0 || 4095 < ivl || os.length != want
      || (attach && (attLen == 0 || 1024 < attLen)) then none
  else
    let rs := (List.range n).map fun i =>
      if compact then compactReading ivl (os.drop (8 + i * rl)) else fullReading (os.drop (8 + i * rl))
    if rs.all Option.isSome then
      let reading (i : Nat) : List Octet := os.drop (8 + i * rl)
      some ⟨compact, each, o 3 1, ivl, o 6 2, rs.filterMap id, (os.drop (8 + n * rl + 2)).take attLen,
        if each then (List.range n).map fun i => sigAt (os.take 8 ++ (reading i).take bare) ((reading i).drop bare)
        else [sigAt (os.take (os.length - 64)) (os.drop (os.length - 64))]⟩
    else none

/-- What a signature check of a set gives under a slot's key (R164, R169, R173): 0 it passes, 1 no key is held, 2 it fails. -/
def KeyBlock.check (k : KeyBlock) (eui : Eui) (x : List Octet × Nat × Nat) : Nat :=
  if !k.sigV then 1
  else if p256.verify (p256.point k.sigX.toNat k.odd) (sha256 (octetsBE eui.toNat 8 ++ x.1)) x.2.1 x.2.2 then 0 else 2

/-- The registers a reading reports under a record's REG_N (R162, R173). -/
def MeterRec.reported (r : MeterRec) (s : ReadingSet) (x : Reading) : List Nat :=
  if s.compact then x.regs.take 1 else x.regs.take (r.regN + 1)

/-- Seconds of an interval. -/
def MeterRec.ivlS (r : MeterRec) : Nat := r.ivlMin * 60

/-- The largest value a register holds, plus 1 (R175). -/
def MeterRec.rollAt (r : MeterRec) : Nat := if r.rollExp == 0 then 2 ^ 36 else 10 ^ r.rollExp

/-- A register's increase and whether it rolled over, or none where monotonicity fails (R175). -/
def increase (m p v : Nat) : Option (Nat × Bool) :=
  if m ≤ v then none
  else if p ≤ v then some (v - p, false)
  else if m < 2 * (p - v) then some (v + m - p, true)
  else none

/-- Clock skew in ms of a frame (R175). -/
def skewOf (mclk shr : Nat) : Int := ofTwos 16 (toTwos 16 ((mclk : Int) - ((shr * 1000 / 2 ^ 36 : Nat) : Int)))

/-- SEEN bit `j` of a record (R165). -/
def MeterRec.seenBit (r : MeterRec) (j : Nat) : Bool := r.seen.toNat / 2 ^ j % 2 == 1

/-- What validation says of one reading: OUTCOME, REASON, FLAGS and ORIG_CSN (R173, R176, R178, R180). -/
structure Judgement where
  outcome : Nat
  reason  : Nat
  flags   : Nat
  orig    : Nat
deriving DecidableEq, Repr

def rejectedAs (reason flags orig : Nat) : Judgement := ⟨3, reason, flags, orig⟩
def quarantinedAs (reason flags : Nat) : Judgement := ⟨2, reason, flags, 0⟩

/-- Stages 3 to 6 and the outcome (R173, R175, R176): `fl` holds the flags stage 2 has set, `skip` that stages 3 and 4
do not apply. -/
def Dev.lateStages (d : Dev) (r : MeterRec) (s : ReadingSet) (x : Reading) (skew : Int) (fl : Nat) (skip : Bool) : Judgement :=
  let incs := (r.reported s x).mapIdx fun i v => increase r.rollAt (r.lastReg.getD i 0) v
  if !skip && incs.any Option.isNone then quarantinedAs 16 fl
  else
    let fl3 := fl + if !skip && incs.any (fun q => (q.map (·.2)).getD false) then 64 else 0
    let m := (x.endS - r.lastEnd) / r.ivlS
    let above (pct : Nat) : Bool :=
      !skip && r.rated != 0 && incs.any fun q => decide (r.rated * 10 * r.ivlMin * pct * m < ((q.map (·.1)).getD 0) * 6000)
    if above d.plausHard then quarantinedAs 17 fl3
    else
      let fl4 := fl3 + if above d.plausSoft then 2 else 0
      if d.skewQuarMs < skew.natAbs then quarantinedAs 19 fl4
      else
        let fl5 := fl4 + if d.skewFlagMs < skew.natAbs then 1 else 0
        if s.ttId != r.ttActive && !(r.stagedV && s.ttId == r.ttStaged) then quarantinedAs 18 fl5
        else
          let fl6 := fl5 + (if s.ttId != r.ttActive then 8 else 0) + (if x.qual != 0 then 16 else 0)
          ⟨if fl6 % 64 == 0 then 0 else 1, 0, fl6, 0⟩

/-- The judgement of one reading against the record as the commit before it left it (R34, R173, R558). `sig` is what the
signature check gave (0 pass, 1 no key, 2 failed) and `look` what the interval index answered. -/
def Dev.judgeReading (d : Dev) (r : MeterRec) (f : FrameInfo) (s : ReadingSet) (x : Reading) (sig : Nat)
    (look : Option Nat) : Judgement :=
  let skew := skewOf s.mclk f.shr
  if sig == 1 then rejectedAs 5 0 0
  else if sig == 2 then rejectedAs 1 0 0
  else if s.ivlMin != r.ivlMin || x.endS % r.ivlS != 0 then quarantinedAs 21 0
  else if f.shr * 1000 + d.skewQuarMs * 2 ^ 36 < x.endS * 2 ^ 36 * 1000 then quarantinedAs 22 0
  else if r.lastCsn == 0 then d.lateStages r s x skew 32 true
  else if ((x.endS : Int) - r.lastEnd) % (r.ivlS : Int) != 0 then quarantinedAs 21 0
  else if x.endS == r.lastEnd then rejectedAs 2 0 r.lastCsn
  else if r.lastEnd < x.endS then
    d.lateStages r s x skew (if r.lastEnd + r.ivlS < x.endS then 128 else 0) false
  else
    let back := (r.lastEnd - x.endS) / r.ivlS
    if 64 < back then
      match look with
      | some c => rejectedAs 2 0 c
      | none => quarantinedAs 20 0
    else if r.seenBit (back - 1) then rejectedAs 2 0 (look.getD 0)
    else d.lateStages r s x skew 4 true

/-- LAST_END advances to an interval end (R165, R177). -/
def MeterRec.advance (r : MeterRec) (endS csn : Nat) : MeterRec :=
  if r.lastCsn == 0 then { r with lastEnd := endS, lastCsn := csn }
  else
    let m := (endS - r.lastEnd) / r.ivlS
    { r with
      lastEnd := endS
      lastCsn := csn
      seen := BitVec.ofNat 64 (r.seen.toNat * 2 ^ m + 2 ^ (m - 1)) }

/-- The SEEN bit of an earlier interval is set (R165, R177). -/
def MeterRec.markSeen (r : MeterRec) (endS : Nat) : MeterRec :=
  let j := (r.lastEnd - endS) / r.ivlS - 1
  { r with seen := r.seen ||| BitVec.ofNat 64 (2 ^ j) }

/-- A judgement advances LAST_END: END_S is later, or is the first committed. -/
def MeterRec.advances (r : MeterRec) (x : Reading) : Bool := r.lastCsn == 0 || decide (r.lastEnd < x.endS)

/-- A record after the commit of a reading (R177). -/
def MeterRec.afterReading (r : MeterRec) (s : ReadingSet) (x : Reading) (skew : Int) (j : Judgement) (csn : Nat) : MeterRec :=
  let held (q : MeterRec) : MeterRec := if r.advances x then q.advance x.endS csn else q.markSeen x.endS
  let skewed (q : MeterRec) : MeterRec := { q with skew := max (-32767) (min 32767 skew) }
  if j.outcome == 3 then r
  else if j.outcome == 2 then
    skewed ((if j.reason == 20 || j.reason == 21 || j.reason == 22 then r else held r).setBit sbQuarantined true)
  else if r.advances x then
    let regs := r.reported s x
    skewed (({ held r with lastReg := regs ++ r.lastReg.drop regs.length }.setBit sbStale false).setBit sbQuarantined false)
  else skewed ((held r).setBit sbStale false)

/-- The interval index takes every reading but a rejected one (R390). -/
def Judgement.indexed (j : Judgement) : Bool := decide (j.outcome ≤ 2)

/-- A READING body (R180). -/
def readingBody (f : FrameInfo) (s : ReadingSet) (regs : List Nat) (x : Reading) (ridx : Nat) (skew : Int) (orig : Nat) : List Word :=
  let att := if ridx == 0 then s.att else []
  [W x.endS, pk [(s.ivlMin, 35, 24), (s.ttId, 23, 16), (x.tariff, 15, 13), (x.qual, 12, 8), (ridx, 7, 0)],
    W (regs.getD 0 0), W (regs.getD 1 0), W (regs.getD 2 0), W (regs.getD 3 0),
    pk [(toTwos 16 (max (-32767) (min 32767 skew)), 35, 20), (f.lq, 19, 12), (f.stream, 11, 7), (b2n f.pl, 6, 6)],
    hiW orig, loW orig, pk [(f.fctr, 35, 4)], pk [(att.length, 35, 25)]]
  ++ (if att.isEmpty then [] else packOctets att)

/-- The body of a frame rejected as a whole: RIDX 255 and no reading fields (R167, R170, R556). -/
def wholeFrameBody (f : FrameInfo) : List Word :=
  readingBody f ⟨false, false, 0, 0, 0, [], [], []⟩ [] ⟨0, 0, 0, []⟩ 255 0 0

end Sys2Proof.Machine
end

