-- ==== Sys2Proof/Machine/Balance.lean ====
section
/-!
DEFINITION. The balance engine: zone intervals, contributions, references, evaluation, membership and the phase
correlator (spec 08, R237–R256).
-/

namespace Sys2Proof.Machine

/-! The balance counters (R256). -/

def fEvaluated : Fld := ⟨0x0450, 35, 0⟩
def fExceeded : Fld := ⟨0x0451, 35, 18⟩
def fNegative : Fld := ⟨0x0451, 17, 0⟩
def fIncomplete : Fld := ⟨0x0452, 35, 18⟩
def fNoRef : Fld := ⟨0x0452, 17, 0⟩
def fTopo : Fld := ⟨0x0453, 35, 18⟩
def fLateMember : Fld := ⟨0x0453, 17, 0⟩
def fLateRef : Fld := ⟨0x0454, 35, 18⟩
def fNotUsed : Fld := ⟨0x0454, 17, 0⟩
def fPhiRuns : Fld := ⟨0x0455, 35, 18⟩
def fPhiChanged : Fld := ⟨0x0455, 17, 0⟩
def fPhiSuggested : Fld := ⟨0x0456, 35, 18⟩
def fMemberRefused : Fld := ⟨0x0456, 17, 0⟩

/-- A quotient rounded convergently: to nearest, ties to even. -/
def roundHE (n : Int) (m : Nat) : Int :=
  let q := n.fdiv m
  let r := n.fmod m
  if 2 * r < m then q else if (m : Int) < 2 * r then q + 1 else if q % 2 == 0 then q else q + 1

/-- An energy sum clamped to ±(2³⁵ − 1) Wh (R248). -/
def clampE (e : Int) : Int := max (-(2 ^ 35 - 1)) (min (2 ^ 35 - 1) e)

/-- A word holding an integer in two's complement. -/
def intW (i : Int) : Word := W (toTwos 36 i)

/-! Membership words (R239). -/

def Dev.memWord (d : Dev) (slot : Nat) : Word := NMap.look d.bal.mem slot 0
def memZone (w : Word) : Nat := fld w 35 24
def memZv (w : Word) : Bool := bitOf w 23
def memPhase (w : Word) : Nat := fld w 22 21
def memPoly (w : Word) : Bool := bitOf w 20

def Dev.setBal (d : Dev) (b : Balance) : Dev := { d with bal := b }

def Dev.setMem (d : Dev) (slot : Nat) (w : Word) : Dev :=
  d.setBal { d.bal with mem := if w = 0 then NMap.del d.bal.mem slot else NMap.put d.bal.mem slot w }

/-- The engine runs: PD51 is ON and the ledger takes its commits (R237, R404). -/
def Dev.balOn (d : Dev) : Bool := d.domOn 51 && d.ledgerRuns

/-- Seconds of a balance interval (R241). -/
def Dev.balIvlS (d : Dev) : Nat := d.balIvlMin * 60

def ZIvl.empty : ZIvl := ⟨0, 0, [0, 0, 0], false, false, none, [0, 0, 0], [0, 0, 0], 0⟩

def Zone.empty : Zone := ⟨0, [], [], 0, 0, false, false, 0, 0, 0, true, List.replicate 16 0⟩

def Dev.zone (d : Dev) (z : Nat) : Zone := NMap.look d.bal.zones z Zone.empty

def Dev.setZone (d : Dev) (z : Nat) (x : Zone) : Dev := d.setBal { d.bal with zones := NMap.put d.bal.zones z x }

/-- The end of the zone's last interval that is over: evaluated, or ended before the engine's start (R244, R253). -/
def Dev.zDone (d : Dev) (z : Nat) : Nat := max (d.zone z).done (d.bal.begun / max 1 d.balIvlS * d.balIvlS)

/-- The interval ending at `endS` is open: it has ended and is not yet evaluated (R241). -/
def Dev.zOpen (d : Dev) (z endS : Nat) : Bool :=
  d.zoneV z && decide (d.zDone z < endS) && decide (endS % max 1 d.balIvlS = 0) &&
    (decide (endS * 2 ^ 36 ≤ d.now) || (NMap.find (d.zone z).open' endS).isSome)

def Dev.zIvl (d : Dev) (z endS : Nat) : ZIvl := NMap.look (d.zone z).open' endS ZIvl.empty

def Dev.setIvl (d : Dev) (z endS : Nat) (v : ZIvl) : Dev :=
  d.setZone z { d.zone z with open' := NMap.put (d.zone z).open' endS v }

/-- The ends of the zone's open intervals, at most the 63 that BAL_WAIT_MIN allows (R254, R255). -/
def Dev.zOpenEnds (d : Dev) (z : Nat) : List Nat :=
  ((List.range 64).map fun i => d.zDone z + (i + 1) * d.balIvlS).filter (d.zOpen z)

/-- Every open interval of a zone changed by `f`. -/
def Dev.markOpen (d : Dev) (z : Nat) (f : ZIvl → ZIvl) : Dev :=
  (d.zOpenEnds z).foldl (fun x e => x.setIvl z e (f (x.zIvl z e))) d

/-- Members of a zone now (R239). -/
def Dev.zMembers (d : Dev) (z : Nat) : Nat := (d.bal.mem.filter fun p => memZv p.2 && memZone p.2 == z).length

/-- EXPECTED: members at the start of the interval (R241), from those now and the changes since. -/
def Dev.expected (d : Dev) (z endS : Nat) : Nat :=
  let since := ((d.zone z).chg.filter fun c => decide ((endS - d.balIvlS) * 2 ^ 36 < c.1)).map (·.2)
  ((d.zMembers z : Int) - since.foldl (· + ·) 0).toNat

/-- A change of a zone's member count is kept while an open interval may ask for it. -/
def Dev.noteMembers (d : Dev) (z : Nat) (by' : Int) : Dev :=
  let keep := (d.zone z).chg.filter fun c => decide ((d.zDone z - d.balIvlS) * 2 ^ 36 < c.1)
  d.setZone z { d.zone z with chg := keep ++ [(d.now, by')] }

/-- Members' count of the zone a word names changes from the word `w` to the word `w'`. -/
def Dev.memberMoves (d : Dev) (w w' : Word) : Dev :=
  let d1 := if memZv w then d.noteMembers (memZone w) (-1) else d
  if memZv w' then d1.noteMembers (memZone w') 1 else d1

/-! Evaluation (R245–R247). -/

/-- E_LOSS for REF_KIND 0 and 1 (R245): `q` in 10⁻⁶ A²s, the fixed loss in `part` parts. -/
def Dev.lossFeeder (d : Dev) (z q part : Nat) : Int :=
  roundHE ((d.zLossFix z * d.balIvlMin * 60 * 10 ^ 12 + part * (d.zLossR z * q) : Nat) : Int) (3600 * 10 ^ 12 * part)

/-- E_LOSS for REF_KIND 2 (R245). -/
def Dev.lossCheck (d : Dev) (z : Nat) (e : Int) : Int :=
  let v2 := d.zVnom z * d.zVnom z
  roundHE ((d.zLossFix z * d.balIvlMin * v2 * d.balIvlMin * 10 ^ 6 + d.zLossR z * 3600 * (e.natAbs * e.natAbs) : Nat) : Int)
    (60 * v2 * d.balIvlMin * 10 ^ 6)

/-- E_LOSS of an interval (R245). -/
def Dev.eLoss (d : Dev) (z : Nat) (v : ZIvl) (e : Int) : Int :=
  match d.zRefKind z with
  | 0 => d.lossFeeder z v.q.sum 1
  | 1 => d.lossFeeder z (v.q.getD (d.zRefPhase z) 0) 1
  | _ => d.lossCheck z e

/-- The per-phase residuals of REF_KIND 0 (R245): the members' share is counted in thirds of a Wh and the residual
rounded convergently. DESIGN CHOICE, notes/assumptions/9.md. -/
def Dev.phaseResid (d : Dev) (z : Nat) (v : ZIvl) : List Int :=
  (List.range 3).map fun p =>
    let e := roundHE (v.refPh.getD p 0) 1000
    let l := d.lossFeeder z (v.q.getD p 0) 3
    clampE (roundHE (3 * (e - l) - v.third.getD p 0) 3)

/-- The reference of an interval is usable (R243, R246): present, not gapped by more than 1 s, and REF_SLOT assigned. -/
def Dev.refGood (d : Dev) (z : Nat) (v : ZIvl) : Bool :=
  v.ref.isSome && decide (v.gapUs ≤ 1000000) && (d.zRefKind z != 2 || (d.rec? (d.zRefSlot z)).isSome)

/-- REASON of an evaluated interval (R246). -/
def zReason (expected contrib missMax : Nat) (topo refGood : Bool) (resid h : Int) : Nat :=
  if expected == 0 then 6
  else if topo then 5
  else if !refGood then 4
  else if missMax * expected / 100 < expected - contrib then 3
  else if h < resid then 1
  else if resid < -h then 2
  else 0

/-- Ones among the lowest `n` bits. -/
def lowOnes (h : Nat) (n : Nat) : Nat := ((List.range n).filter fun i => h / 2 ^ i % 2 == 1).length

/-- An alarm after a judged interval (R247). -/
def alarmAfter (active : Bool) (hist n m clear : Nat) : Bool :=
  if active then lowOnes hist clear != 0 else decide (n ≤ lowOnes hist m)

/-- One evaluation: the INTERVAL entry, the histories and alarms, and the zone's mirror words (R244–R250). -/
def Dev.evaluate (d : Dev) (z endS : Nat) (early : Bool) : Dev :=
  let v := d.zIvl z endS
  let x := d.zone z
  let expd := d.expected z endS
  let good := d.refGood z v
  let eRef := if good then clampE (v.ref.getD 0) else 0
  let loss := if good then clampE (d.eLoss z v eRef) else 0
  let eMem := clampE v.eMem
  let res0 := if good then clampE (eRef - eMem - loss) else 0
  let h : Int := max (10 * d.zResAbs z : Nat) (d.zResPermil z * eRef.natAbs / 1000 : Nat)
  let why := zReason expd v.contrib (d.zMissMax z) v.topo good res0 h
  let resid := if why == 6 then 0 else res0
  let judged := decide (why ≤ 2)
  let lossH := if judged then (x.loss * 2 + b2n (why == 1)) % 2 ^ 15 else x.loss
  let negH := if judged then (x.neg * 2 + b2n (why == 2)) % 2 ^ 15 else x.neg
  let lossA := if judged then alarmAfter x.lossAl lossH (d.zPersistN z) (d.zPersistM z) (d.zClearN z) else x.lossAl
  let negA := if judged then alarmAfter x.negAl negH (d.zPersistN z) (d.zPersistM z) (d.zClearN z) else x.negAl
  let raised := (lossA && !x.lossAl) || (negA && !x.negAl)
  let cleared := (!lossA && x.lossAl) || (!negA && x.negAl)
  let cum := if !lossA then 0 else if !judged then x.cum else clampE ((if x.lossAl then x.cum else 0) + resid)
  let lossS := if !lossA then 0 else if x.lossAl then x.lossS else endS
  let negS := if !negA then 0 else if x.negAl then x.negS else endS
  let phV := d.zRefKind z == 0 && good && !v.amb
  let rs := if phV then d.phaseResid z v else [0, 0, 0]
  let slot := if d.zRefKind z == 2 then some (d.zRefSlot z) else none
  let st := match slot with | some (n + 1) => d.nonet (n + 1) | _ => 0
  let flags := b2n lossA + 2 * b2n negA + 4 * b2n raised + 8 * b2n cleared + 16 * b2n early
    + 32 * b2n (good && v.gapUs != 0) + 64 * b2n phV + 128 * b2n x.restart
  let sums : List Word := [pk [(expd, 35, 14)], pk [(v.contrib, 35, 14)], intW eRef, intW eMem, intW loss, intW resid]
    ++ rs.map intW
  let tail : List Word := [intW cum, W lossS, W negS]
  let body : List Word := [pk [(0, 35, 34), (z, 33, 22)], W endS] ++ sums ++ [pk [(lossH, 35, 21), (negH, 20, 6)]] ++ tail
  let r := d.append { mkEntry 0x09 (if raised then 0 else 2) d.now slot st body with reason := why, flags := flags }
  let head := pk [(why, 35, 33), (b2n lossA, 32, 32), (b2n negA, 31, 31), (b2n phV, 30, 30), (lossH, 29, 15), (negH, 14, 0)]
  let words : List Word := [head, W endS] ++ sums ++ tail ++ dw r.1
  let x' : Zone := { x with
    done := endS
    open' := NMap.keep x.open' fun k _ => decide (endS < k)
    loss := lossH, neg := negH, lossAl := lossA, negAl := negA, cum := cum, lossS := lossS, negS := negS
    restart := false, words := words }
  let d1 := (r.2.setZone z x').count fEvaluated
  match why with
  | 1 => d1.count fExceeded
  | 2 => d1.count fNegative
  | 4 => d1.count fNoRef
  | 5 => d1.count fTopo
  | 0 => d1
  | _ => d1.count fIncomplete

/-- An interval is ready for an early close: its reference is present and all EXPECTED members have contributed (R244). -/
def Dev.zReady (d : Dev) (z endS : Nat) : Bool :=
  d.zOpen z endS && (d.zIvl z endS).ref.isSome && decide (d.expected z endS ≤ (d.zIvl z endS).contrib)

/-- Intervals ready for an early close are evaluated in END_S order, as far as no earlier one still waits (R244). -/
def Dev.closeEarly (d : Dev) (z : Nat) : Nat → Dev
  | 0 => d
  | fuel + 1 =>
    let e := d.zDone z + d.balIvlS
    if d.zReady z e then Dev.closeEarly (d.evaluate z e true) z fuel else d

/-- Intervals up to `endS` are evaluated in order at their wait limit, and then those they held back (R244). -/
def Dev.closeUpTo (d : Dev) (z endS : Nat) : Nat → Dev
  | 0 => d
  | fuel + 1 =>
    let e := d.zDone z + d.balIvlS
    if e ≤ endS && d.zOpen z e then Dev.closeUpTo (d.evaluate z e false) z endS fuel else d.closeEarly z 64

/-! Contributions (R242, R243, R251). -/

/-- Net energy in Wh that a reading's increases give under the roles of its meter type (R242). -/
def roleEnergy (roles : List Nat) (incs : List Nat) : Int :=
  ((List.range 4).map fun i =>
    let e : Int := incs.getD i 0
    match roles.getD i 0 with | 1 => e | 2 => -e | _ => 0).foldl (· + ·) 0

/-- The busbar means of a zone's set over an interval in µV, by phase or line pair (R251); none where a sample was
reserved or none came. -/
def Dev.busMeans (d : Dev) (z endS : Nat) : Option (List Int) :=
  match NMap.find d.bal.bus (endS * 4 + d.zBusbar z) with
  | none => none
  | some b =>
    if b.bad || b.n == 0 then none
    else some ((List.range 3).map fun p =>
      ((b.sums.getD (p + if d.zVrefLl z then 3 else 0) 0 * 1000 / b.n : Nat) : Int))

def Corr.fresh (start : Nat) : Corr := ⟨start, none, 0, 0, 0, [0, 0, 0], [0, 0, 0], [0, 0, 0]⟩

/-- A new window with the sums at zero; the member's last interval stays known (R251, R252). -/
def Corr.restart (c : Corr) (start : Nat) : Corr := { Corr.fresh start with prev := c.prev }

/-- A member's voltage integral joins its correlator window (R251): none where the reading carries no role-3 increase or the busbar interval
is not usable, and then there is no pair. -/
def Corr.take (c : Corr) (ivlS endS : Nat) (x : Option (Int × List Int)) : Corr :=
  match x with
  | none => { c with prev := none }
  | some (v, us) =>
    match c.prev with
    | some (e, v0, us0) =>
      if e + ivlS == endS then
        let x := v - v0
        let y (p : Nat) : Int := us.getD p 0 - us0.getD p 0
        let add (l : List Int) (f : Nat → Int) : List Int := (List.range 3).map fun p => l.getD p 0 + f p
        let sx := c.sx + x
        let sy := add c.sy y
        let sy2 := add c.sy2 fun p => y p * y p
        let sxy := add c.sxy fun p => x * y p
        { c with
          prev := some (endS, v, us), n := c.n + 1, sx := sx, sx2 := c.sx2 + x * x, sy := sy, sy2 := sy2, sxy := sxy }
      else { c with prev := some (endS, v, us) }
    | none => { c with prev := some (endS, v, us) }

/-- The correlator takes a contributing reading of a member (R251). -/
def Dev.correlate (d : Dev) (slot z endS : Nat) (roles incs : List Nat) : Dev :=
  match roles.findIdx? (· == 3) with
  | none => d
  | some i =>
    if d.phiWinD == 0 || memPoly (d.memWord slot) then d
    else
      let x := match incs[i]?, d.busMeans z endS with
        | some v, some us => some ((v : Int), us)
        | _, _ => none
      let c := (NMap.look d.bal.corr slot (Corr.fresh d.nowS)).take d.balIvlS endS x
      d.setBal { d.bal with corr := NMap.put d.bal.corr slot c }

/-- The zones whose reference is the meter in a slot. -/
def Dev.zonesByRef (d : Dev) (slot : Nat) : List Nat :=
  (List.range 4096).filter fun z => d.zoneV z && d.zRefKind z == 2 && d.zRefSlot z == slot

/-- A committed reading as member and as reference (R242, R243): `r` is the record before the commit. -/
def Dev.contribute (d : Dev) (slot : Nat) (r : MeterRec) (s : ReadingSet) (x : Reading) (j : Judgement) : Dev :=
  if !d.balOn then d
  else
    let roles := d.roles r.mtype
    let incs := ((r.reported s x).mapIdx fun i v => increase r.rollAt (r.lastReg.getD i 0) v).map fun q =>
      ((q.map (·.1)).getD 0)
    let noted := j.flags / 32 % 2 == 1 || j.flags / 4 % 2 == 1 || j.flags / 128 % 2 == 1
    let hidden := s.compact && (roles.drop 1).any fun q => q == 1 || q == 2
    let usable := decide (j.outcome ≤ 1) && !noted && !hidden
    let e := roleEnergy roles incs
    let w := d.memWord slot
    let z := memZone w
    let d1 :=
      if !(memZv w && d.zoneV z) then d
      else if !usable then d.count fNotUsed
      else if !d.zOpen z x.endS then d.count fLateMember
      else
        let v := d.zIvl z x.endS
        let ph (p : Nat) : Int :=
          if memPoly w then e else if memPhase w == p + 1 then 3 * e else 0
        let third := (List.range 3).map fun p => v.third.getD p 0 + ph p
        let v' : ZIvl := { v with
          contrib := v.contrib + 1, eMem := v.eMem + e, third := third
          amb := v.amb || (!memPoly w && memPhase w == 0) }
        ((d.setIvl z x.endS v').correlate slot z x.endS roles incs).closeEarly z 64
    if !usable then d1
    else (d1.zonesByRef slot).foldl (fun y n =>
      if y.zOpen n x.endS then
        (y.setIvl n x.endS { y.zIvl n x.endS with ref := some e }).closeEarly n 64
      else if x.endS ≤ y.zDone n then y.count fLateRef else y) d1

/-- A feeder zone's reference over the ticks of its interval (R243): net energy by phase in µWh, Q by phase in 10⁻⁶ A²s,
and the time in µs that reserved samples cover, which time without ticks counts as (notes/assumptions/12.md). -/
def Dev.feederRef (d : Dev) (z endS : Nat) : List Int × List Nat × Nat :=
  let at' (p : Nat) : FeedIvl := NMap.look d.met.feed (endS * 32 + 4 * d.zFeeder z + p) ⟨0, 0, 0⟩
  let bare := d.balIvlS * 8192000 - (at' 3).ep.toNat * 81920
  let gap := bare + (at' (if d.zRefKind z == 0 then 3 else d.zRefPhase z)).gap
  ((List.range 3).map (fun p => (at' p).ep), (List.range 3).map (fun p => (at' p).i2t), cdiv (gap * 1000000) 8192000)

/-- Why a membership write is refused: the object result code (R240, R352, R353). -/
def Dev.memberRefusal (d : Dev) (slot : Nat) (w : Word) : Option Nat :=
  match d.rec? slot with
  | none => some 0x05
  | some r =>
    if !memZv w then none
    else if !d.zoneV (memZone w) then some 0x06
    else if r.ivlMin != d.balIvlMin then some 0x07
    else if d.zRefKind (memZone w) == 2 && d.zRefSlot (memZone w) == slot then some 0x08
    else none

/-- A membership write that is not refused (R240, R249, R252, R353): only the W fields are written; answers the CSN. -/
def Dev.memberWrite (d : Dev) (slot : Nat) (data : Word) : Nat × Dev :=
  let old := d.memWord slot
  let new : Word := W (data.toNat / 2 ^ 20 * 2 ^ 20 + old.toNat % 2 ^ 20)
  let moved := memZv old != memZv new || memZone old != memZone new
  let topo (v : ZIvl) : ZIvl := { v with topo := true }
  let d1 := if moved && memZv old then d.markOpen (memZone old) topo else d
  let d2 := if moved && memZv new then d1.markOpen (memZone new) topo else d1
  let phased (v : ZIvl) : ZIvl := { v with amb := true }
  let d2p := if memZv new && memPhase old != memPhase new then d2.markOpen (memZone new) phased else d2
  let d3 := (if moved then d2p.memberMoves old new else d2p).setMem slot new
  let c := NMap.look d3.bal.corr slot (Corr.fresh d3.nowS)
  let d4 := d3.setBal { d3.bal with corr := NMap.put d3.bal.corr slot (c.restart d3.nowS) }
  let z := if memZv new then memZone new else memZone old
  d4.append (mkEntry 0x09 2 d.now (some slot) (d.nonet slot) [pk [(2, 35, 34), (z, 33, 22)], old, new])

/-- A REMOVE clears the slot's membership word and marks nothing (R240). -/
def Dev.memberGone (d : Dev) (slot : Nat) : Dev :=
  let d1 := (d.memberMoves (d.memWord slot) 0).setMem slot 0
  d1.setBal { d1.bal with corr := NMap.del d1.bal.corr slot }

/-! Phase identification (R252). -/

/-- The largest k up to 100 with k² · den at most num². -/
def rootPart (num den : Nat) : Nat :=
  ((List.range 101).filter fun k => decide (k * k * den ≤ num * num)).length - 1

/-- ρ of one phase in 0.01, truncated toward zero (R252). -/
def Corr.rho (c : Corr) (p : Nat) : Int :=
  let n : Int := c.n
  let num := n * c.sxy.getD p 0 - c.sx * c.sy.getD p 0
  let den := ((n * c.sx2 - c.sx * c.sx) * (n * c.sy2.getD p 0 - c.sy.getD p 0 * c.sy.getD p 0)).toNat
  if den == 0 then 0
  else if num < 0 then -(rootPart (100 * num.natAbs) den : Int) else (rootPart (100 * num.natAbs) den : Int)

/-- One correlator run (R249, R252). DESIGN CHOICE (notes/assumptions/9.md): of equal best ρ the first phase counts as the best. -/
def Dev.phaseRun (d : Dev) (slot : Nat) (c : Corr) : Dev :=
  let w := d.memWord slot
  let z := memZone w
  let old := memPhase w
  let rs := (List.range 3).map c.rho
  let best := (bestBy (fun (a b : Int × Nat) => decide (b.1 < a.1)) [(rs.getD 0 0, 1), (rs.getD 1 0, 2), (rs.getD 2 0, 3)]).getD (0, 1)
  let next := (((List.range 3).filter (· + 1 != best.2)).map fun i => rs.getD i 0).foldl max (-100)
  let few := decide (c.n < d.phiMinN)
  let vague := decide (best.1 < (d.phiMin : Int)) || decide (best.1 - next < (d.phiMargin : Int))
  let res := if few then 6 else if vague then 5 else if old == best.2 then 1
    else if !d.zAutoPhase z then 4 else if old == 0 then 3 else 2
  let phase := if res == 2 || res == 3 then best.2 else old
  let new := pk [(z, 35, 24), (b2n (memZv w), 23, 23), (phase, 22, 21), (b2n (memPoly w), 20, 20), (res, 19, 17),
    (toTwos 8 best.1, 16, 9)]
  let d1 := d.setMem slot new
  let d2 := if phase != old then d1.markOpen z fun v => { v with amb := true } else d1
  let d3 := d2.setBal { d2.bal with corr := NMap.put d2.bal.corr slot (c.restart d2.nowS) }
  let f := if few then 0 else best.2
  let body : List Word := [pk [(1, 35, 34), (z, 33, 22)],
    pk [(old, 35, 34), (f, 33, 32), (res, 31, 29), (toTwos 8 (rs.getD 0 0), 28, 21), (toTwos 8 (rs.getD 1 0), 20, 13),
      (toTwos 8 (rs.getD 2 0), 12, 5)],
    W c.start, pk [(min c.n 16383, 35, 22)]]
  let d4 := (d3.commit (mkEntry 0x09 2 d.now (some slot) (d.nonet slot) body)).count fPhiRuns
  if res == 2 || res == 3 then d4.count fPhiChanged else if res == 4 then d4.count fPhiSuggested else d4

/-- The meter in a slot has a role-3 register (R251). -/
def Dev.role3 (d : Dev) (slot : Nat) : Bool := ((d.rec? slot).map fun r => (d.roles r.mtype).contains 3).getD false

/-- Zones with an alarm active (R256). -/
def Dev.zoneAlarms (d : Dev) : Nat := (d.bal.zones.filter fun p => p.2.lossAl || p.2.negAl).length

/-! Starts and steps of device time (R253). -/

/-- The engine stops: open intervals are abandoned, and each zone's next entry carries RESTART. -/
def Dev.balStop (d : Dev) : Dev :=
  d.setBal { d.bal with zones := NMap.mapAll d.bal.zones fun _ x => { x with open' := [], restart := true }, bus := [] }

/-- The engine starts at the present second: intervals that have ended are over. -/
def Dev.balStart (d : Dev) : Dev := d.setBal { d.bal with begun := d.nowS }

/-- Device time has stepped from `a` to `b`: every interval with the step in it is TOPO (R246, R253), up to the 64 latest. -/
def Dev.balStep (d : Dev) (a b : Nat) : Dev :=
  let i := max 1 d.balIvlS
  let hi := max a b / 2 ^ 36 / i * i + i
  let ends := ((List.range 64).map fun k => hi - k * i).filter fun e =>
    decide (min a b < e * 2 ^ 36) && decide (e * 2 ^ 36 < max a b + i * 2 ^ 36)
  ((List.range 4096).filter d.zoneV).foldl (fun x z =>
    let y := if x.zDone z + 64 * i < hi then x.setZone z { x.zone z with done := hi - 64 * i } else x
    (ends.filter fun e => decide (y.zDone z < e)).foldl (fun u e =>
      let v := u.zIvl z e
      u.setIvl z e { v with topo := true }) y) d

/-- A zone after an INTERVAL entry, as a start takes it from the entry (R248, R253). -/
def Zone.ofEntry (e : Entry) : Zone :=
  let b (i : Nat) : Word := e.body.getD i 0
  let lossA := e.flags % 2 == 1
  let negA := e.flags / 2 % 2 == 1
  let head := pk [(e.reason, 35, 33), (b2n lossA, 32, 32), (b2n negA, 31, 31), (e.flags / 64 % 2, 30, 30), (fld (b 11) 35 21, 29, 15),
    (fld (b 11) 20 6, 14, 0)]
  let words := [head, b 1] ++ ((List.range 9).map fun i => b (2 + i)) ++ [b 12, b 13, b 14] ++ dw e.csn
  { Zone.empty with
    done := (b 1).toNat, loss := fld (b 11) 35 21, neg := fld (b 11) 20 6, lossAl := lossA, negAl := negA
    cum := ofTwos 36 (b 12).toNat, lossS := (b 13).toNat, negS := (b 14).toNat, words := words }

/-- Every zone as its last INTERVAL entry in the archive leaves it (R253). -/
def Dev.balRestore (d : Dev) : Dev :=
  d.led.blocks.foldl (fun x p => p.2.entries.foldl (fun y e =>
    if e.typ == 9 && fld (e.body.getD 0 0) 35 34 == 0 then y.setZone (fld (e.body.getD 0 0) 33 22) (Zone.ofEntry e) else y) x) d

end Sys2Proof.Machine
end

