-- ==== Sys2Proof/Machine/Keys.lean ====
section
/-!
DEFINITION. Keys inside the device: how stored keys are wrapped, delivered keys unwrapped, and what the identity key signs
(spec 19, R478–R486).
-/

namespace Sys2Proof.Machine

/-- K_WRAP: HKDF-SHA-384 of CK, info "AX-WRAP", 64 octets. -/
def Dev.wrapKey (d : Dev) : List Octet :=
  hkdf384 [] (octetsBE (d.idn.ck.getD 0) 32) [0x41, 0x58, 0x2D, 0x57, 0x52, 0x41, 0x50] 64

/-- The tweak of a stored key (R485): PURPOSE, key index, number, zeros. -/
def keyTweak (purpose idx number : Nat) : List Octet :=
  octetsBE purpose 1 ++ octetsBE idx 1 ++ octetsBE number 4 ++ List.replicate 10 0

/-- PURPOSE of a stored key (R485). -/
def keyCurrent : Nat := 1
def keyNextP : Nat := 2
def keyGroup : Nat := 3

/-- A frame or group key wrapped under K_WRAP (R485). -/
def Dev.wrap (d : Dev) (purpose idx number : Nat) (key : List Octet) : BitVec 128 :=
  BitVec.ofNat 128 (ofBE (xtsWrap d.wrapKey (keyTweak purpose idx number) key))

/-- A stored frame or group key in clear (R485). -/
def Dev.unwrap (d : Dev) (purpose idx number : Nat) (key : BitVec 128) : List Octet :=
  xtsUnwrap d.wrapKey (keyTweak purpose idx number) (octetsBE key.toNat 16)

/-- The seven words of a delivered key, unwrapped under TK (R484): the clear key and whether its tag passes. -/
def Dev.delivered (d : Dev) (cmd slot idx : Nat) (eui : Eui) (pairId : Nat) (ws : List Word) : List Octet × Bool :=
  gcmOpen (octetsBE (d.idn.tk.getD 0) 16) (octetsBE cmd 5 ++ octetsBE slot 3 ++ octetsBE idx 1 ++ List.replicate 3 0)
    (octetsBE eui.toNat 8 ++ octetsBE pairId 5) (octetsBE (ofWords32 (ws.take 4)) 16) (octetsBE (ofWords32 ((ws.drop 4).take 3)) 12)

/-- The private half of the identity key (R479). -/
def Dev.identityKey (d : Dev) : Nat := Config.identityKey d.idn.fr

/-- The signature the identity key makes over octets (R188, R479). -/
def Dev.signOctets (d : Dev) (os : List Octet) : Nat × Nat :=
  p384.sign d.identityKey (Config.nonce (sha384 os) d.draws) (sha384 os)

end Sys2Proof.Machine
end

