-- ==== Sys2Proof/Machine/UpSend.lean ====
section
/-!
DEFINITION. Sending CXP messages: on every port whose session to the peer is UP (spec 12, R334–R338), and keeping
answers by REQ_ID (R354).
-/

namespace Sys2Proof.Machine

def Session.off : Session := ⟨.idle, 0, 0, 0, 0, 0⟩

/-- Session `i`: 0 and 1 to the head end on ports A and B, 2 and 3 to the peer. -/
def Dev.session (d : Dev) (i : Nat) : Session := NMap.look d.up.sess i Session.off

def Dev.setSession (d : Dev) (i : Nat) (x : Session) : Dev :=
  { d with up := { d.up with sess := NMap.put d.up.sess i x } }

def Dev.sessUp (d : Dev) (i : Nat) : Bool := (d.session i).st == .up

/-- Words in each segment of a port: the largest even number that fits its MTU beside IP, UDP, the DTLS overhead of 22
octets and the segment header of 18 octets (R337). -/
def Dev.segWords (d : Dev) (port : Nat) : Nat :=
  (d.portMtu port - ((if d.portIpv4 port then 20 else 40) + 8 + 22 + 18)) / 9 * 2

/-- Message types listed (R340). -/
def cxpTypes : List Nat :=
  [0x01, 0x02, 0x03, 0x04, 0x05, 0x10, 0x11, 0x12, 0x13, 0x20, 0x21, 0x22, 0x23, 0x30, 0x31, 0x40, 0x41, 0x42, 0x4F]

/-- The class of a message by its type (R340); a checkpoint part on the pair link has none given (R460), and takes C2 (DESIGN CHOICE,
notes/assumptions/61.md). -/
def cxpClass (typ : Nat) : Nat :=
  if typ == 0x60 then 2 else if 0x40 ≤ typ then 0 else if [0x03, 0x04, 0x20, 0x21, 0x30, 0x31].contains typ then 2 else 1

/-- The class a sender gives: a block sealed by a C0 commit travels as C0 (R340); SEAL stands in its word H10 (R187). -/
def sentClass (typ : Nat) (body : List Word) : Nat :=
  if typ == 0x01 && fld (body.getD 11 0) 35 32 == 2 then 0 else cxpClass typ

/-- The octets of the segments of a message (R335–R337): the header, then its words, a zero word after an odd remainder. -/
def cxpSegments (gen typ seq ref segW : Nat) (body : List Word) : List (List Octet) :=
  let n := cdiv body.length segW
  let sw := if n ≤ 1 then body.length + body.length % 2 else segW
  (List.range n).map fun i =>
    let ws := (body.drop (i * segW)).take segW
    pairOctets ([pk [(1, 35, 32), (typ, 31, 24), (sentClass typ body, 23, 21), (b2n (i + 1 == n), 20, 20), (gen % 16, 19, 16), (i, 15, 0)],
      W seq, pk [(body.length, 35, 12), (sw, 11, 0)], W ref] ++ ws)

/-- Words in each segment of the pair link, whose length nothing limits but SEG_WORDS (R336, R460; DESIGN CHOICE, notes/assumptions/61.md). -/
def pairSegWords : Nat := 4094

/-- A message as it goes out on a port, or on the pair link as port 2: with its segments there, and on the pair link their blocks as the line
carries them (R335–R338, R460). -/
def Dev.cxpOut (d : Dev) (peer port typ seq ref : Nat) (body : List Word) : Out :=
  let segs := cxpSegments d.up.gen typ seq ref (if port == 2 then pairSegWords else max 2 (d.segWords port)) body
  .cxp peer port typ seq ref body segs (if port == 2 then (scramble d.pair.scrT (segs.flatMap pairBlocks)).1 else [])

/-- A message leaves by the pair link (R460). -/
def Dev.sendLink (d : Dev) (typ seq : Nat) (body : List Word) : Dev :=
  let bs := (cxpSegments d.up.gen typ seq 0 pairSegWords body).flatMap pairBlocks
  { d.emit (d.cxpOut 1 2 typ seq 0 body) with pair := { d.pair with scrT := (scramble d.pair.scrT bs).2 } }

/-- Segments sent on a port (R361). -/
def fTxSeg (port : Nat) : Fld := ⟨0x0470 + 3 + port, 35, 0⟩
def fRxSeg (port : Nat) : Fld := ⟨0x0470 + 1 + port, 35, 0⟩
def fDupPath : Fld := ⟨0x0475, 35, 18⟩
def fStaleSeq : Fld := ⟨0x0475, 17, 0⟩
def fRxDrop : Fld := ⟨0x0476, 35, 18⟩
def fBadSeg : Fld := ⟨0x0476, 17, 0⟩
def fReasmTo : Fld := ⟨0x0477, 35, 18⟩
def fDtlsFail : Fld := ⟨0x0477, 17, 0⟩
def fBlkResent : Fld := ⟨0x0478, 35, 18⟩
def fAckBad : Fld := ⟨0x0478, 17, 0⟩
def fBusySent : Fld := ⟨0x0479, 35, 18⟩
def fHoldupDrop : Fld := ⟨0x0479, 17, 0⟩
def fLeaseLost : Fld := ⟨0x047A, 35, 18⟩
def fBlkGone : Fld := ⟨0x047A, 17, 0⟩

/-- The copy of a message that goes out on one port, where its session is UP. -/
def Dev.sendOn (d : Dev) (peer port typ seq ref : Nat) (body : List Word) : Dev :=
  let i := 2 * peer + port
  if d.sessUp i then
    let n := cdiv body.length (max 2 (d.segWords port))
    let x := d.session i
    ((d.setSession i { x with recs := x.recs + n }).countN (fTxSeg port) n).emit (d.cxpOut peer port typ seq ref body)
  else d

/-- The MSG_SEQ of the next message to a peer: 1 first, and 1 again after 2³⁶ − 1 (R336). -/
def Dev.nextSeq (d : Dev) (peer : Nat) : Nat := NMap.look d.up.txSeq peer 1

/-- A message to a peer (0 head end, 1 pair peer), on every port whose session is UP; with none UP nothing is sent
(R338). -/
def Dev.send (d : Dev) (peer typ ref : Nat) (body : List Word) : Dev :=
  if d.sessUp (2 * peer) || d.sessUp (2 * peer + 1) then
    let q := d.nextSeq peer
    let d1 := { d with up := { d.up with txSeq := NMap.put d.up.txSeq peer (if q = 2 ^ 36 - 1 then 1 else q + 1) } }
    (d1.sendOn peer 0 typ q ref body).sendOn peer 1 typ q ref body
  else d

/-- An answer to the head end that is kept by REQ_ID, the last 64 of them (R354). -/
def Dev.answerKept (d : Dev) (typ req ref : Nat) (body : List Word) : Dev :=
  ({ d with up := { d.up with kept := ((req, typ, body) :: d.up.kept.filter fun k => k.1 != req).take 64 } }).send 0 typ ref body

/-- The kept answer to a REQ_ID. -/
def Dev.keptAnswer (d : Dev) (req : Nat) : Option (Nat × List Word) :=
  (d.up.kept.find? fun k => k.1 == req).map fun k => k.2

/-- CONTROL_RESP (R349), kept (R354). -/
def Dev.controlResp (d : Dev) (c : Control) (res csn : Nat) : Dev :=
  d.answerKept 0x13 c.req c.ref [W c.req, pk [(res, 35, 28)], hiW csn, loW csn]

/-- A CONTROL, WARM_RESTART among them (R349, R354, R359): after mains loss it is discarded, a repeat is answered as before,
an OP that names nothing is refused, and any other is executed. -/
def Dev.controlAny (d : Dev) (c : Control) (f : Dev → Dev) : Dev :=
  if d.pw.hu.isSome then d.count fHoldupDrop
  else match d.keptAnswer c.req with
    | some a => d.send 0 a.1 c.ref a.2
    | none => if c.badOp then d.controlResp c rcBadArg 0 else f d

/-- A CONTROL other than WARM_RESTART: in recovery it is answered BUSY (R443). -/
def Dev.control (d : Dev) (c : Control) (f : Dev → Dev) : Dev :=
  d.controlAny c fun x => if x.boot.recovery != 0 then x.controlResp c rcBusy 0 else f x

/-- OBJ_WRITE_RESP (R353), kept (R354). -/
def Dev.writeResp (d : Dev) (w : ObjWrite) (res applied csn : Nat) : Dev :=
  d.answerKept 0x23 w.req w.ref [W w.req, pk [(res, 35, 28), (applied, 27, 15)], hiW csn, loW csn]

/-- Of blocks in BNO order, the last that follows the one before it without a gap. -/
def lastUnbroken (b : Block) : List Block → Block
  | [] => b
  | c :: r => if c.bno == b.bno + 1 then lastUnbroken c r else b

/-- The highest block a standby holds in unbroken order (R461): counted from the BNO_OPEN of its newest shipped checkpoint, or
with none from its oldest block. -/
def Dev.heldBlock (d : Dev) : Option Block :=
  let from' := ((d.sto.ckpts.find? Ckpt.peer).map fun c => c.img.bno).getD 0
  match (d.led.blocks.filter fun p => decide (from' ≤ p.1)).map fun p => p.2 with
  | [] => none
  | b :: r => some (lastUnbroken b r)

/-- The device follows the ledger of another (R458, R468): STANDBY or TAKING_OVER. -/
def Dev.follows (d : Dev) : Bool := d.pair.st == 1 || d.pair.st == 2

/-- The last CSN committed; of a standby, the LAST_CSN of the highest block it holds, or the CSN_AT of its newest shipped
checkpoint (R461; DEDUCED, notes/assumptions/37.md). -/
def Dev.lastCsn (d : Dev) : Nat :=
  if d.follows then
    match d.heldBlock with
    | some b => b.last
    | none => ((d.sto.ckpts.find? Ckpt.peer).map fun c => c.img.csnAt).getD 0
  else d.led.csn - 1

/-- The highest BNO sealed; of a standby, that of the highest block it holds. -/
def Dev.bnoSealed (d : Dev) : Nat :=
  if d.follows then (d.heldBlock.map Block.bno).getD 0 else d.led.bno - 1

end Sys2Proof.Machine
end

