-- ==== Sys2Proof/Machine/Txns.lean ====
section
/-!
DEFINITION. Downlink jobs, the command table, transactions and their result entries (spec 04, R113, R118; 06, R192; 07,
R202–R219).
-/

namespace Sys2Proof.Machine

/-- A unicast, secured RF or powerline job with nothing tried yet. -/
def Job.base (who : JobFor) (slot : Option Nat) (cls start deadline : Nat) (payload : List Octet) : Job :=
  { who := who, slot := slot, cls := cls, start := start, deadline := deadline, payload := payload, via := none,
    ar := true, secured := true, pl := false, tries := 0, held := false, defd := false, res := 15, noSlot := false, last := none,
    frame := none, seq := 0, lane := none, horned := false, refused := false, dst := 0, again := false, naks := 0 }

/-- A job joins the downlink jobs queue of its class; its time tag is its earliest start (R50, R113). -/
def Dev.queueJob (d : Dev) (j : Job) : Dev :=
  d.enqueue 3 j.cls (Item.packet (.job j) j.cls j.start (min 2047 j.payload.length) j.slot)

/-- The jobs that wait in the downlink jobs queue. -/
def Dev.jobQ (d : Dev) : List Job := (d.items 3).filterMap fun x => match x with | .job j => some j | _ => none

/-- Some job for the slot waits or stands in a job table. -/
def Dev.hasJob (d : Dev) (slot : Nat) : Bool :=
  d.jobQ.any (fun j => j.slot == some slot) || d.air.jobs.any (fun p => p.2.slot == some slot)
    || d.pl.jobs.any (fun p => p.2.slot == some slot)

/-- MAIL is cleared when the last job of the slot leaves (R192). -/
def Dev.mailCheck (d : Dev) (slot : Option Nat) : Dev :=
  match slot with
  | some n => if d.hasJob n then d else d.updRec n fun r => { r with mail := false }
  | none => d

/-- A job leaves its table. -/
def Dev.dropJob (d : Dev) (pl : Bool) (id : Nat) : Dev :=
  if pl then
    let s := (NMap.find d.pl.jobs id).bind Job.slot
    ({ d with pl := { d.pl with jobs := NMap.del d.pl.jobs id } }).mailCheck s
  else
    let s := (NMap.find d.air.jobs id).bind Job.slot
    ({ d with air := { d.air with jobs := NMap.del d.air.jobs id } }).mailCheck s

/-- A lane sends the job or awaits its acknowledgement: it has started (R209). Between two attempts it counts as not started (DESIGN
CHOICE, notes/assumptions/24.md). -/
def Dev.jobOnAir (d : Dev) (pl : Bool) (j : Job) : Bool :=
  match j.lane with
  | none => false
  | some n =>
    if pl then (d.plLane n).st == .tx || (d.plLane n).st == .await else (d.lane n).st == .tx || (d.lane n).st == .await

/-- A lane that contends for the channel with a job lets go of it. -/
def Dev.letGo (d : Dev) (n : Nat) : Dev := (d.dropTx n).freeLane n

/-- A powerline lane lets go of the job it waits to send. -/
def Dev.plLetGo (d : Dev) (n : Nat) : Dev :=
  let l := d.plLane n
  d.setPlLane n { l with job := none, be := 0, busy := 0, st := if l.st == .access then .idle else l.st }

/-- Jobs that have not started and pass `p` leave the queue, the job tables and the lanes that contend with them (R209, R210). -/
def Dev.withdraw (d : Dev) (p : Job → Bool) (slot : Option Nat) : Dev :=
  let gone (pl : Bool) (j : Job) : Bool := p j && !d.jobOnAir pl j
  let holds (pl : Bool) (jobs : NMap Job) (id : Option Nat) : Bool := ((id.bind (NMap.find jobs)).map (gone pl)).getD false
  let d1 := d.dropItems 3 fun x => match x with | .job j => p j | _ => false
  let d2 := (d.air.lanes.filter fun e => holds false d.air.jobs e.2.job).foldl (fun (x : Dev) e => x.letGo e.1) d1
  let d3 := (d.pl.lanes.filter fun e => holds true d.pl.jobs e.2.job).foldl (fun (x : Dev) e => x.plLetGo e.1) d2
  ({ d3 with
    air := { d3.air with jobs := NMap.keep d3.air.jobs fun _ j => !gone false j }
    pl := { d3.pl with jobs := NMap.keep d3.pl.jobs fun _ j => !gone true j } }).mailCheck slot

/-! The command counters (R236). -/

def fStrayResp : Fld := ⟨0x0449, 35, 18⟩
def fDupResp : Fld := ⟨0x0449, 17, 0⟩
def fMalformedResp : Fld := ⟨0x044A, 35, 18⟩
def fStrayRpt : Fld := ⟨0x044A, 17, 0⟩
def fLateRun : Fld := ⟨0x044B, 35, 18⟩
def fLateSkip : Fld := ⟨0x044B, 17, 0⟩

/-- A command of the table, and a transaction of it, by number. -/
def Dev.cmd? (d : Dev) (id : Nat) : Option Cmd := NMap.find d.cmd.tab id

def Dev.setCmd (d : Dev) (c : Cmd) : Dev := { d with cmd := { d.cmd with tab := NMap.put d.cmd.tab c.id c } }

def txnKey (cmd slot : Nat) : Nat := cmd * 2 ^ 21 + slot

def Dev.txn? (d : Dev) (cmd slot : Nat) : Option Txn := NMap.find d.cmd.txns (txnKey cmd slot)

def Dev.setTxn (d : Dev) (t : Txn) : Dev :=
  { d with cmd := { d.cmd with txns := NMap.put d.cmd.txns (txnKey t.cmd t.slot) t } }

def Txn.isOpen (t : Txn) : Bool := t.st != .ended

/-- Commands in the table (R203, R236). -/
def Dev.cmdCount (d : Dev) : Nat := (d.cmd.tab.filter fun p => !p.2.freed).length

/-- A command that stands in the table (R203). -/
def Dev.listed (d : Dev) (id : Nat) : Option Cmd := (d.cmd? id).filter fun c => !c.freed

/-- Open transactions (R236). -/
def Dev.openTxns (d : Dev) : Nat := (d.cmd.txns.filter fun p => p.2.isOpen).length

/-- A summary CMD_RESULT entry (R211); answers its CSN. -/
def Dev.summary (d : Dev) (id kind reason : Nat) (late : Bool) (targets ok notOk : Nat) (camp : Option Nat) : Nat × Dev :=
  d.append { mkEntry 0x08 1 d.now none 0
      [W id, pk [(kind, 35, 30)], pk [(targets, 35, 14)], pk [(ok, 35, 14)], pk [(notOk, 35, 14)],
        pk [(camp.getD 0, 35, 30), (b2n camp.isSome, 29, 29)]] with
    reason := reason, flags := b2n late + 2 }

/-- A per-meter CMD_RESULT entry (R211); the record already stands as the entry leaves it. -/
def Dev.meterResult (d : Dev) (id kind slot code job jobs mres detail ref exec : Nat) (late : Bool) : Dev :=
  d.commit { mkEntry 0x08 1 d.now (some slot) (d.nonet slot)
      [W id, pk [(kind, 35, 30), (job, 29, 26), (sat 8 jobs, 25, 18)], pk [(mres, 35, 28), (detail, 27, 0)],
        hiW ref, loW ref, W exec] with
    reason := code, flags := b2n late }

/-- COMMAND_ACK (R348): STATE 1 open, 2 ended, 3 refused. -/
def Dev.cmdAck (d : Dev) (ref id st reason csn : Nat) : Dev :=
  d.send 0 0x11 ref [W id, pk [(st, 35, 34), (reason, 33, 26)], hiW csn, loW csn]

/-- A command commits its final summary (R209); the table keeps it until that block is acknowledged (R203). -/
def Dev.finalSummary (d : Dev) (c : Cmd) (camp : Option Nat) : Dev :=
  let reason := if c.ok == 0 then rcFailed else if c.notOk == 0 then rcComplete else rcPartial
  let r := d.summary c.id c.kind reason c.late c.targets c.ok c.notOk camp
  r.2.setCmd { c with ended := true, reason := reason, csn := r.1, finalBno := d.led.bno }

/-- A command of a kind that ends with its transactions ends once the last of them has (R209). -/
def Dev.cmdFinish (d : Dev) (id : Nat) : Dev :=
  match d.cmd? id with
  | none => d
  | some c =>
    if !c.ended && c.waiting.isEmpty && (c.kind != 4 || c.cancelled) && c.kind != 6
        && !(d.cmd.txns.any fun p => p.2.cmd == id && p.2.isOpen && !p.2.over') then d.finalSummary c none
    else d

/-- A command's count of meters ended OK or otherwise. -/
def Dev.tally (d : Dev) (id : Nat) (ok : Bool) : Dev :=
  match d.cmd? id with
  | some c => d.setCmd { c with ok := c.ok + b2n ok, notOk := c.notOk + b2n (!ok) }
  | none => d

/-- What is left of a command whose place is free goes with its last open transaction (R203). -/
def Dev.forget (d : Dev) (id : Nat) : Dev :=
  if ((d.cmd? id).map Cmd.freed).getD false && !(d.cmd.txns.any fun p => p.2.cmd == id && p.2.isOpen) then
    { d with cmd := { d.cmd with
        tab := NMap.del d.cmd.tab id
        txns := NMap.keep d.cmd.txns fun _ t => t.cmd != id
        camps := NMap.keep d.cmd.camps fun _ c => c.cmd != id } }
  else d

/-- A transaction is over: its place and OPEN_TX are given back and its unstarted jobs leave. -/
def Dev.closeTxn (d : Dev) (t : Txn) : Dev :=
  (((d.updRec t.slot fun r => { r with openTx := r.openTx - 1 }).setTxn { t with st := .ended }).withdraw
    (fun j => j.who == .txn t.cmd t.slot) (some t.slot)).forget t.cmd

/-- A transaction ends with a per-meter result (R208, R209). -/
def Dev.endTxn (d : Dev) (t : Txn) (code mres detail ref exec : Nat) : Dev :=
  let kind := ((d.cmd? t.cmd).map Cmd.kind).getD 0
  (((((d.closeTxn t).setTxn { t with st := .ended, over' := true }).meterResult t.cmd kind t.slot code t.last t.jobs mres detail
    ref exec t.late).tally t.cmd (code == rcOk))).cmdFinish t.cmd

/-- A member of a tariff push ends with a code and its record as `f` leaves it; OK tells when the meter staged the table (R211, R221). -/
def Dev.tariffEnd (d : Dev) (x : Txn) (code : Nat) (f : MeterRec → MeterRec) : Dev :=
  let tt := fld ((((d.cmd? x.cmd).map Cmd.args).getD []).getD 0 0) 35 28
  let d1 := if x.isOpen then d.closeTxn x else d
  (((d1.updRec x.slot f).setTxn { x with st := .ended, over' := true }).meterResult x.cmd 4 x.slot code x.last x.jobs 0
    (tt * 2 ^ 20) 0 (if code == rcOk then x.exec else 0) x.late).tally x.cmd (code == rcOk)

/-- TARIFF_CANCEL is sent to a member, as far as ACT_S (R221). -/
def Dev.tariffCancel (d : Dev) (x : Txn) (deadline : Nat) : Dev :=
  (d.updRec x.slot fun r => { r with openTx := min 7 (r.openTx + 1) }).setTxn
    { x with st := .opened, mcmd := 5, over' := true, staged := false, jobs := 0, last := 15, deadline := deadline, olds := x.mcmd :: x.olds }

/-- A staged member of a push that is cancelled is sent TARIFF_CANCEL and ends CANCELLED (R221). -/
def Dev.tariffUndo (d : Dev) (x : Txn) (deadline : Nat) : Dev :=
  (d.tariffEnd x rcCancelled fun r => { r with stagedV := false }).tariffCancel x deadline

/-- The result of a transaction that has reached its deadline (R208); one whose KEY_SWITCH has been answered ends NO_RESPONSE
(R218). -/
def Txn.deadlineCode (t : Txn) : Nat := if t.last == 0 || t.st == .keyWait then rcNoResponse else rcJobFail

/-- DETAIL of a KEY_ROTATE result (R211). -/
def keyDetail (idx : Nat) (reset : Bool) : Nat := idx * 2 ^ 20 + b2n reset * 2 ^ 19

/-- DETAIL of a result that rests on no response (R211): the push's TT_ID, or the rotation's key index and CTR_RESET. -/
def Dev.plainDetail (d : Dev) (id kind slot : Nat) : Nat :=
  match kind with
  | 4 => fld ((((d.cmd? id).map Cmd.args).getD []).getD 0 0) 35 28 * 2 ^ 20
  | 5 => keyDetail (((d.rec? slot).map MeterRec.keyNext).getD 0) (((d.txn? id slot).map Txn.reset).getD false)
  | _ => 0

/-- The COMMAND payload of a transaction (R213); AT_S is 0 for an action that runs late (R219). -/
def commandPayload (id mcmd atS : Nat) (args : List Octet) : List Octet :=
  [0x40] ++ octetsBE (id % 2 ^ 36) 5 ++ octetsBE mcmd 1 ++ octetsBE atS 5 ++ args

/-- ARGS of a command that is no campaign's (R213). -/
def Dev.cmdArgs (d : Dev) (c : Cmd) (t : Txn) : List Octet :=
  let a (i : Nat) : Word := c.args.getD i 0
  match c.kind with
  | 1 => octetsBE (a 0).toNat 5 ++ octetsBE (a 1).toNat 5
  | 4 =>
    if t.mcmd == 5 then octetsBE (fld (a 0) 35 28) 1
    else octetsBE (fld (a 0) 35 28) 1 ++ octetsBE (a 2).toNat 5 ++ octetsBE (fld (a 0) 27 17) 2
      ++ (unpackOctets (c.args.drop 3)).take (fld (a 0) 27 17)
  | 5 =>
    let idx := ((d.rec? t.slot).map MeterRec.keyNext).getD 0
    octetsBE idx 1 ++ octetsBE (b2n t.reset) 1 ++ d.unwrap keyNextP idx t.slot (d.keyBlock t.slot).next
  | _ => []

def Member.none : Member := ⟨0, false, [], false, [], false, 0, false⟩

def Target.none : Target := ⟨false, 0, 0, 0, 0, 0, 0, 0, [], [], 0, 0⟩

/-- The key index under which a campaign's one group key is wrapped: that of its first target (DESIGN CHOICE,
notes/assumptions/6.md: its targets may name several). -/
def Camp.wrapIdx (c : Camp) : Nat := (c.targets.headD Target.none).keyIdx

/-- A campaign's group key in clear (R223, R485). -/
def Dev.groupKey (d : Dev) (id : Nat) (c : Camp) : List Octet := d.unwrap keyGroup c.wrapIdx id c.gkey

/-- A group key drawn from the random source, 16 octets, and wrapped (R223, R485); with the draws taken. -/
def Dev.drawGroupKey (d : Dev) (id idx : Nat) : BitVec 128 × Dev :=
  let os := (List.range 16).map fun i => BitVec.ofNat 8 (Config.random (d.draws + i))
  (d.wrap keyGroup idx id os, { d with draws := d.draws + 16 })

/-- ARGS of FW_ARM, FW_ACTIVATE, FW_QUERY and FW_CANCEL (R213), `key` being the group key in clear. -/
def Camp.args (c : Camp) (campId : Nat) (t : Txn) (key : List Octet) (actS khz : Nat) : List Octet :=
  let m := NMap.look c.members t.slot Member.none
  let g := c.targets.getD m.tgt Target.none
  match t.mcmd with
  | 7 => octetsBE campId 1 ++ octetsBE c.fromVer 4 ++ octetsBE c.toVer 4 ++ octetsBE c.nb 2 ++ octetsBE (c.quads * 4) 2
      ++ octetsBE c.octets 4 ++ octetsBE (ofWords32 c.hash) 32
      ++ octetsBE khz 4 ++ octetsBE g.mode 1 ++ octetsBE g.group 2 ++ octetsBE g.keyIdx 1 ++ key
      ++ octetsBE g.gwake 3 ++ octetsBE actS 5
  | 8 => octetsBE campId 1 ++ octetsBE actS 5
  | _ => octetsBE campId 1

/-- A transaction whose action time has passed still runs (R219): nothing where it is not late, or what it may do. -/
def Dev.lateness (d : Dev) (atS : Nat) (p : Policy) : Option Bool :=
  if atS == 0 || decide (d.now < atS * 2 ^ 36) then none else some (p.runs (d.nowS - atS))

/-- A transaction queues its downlink job (R207). -/
def Dev.queueTxnJob (d : Dev) (t : Txn) (late : Bool) (args : List Octet) (cls : Nat) : Dev :=
  let pl := ((d.rec? t.slot).map MeterRec.pl).getD false
  ((d.setTxn { t with st := .job, jobs := t.jobs + 1, late := t.late || late }).queueJob
    { Job.base (.txn t.cmd t.slot) (some t.slot) cls d.clk t.deadline
        (commandPayload t.cmd t.mcmd (if late || t.late then 0 else t.atS) args) with pl := pl })

/-- A transaction of a command that is no campaign's starts or tries again: late actions follow METER_AT (R219); after a
CANCEL it is not tried again (R209). -/
def Dev.tryTxn (d : Dev) (c : Cmd) (t : Txn) : Dev :=
  if c.cancelled then d.endTxn t rcCancelled 0 (d.plainDetail t.cmd c.kind t.slot) 0 0
  else match d.lateness t.atS d.polMeterAt with
  | some false =>
    ((d.count fLateSkip).raise 0x040 [t.cmd, 0] (some t.slot)).endTxn t rcSkipped 0 (d.plainDetail t.cmd c.kind t.slot) 0 0
  | some true => ((if t.late then d else d.count fLateRun).queueTxnJob t true (d.cmdArgs c t) 1)
  | none => d.queueTxnJob t false (d.cmdArgs c t) 1

/-- A transaction opens, or the meter is told apart at once: BUSY_SLOT for an eighth (R206), BUSY_SLOT for a tariff
member staged by another push (R222). -/
def Dev.openTxn (d : Dev) (c : Cmd) (slot mcmd deadline : Nat) : Dev :=
  let t : Txn :=
    { cmd := c.id, slot := slot, st := .opened, last := 15, jobs := 0, wait := 0, late := false, mcmd := mcmd,
      reset := c.kind == 5 && (((d.rec? slot).map fun r => r.ctrEndEv || r.txCtr == 0xFFFFFFFF).getD false), atS := c.atS,
      deadline := deadline, over' := false, staged := false, exec := 0, olds := [] }
  match d.rec? slot with
  | none => (d.meterResult c.id c.kind slot rcUnassigned 15 0 0 (d.plainDetail c.id c.kind slot) 0 0 false).tally c.id false
  | some r =>
    if 7 ≤ r.openTx || (c.kind == 4 && r.stagedV) then
      (d.meterResult c.id c.kind slot rcBusySlot 15 0 0 (d.plainDetail c.id c.kind slot) 0 0 false).tally c.id false
    else (d.setRec slot { r with openTx := r.openTx + 1 }).setTxn t

/-- The next key becomes current; with CTR_RESET the counters start again and the old key is gone (R218). -/
def Dev.swapKeys (d : Dev) (slot : Nat) (reset clearBit : Bool) : Dev :=
  match d.rec? slot with
  | none => d
  | some r =>
    let k := d.keyBlock slot
    let r1 := { r with
      key := d.wrap keyCurrent r.keyNext slot (d.unwrap keyNextP r.keyNext slot k.next)
      keyCur := r.keyNext
      keyNextV := false
      rxCtr := if reset then 0 else r.rxCtr
      txCtr := if reset then 0 else r.txCtr
      ctrEndEv := if reset then false else r.ctrEndEv }
    d.setRec slot (if clearBit then r1.setBit sbKeyRot false else r1)

end Sys2Proof.Machine
end

