-- ==== Sys2Proof/Machine/Camps.lean ====
section
/-!
DEFINITION. Firmware campaigns: member states, reports, rounds and what follows from them (spec 07, R223–R231).
-/

namespace Sys2Proof.Machine

def Dev.camp? (d : Dev) (id : Nat) : Option Camp := NMap.find d.cmd.camps id

def Dev.setCamp (d : Dev) (id : Nat) (c : Camp) : Dev :=
  { d with cmd := { d.cmd with camps := NMap.put d.cmd.camps id c } }

def Dev.updCamp (d : Dev) (id : Nat) (f : Camp → Camp) : Dev :=
  match d.camp? id with
  | some c => d.setCamp id (f c)
  | none => d

/-! Campaign status block counters (R232), read in region 0x07 at 8c. -/

def fCampFrames (c : Nat) : Fld := ⟨0x10000 + 8 * c + 6, 35, 18⟩
def fCampReports (c : Nat) : Fld := ⟨0x10000 + 8 * c + 6, 17, 0⟩
def fCampMalformed (c : Nat) : Fld := ⟨0x10000 + 8 * c + 7, 35, 18⟩
def fCampUnexpected (c : Nat) : Fld := ⟨0x10000 + 8 * c + 7, 17, 0⟩

/-- The campaign whose DUTY_PCT limits a job, and whose frames its own are (R226, R232). -/
def JobFor.camp? : JobFor → Option Nat
  | .fwBlock c _ => some c
  | .fwEnd c _ => some c
  | .camp c _ => some c
  | _ => none

/-- A transmission of a campaign's frame is counted (R232). -/
def Dev.countCampFrame (d : Dev) (j : Job) : Dev :=
  match j.who.camp? with
  | some c => d.count (fCampFrames c)
  | none => d

/-- The campaign state of a slot's record. -/
def Dev.campState (d : Dev) (slot : Nat) : Nat := ((d.rec? slot).map MeterRec.campState).getD 0

/-- Terminal campaign states (R228). -/
def campTerminal (st : Nat) : Bool := decide (9 ≤ st)

/-- A member's CAMP_STATE in the campaign `id`; a member that has gone on to another campaign is over in this one. -/
def Dev.stateIn (d : Dev) (id slot : Nat) : Nat :=
  match d.rec? slot with
  | some r => if r.campId == id then r.campState else 13
  | none => 13

/-- The campaign's CMD_ID, and so the TXID its transactions carry. -/
def Dev.campTxn (d : Dev) (c : Camp) (slot : Nat) : Option Txn := d.txn? c.cmd slot

/-- A campaign ends when every member is terminal, and then commits its summary (R228). -/
def Dev.campEnd (d : Dev) (id : Nat) : Dev :=
  match d.camp? id with
  | none => d
  | some c =>
    if c.st != 6 && c.toArm.isEmpty && c.members.all (fun p => campTerminal (d.stateIn id p.1)) then
      match d.cmd? c.cmd with
      | some k => ((d.setCamp id { c with st := 6 }).finalSummary { k with targets := k.ok + k.notOk } (some id))
      | none => d.setCamp id { c with st := 6 }
    else d

/-- A member's CAMP_STATE changes and the change is committed (R228): PROGRESS for a state that ends nothing, the
result code for a terminal one, which clears the campaign pending bit. -/
def Dev.memberTo (d : Dev) (id slot st code mres exec : Nat) (late : Bool := false) : Dev :=
  match d.camp? id with
  | none => d
  | some c =>
    let m := NMap.look c.members slot Member.none
    let t := d.campTxn c slot
    let d1 := d.updRec slot fun r =>
      { (r.setBit sbCampaign (!campTerminal st)) with campId := id, campState := st }
    let d2 := d1.meterResult c.cmd 6 slot code ((t.map Txn.last).getD 15) ((t.map Txn.jobs).getD 0) mres
      (st * 2 ^ 24 + id * 2 ^ 18 + m.held % 2 ^ 16 * 4) 0 exec late
    if campTerminal st then (d2.tally c.cmd (st == 9)).campEnd id else d2

/-- A campaign's transaction with a member opens (R206, R228); an open one is replaced. The eighth open transaction of
a slot is not opened. -/
def Dev.openCampTxn (d : Dev) (id slot mcmd deadline : Nat) : Dev :=
  match d.camp? id, d.rec? slot with
  | some c, some r =>
    let was := ((d.campTxn c slot).map Txn.isOpen).getD false
    if !was && 7 ≤ r.openTx then d
    else
      let d1 := if was then d.withdraw (fun j => j.who == .txn c.cmd slot) (some slot)
        else d.setRec slot { r with openTx := r.openTx + 1 }
      let olds := match d.campTxn c slot with
        | some x => x.mcmd :: x.olds
        | none => []
      d1.setTxn
        { cmd := c.cmd, slot := slot, st := .opened, last := 15, jobs := 0, wait := 0, late := false, mcmd := mcmd,
          reset := false, atS := 0, deadline := deadline, over' := false, staged := false, exec := 0, olds := olds }
  | _, _ => d

/-- The instant on the running axis of a device-time second. -/
def Dev.atSecond (d : Dev) (sec : Nat) : Nat := (((sec * 2 ^ 36 : Nat) : Int) - d.tb.off).toNat

/-- When ACT_S − ACT_CUTOFF_MIN falls; the command's deadline while ACT_S is not given (R228, R229). -/
def Dev.cutoffAt (d : Dev) (c : Camp) : Nat :=
  if c.actS == 0 then c.deadline else d.atSecond (c.actS - c.cutMin * 60)

/-- FW_CANCEL to a member (R228, R229). Its transaction runs until ACT_S, and at least as long as the command's own DEADLINE_S from
now: the spec gives no deadline (DESIGN CHOICE, notes/assumptions/24.md). -/
def Dev.sendCancel (d : Dev) (id slot : Nat) : Dev :=
  match d.camp? id with
  | some c =>
    let span := match d.cmd? c.cmd with
      | some k => k.deadline - k.accepted
      | none => 0
    d.openCampTxn id slot 10 (max (d.clk + span) (d.atSecond c.actS))
  | none => d

/-- A verified member of a campaign whose ACT_S came later is sent FW_ACTIVATE (R228), as far as the confirmation timers run: a late
one may still leave after ACT_S (R219; DESIGN CHOICE, notes/assumptions/24.md: the spec gives no deadline). -/
def Dev.sendActivate (d : Dev) (id slot : Nat) : Dev :=
  match d.camp? id with
  | some c => if c.later && c.actS != 0 then d.openCampTxn id slot 8 (d.atSecond (c.actS + 2 * c.confMin * 60)) else d
  | none => d

/-- The member's meter knows ACT_S: it was armed with it, or has answered FW_ACTIVATE (R228). -/
def Camp.hasAct (c : Camp) (st : Nat) : Bool := st == 7 || (st == 6 && !c.later)

/-- A report carries: phase, blocks held, running version and missing ranges (R225). -/
structure Report where
  camp  : Nat
  round : Nat
  phase : Nat
  held  : Nat
  ver   : Nat
  miss  : List (Nat × Nat)
deriving DecidableEq, Repr

/-- Ranges of FIRST and COUNT, two octets each. -/
def parseRanges : List Octet → List (Nat × Nat)
  | a :: b :: c :: d :: r => (ofBE [a, b], ofBE [c, d]) :: parseRanges r
  | _ => []

/-- The body of a report from CAMP_ID onward; none where its length disagrees with NR or NR is above 32 (R225). -/
def parseReport (os : List Octet) : Option Report :=
  let o (i n : Nat) : Nat := ofBE ((os.drop i).take n)
  let nr := o 9 1
  if os.length == 10 + 4 * nr && decide (nr ≤ 32) && decide (10 ≤ os.length) then
    some ⟨o 0 1, o 1 1, o 2 1, o 3 2, o 5 4, parseRanges (os.drop 10)⟩
  else none

/-- The ranges of a report are sound: no COUNT of 0, none past NB − 1 (R225). -/
def Report.sound (r : Report) (nb : Nat) : Bool := r.miss.all fun p => decide (0 < p.2) && decide (p.1 + p.2 ≤ nb)

/-- Two ascending block lists as one without repeats. -/
def mergeBlocks (a b : List Nat) : List Nat :=
  b.foldl (fun acc x => if acc.contains x then acc else acc.takeWhile (· < x) ++ [x] ++ acc.dropWhile (· < x)) a

/-- A report is taken (R225, R227, R228). -/
def Dev.takeReport (d0 : Dev) (slot : Nat) (p : Report) : Dev :=
  match d0.rec? slot, d0.camp? p.camp with
  | some r, some c =>
    if r.campId != p.camp || (NMap.find c.members slot).isNone then d0.count fStrayRpt
    else if !p.sound c.nb then d0.count (fCampMalformed p.camp)
    else
      let d := d0.count (fCampReports p.camp)
      let m := NMap.look c.members slot Member.none
      let blocks := p.miss.flatMap fun q => (List.range q.2).map (q.1 + ·)
      let st := r.campState
      let miss := if p.phase == 0 then blocks else []
      let c1 := { c with
        members := NMap.put c.members slot { m with missing := miss, report := true, held := p.held }
        targets := c.targets.modify m.tgt fun g =>
          if (st == 2 || st == 3) then { g with next := mergeBlocks g.next miss } else g }
      let d1 := d.setCamp p.camp c1
      let id := p.camp
      if st == 11 && (p.phase == 4 || p.phase == 5) then
        (d1.count (fCampUnexpected id)).raise 0x041 [id, p.ver] (some slot)
      else if (st == 2 || st == 3) && p.phase == 0 && !blocks.isEmpty then
        if st == 2 then d1.memberTo id slot 3 rcProgress 0 0 else d1
      else if 2 ≤ st && st ≤ 4 && p.phase == 1 then d1.memberTo id slot 5 rcProgress 0 0
      else if 2 ≤ st && st ≤ 5 && p.phase == 2 then (d1.memberTo id slot 6 rcProgress 0 0).sendActivate id slot
      else if st == 5 && p.phase == 3 then d1.memberTo id slot 10 rcVerifyFail 0 0
      else if c.hasAct st && decide (c.actS ≤ d.nowS) && p.phase == 4 then d1.memberTo id slot 9 rcOk 0 0
      else if c.hasAct st && decide (c.actS ≤ d.nowS) && p.phase == 5 then d1.memberTo id slot 12 rcRolledBack 0 0
      else d1
  | _, _ => d0.count fStrayRpt

/-- A campaign member's COMMAND_RESPONSE ends its transaction (R208, R228). -/
def Dev.campResponse (d : Dev) (id : Nat) (t : Txn) (res exec : Nat) (p : Option Report) : Dev :=
  match d.camp? id with
  | none => d
  | some c =>
    let d1 := d.closeTxn t
    let st := d.stateIn id t.slot
    match t.mcmd with
    | 7 =>
      if st != 1 then d1
      else if res != 0 then d1.memberTo id t.slot 10 rcMeterRefused res exec
      else if (p.map Report.ver).getD 0 != c.fromVer then d1.memberTo id t.slot 11 rcWrongVersion res exec
      else d1.memberTo id t.slot 2 rcProgress res exec
    | 8 => if st == 6 && res == 0 then d1.memberTo id t.slot 7 rcProgress res exec t.late else d1
    | 9 => match p with | some q => d1.takeReport t.slot q | none => d1
    | _ => d1

/-- A campaign transaction reaches its deadline (R228): an FW_ARM fails its member, any other just ends. -/
def Dev.campDeadline (d : Dev) (id : Nat) (t : Txn) : Dev :=
  let d1 := d.closeTxn t
  if t.mcmd == 7 && d.stateIn id t.slot == 1 then d1.memberTo id t.slot 10 t.deadlineCode 0 0 else d1

/-- MC_KHZ of a target (R213): its subchannel's centre frequency; 0 on powerline. -/
def Dev.targetKhz (d : Dev) (g : Target) : Nat := if g.pl then 0 else (d.subFreq g.stream g.sub / 1000).toNat

/-- A campaign's transaction starts or tries again; a late FW_ACTIVATE follows CAMP_ACT (R219). -/
def Dev.tryCampTxn (d : Dev) (id : Nat) (c : Camp) (t : Txn) : Dev :=
  let g := c.targets.getD (NMap.look c.members t.slot Member.none).tgt Target.none
  let go (late : Bool) (act : Nat) (x : Dev) : Dev := x.queueTxnJob t late (c.args id t (d.groupKey id c) act (d.targetKhz g)) 3
  if t.mcmd == 8 then
    match d.lateness c.actS d.polCampAct with
    | some false =>
      ((((d.count fLateSkip).raise 0x040 [t.cmd, 2] (some t.slot)).closeTxn t).memberTo id t.slot 11 rcSkipped 0 0).sendCancel
        id t.slot
    | some true => go true 0 (if t.late then d else d.count fLateRun)
    | none => go false c.actS d
  else go false (if c.later then 0 else c.actS) d

/-- A transaction starts or tries again, whatever its command. -/
def Dev.tryAny (d : Dev) (t : Txn) : Dev :=
  match d.cmd? t.cmd with
  | none => d
  | some c =>
    if c.kind == 6 then
      match d.cmd.camps.find? fun p => p.2.cmd == t.cmd && p.2.st != 0 with
      | some p => d.tryCampTxn p.1 p.2 t
      | none => d
    else d.tryTxn c t

/-- The campaign a command created. -/
def Dev.campOf (d : Dev) (cmd : Nat) : Option Nat := (d.cmd.camps.find? fun p => p.2.cmd == cmd).map (·.1)

/-- Octets of block `b` of an image (R225). -/
def Camp.blockOctets (c : Camp) (b : Nat) : List Octet :=
  let n := c.quads * 4
  let want := if b + 1 == c.nb then c.octets - (c.nb - 1) * n else n
  (unpackOctets (Memory.readAll c.image (b * c.quads) c.quads)).take want

/-- FW_BLOCK (R225). -/
def Camp.fwBlock (c : Camp) (id round b : Nat) : List Octet :=
  [0x70] ++ octetsBE id 1 ++ octetsBE round 1 ++ octetsBE b 2 ++ c.blockOctets b

/-- FW_END (R225). -/
def Camp.fwEnd (c : Camp) (id round next : Nat) : List Octet :=
  [0x72] ++ octetsBE id 1 ++ octetsBE round 1 ++ octetsBE c.rptWin 2 ++ octetsBE next 5

/-- DL_MODE format as a mode (R162): [7] OFDM; FSK [2:0] entry; OFDM [6:5] option − 1, [4:2] MCS, [1] interleaving. -/
def phyOfMode (m : Nat) : Phy :=
  if m / 128 == 1 then ⟨true, m / 32 % 4 + 1, m / 4 % 8, m / 2 % 2 == 1⟩ else ⟨false, m % 8, 0, false⟩

/-- A multicast campaign job on a target (R114, R224). -/
def Dev.queueMc (d : Dev) (id ti : Nat) (c : Camp) (g : Target) (isEnd : Bool) (payload : List Octet) : Dev :=
  d.queueJob { Job.base (if isEnd then .fwEnd id ti else .fwBlock id ti) none 3 d.clk (d.cutoffAt c) payload with
    via := some (g.stream, g.sub, phyOfMode g.mode), ar := false, pl := g.pl, dst := g.group }

def Dev.updTarget (d : Dev) (id ti : Nat) (f : Target → Target) : Dev :=
  d.updCamp id fun c => { c with targets := c.targets.modify ti f }

/-- NEXT_S of a round's FW_END (R225): the end of the report window where another round may follow, else 0. -/
def Dev.nextRoundS (d : Dev) (c : Camp) (g : Target) : Nat :=
  if g.round + 1 < c.rounds then d.nowS + c.rptWin + 1 else 0

/-- A round goes on (R226): the lowest block left in its list, or FW_END after the last. -/
def Dev.roundNext (d : Dev) (id ti : Nat) : Dev :=
  match d.camp? id with
  | none => d
  | some c =>
    let g := c.targets.getD ti Target.none
    match g.list with
    | b :: _ => d.queueMc id ti c g false (c.fwBlock id g.round b)
    | [] => d.queueMc id ti c g true (c.fwEnd id g.round (d.nextRoundS c g))

/-- The unicast blocks of a member, each a C3 job under its own key (R227). -/
def Dev.sendUnicast (d : Dev) (id slot : Nat) (c : Camp) (blocks : List Nat) : Dev :=
  let pl := ((d.rec? slot).map MeterRec.pl).getD false
  blocks.foldl (fun x b => x.queueJob
    { Job.base (.camp id slot) (some slot) 3 d.clk (d.cutoffAt c) (c.fwBlock id 0 b) with pl := pl })
    (d.setCamp id { c with members := NMap.upd c.members slot Member.none fun m => { m with uni := blocks } })

/-- The block number of an FW_BLOCK payload (R225). -/
def Job.blockNo (j : Job) : Nat := ofBE ((j.payload.drop 3).take 2)

/-- A unicast block job has ended (R227, R228): acknowledged, its block is held; otherwise it goes again until its deadline, at which its
member ends DOWNLOAD_FAIL. -/
def Dev.unicastDone (d : Dev) (id slot : Nat) (j : Job) (acked : Bool) : Dev :=
  if acked then
    d.updCamp id fun c => { c with members := NMap.upd c.members slot Member.none fun m =>
      { m with uni := m.uni.filter fun b => b != j.blockNo } }
  else if d.stateIn id slot != 4 then d
  else if d.clk < j.deadline then
    d.queueJob { Job.base j.who j.slot j.cls d.clk j.deadline j.payload with pl := j.pl }
  else if d.ledgerRuns then
    (d.withdraw (fun k => k.who == .camp id slot) (some slot)).memberTo id slot 10 rcDownloadFail 0 0
  else d

end Sys2Proof.Machine
end

