-- ==== Sys2Proof/Machine/Sections.lean ====
section
/-!
DEFINITION. Checkpoints as words: header, section descriptors, trailer and sections, the parts they travel in, and the checks a reader
makes (spec 14, R395, R396; 18, R462).
-/

namespace Sys2Proof

/-- The words of section 5, the legal state (R299, R396): the spec gives no layout. Free value, notes/assumptions/68.md. -/
opaque Config.legalWords : Machine.Legal → List Word

/-- The words of section 6, campaigns with their group keys and round numbers (R231, R396). Free value, notes/assumptions/68.md. -/
opaque Config.campWords : NMap Machine.Camp → List Word

/-- The words of section 7, commands and transactions (R396). Free value, notes/assumptions/68.md. -/
opaque Config.cmdWords : NMap Machine.Cmd → NMap Machine.Txn → Nat → List Word

/-- The words of section 8, the phase-correlator sums (R251, R396). Free value, notes/assumptions/68.md. -/
opaque Config.corrWords : NMap Machine.Corr → List Word

/-- The words a section's content stands for. -/
def SectBody.toWords : SectBody → List Word
  | .words ws => ws
  | .legal x => Config.legalWords x
  | .camps x => Config.campWords x
  | .cmds tab txns ord => Config.cmdWords tab txns ord
  | .corr x => Config.corrWords x

/-- What two consecutive parts of one section carry together. -/
def SectBody.join : SectBody → SectBody → SectBody
  | .words a, .words b => .words (a ++ b)
  | .camps a, .camps b => .camps (a ++ b)
  | .cmds a x n, .cmds b y _ => .cmds (a ++ b) (x ++ y) n
  | .corr a, .corr b => .corr (a ++ b)
  | a, _ => a

/-- Tables of sections 6 to 8 within the limits of R396. -/
def SectBody.fits : SectBody → Bool
  | .camps x => decide (x.length ≤ 64)
  | .cmds tab txns _ => decide (tab.length ≤ 1024) && decide (txns.length ≤ 262144)
  | _ => true

/-- The content of a section is of its TYPE's kind. -/
def SectBody.kind (x : SectBody) (typ : Nat) : Bool :=
  match x with
  | .words _ => [0, 1, 2, 3, 4, 9].contains typ
  | .legal _ => typ == 5
  | .camps _ => typ == 6
  | .cmds _ _ _ => typ == 7
  | .corr _ => typ == 8

namespace Machine

/-- Words from a table by slot, `n` words a slot from slot 0 to the highest listed; zeros where the table lists nothing. -/
def slotWords {α : Type} (n top : Nat) (m : NMap α) (f : α → List Word) : List Word :=
  (List.range top).flatMap fun i => ((NMap.find m i).map f).getD (List.replicate n 0)

/-- Slots from 0 to the highest assigned (R396). -/
def Snapshot.slots (c : Snapshot) : Nat := (c.recs.map fun p => p.1 + 1).foldl max 0

/-- The two words of an EUI-64 as bodies 0 and 1 of R181 hold it. -/
def euiWords (e : Eui) : List Word := [pk [(e.toNat / 2 ^ 32, 35, 4)], pk [(e.toNat, 35, 4)]]

/-- Section 9 (R396): next CSN, next BNO, PREV_HASH and the highest BNO acknowledged, in the first 32 words, which also hold the seed
generation and the state format (DESIGN CHOICE, notes/assumptions/68.md); then the announcers. -/
def Snapshot.ledgerWords (c : Snapshot) : List Word :=
  dw (c.csnAt + 1) ++ [W c.bno] ++ words32 c.prev 12 ++ [W c.acked, W c.gen, W c.sv] ++ List.replicate 14 0
    ++ c.ann.flatMap fun a => euiWords a.1 ++ [W (a.2 / 2 ^ 36)]

/-- The sections of a checkpoint in descriptor order (R396). A stash entry's four words are the EUI-64, the slot and a zero word (DESIGN
CHOICE, notes/assumptions/68.md). -/
def Snapshot.sections (c : Snapshot) : List (Nat × SectBody) :=
  [(1, .words (slotWords 32 c.slots c.recs MeterRec.words)), (2, .words (slotWords 16 c.slots c.keys KeyBlock.words))]
  ++ (if c.mem.isEmpty then [] else [(3, .words (slotWords 1 ((c.mem.map fun p => p.1 + 1).foldl max 0) c.mem fun w => [w]))])
  ++ [(4, .words (c.stash.flatMap fun e => euiWords e.1 ++ [W e.2, 0])), (5, .legal c.leg), (6, .camps c.cmd.camps),
    (7, .cmds c.cmd.tab c.cmd.txns c.cmd.ord), (8, .corr c.corr), (9, .words c.ledgerWords)]

/-- Header and section descriptors (R395). -/
def Snapshot.headWords (c : Snapshot) (peer : Bool) : List Word :=
  let ss := c.sections.map fun x => (x.1, x.2.toWords)
  [pk [(1, 35, 28), (b2n peer, 27, 27), (ss.length, 26, 22)], W c.no, W c.epoch] ++ dw c.csnAt ++ [W c.bno] ++ dw c.time
    ++ [W c.fw, W c.cfgSeq, W c.legal, pk [(c.log2, 35, 31)]] ++ words32 (sha384 (wordsOctets (ss.flatMap fun x => x.2))) 12
    ++ ss.flatMap fun x => [pk [(x.1, 35, 30)], W x.2.length, pk [(crc32c (wordsOctets x.2), 35, 4)], 0]

/-- A checkpoint of this device with its trailer (R395): signed over header and descriptors by the identity key. -/
def Dev.signCkpt (d : Dev) (c : Snapshot) : Ckpt := ⟨false, c, d.idn.serial, d.signOctets (wordsOctets (c.headWords false))⟩

/-- Header, descriptors and trailer of a checkpoint (R395). -/
def Ckpt.frontWords (c : Ckpt) : List Word :=
  c.img.headWords c.peer ++ [W c.keyId] ++ words32 c.sig.1 12 ++ words32 c.sig.2 12

/-- A checkpoint as the store holds it (R395). -/
def Ckpt.words (c : Ckpt) : List Word := c.frontWords ++ c.img.sections.flatMap fun x => x.2.toWords

/-! Parts (R462). -/

/-- The largest number of words behind a part header. -/
def partWords : Nat := 4194304

/-- The pieces of at most 4,194,304 words that a section travels in, each with its offset. -/
def partsOf (ws : List Word) : List (Nat × List Word) :=
  (List.range (cdiv ws.length partWords)).map fun i => (i * partWords, (ws.drop (i * partWords)).take partWords)

/-- A part header (R462). -/
def partHeader (no part typ : Nat) (last : Bool) (off n : Nat) : List Word :=
  [W no, pk [(part, 35, 20), (typ, 19, 14), (b2n last, 13, 13)], W off, pk [(n, 35, 13)]]

/-- The bodies of the CKPT_SHIP messages of a checkpoint, in order (R462). -/
def Ckpt.parts (c : Ckpt) : List (List Word) :=
  let front : Nat × Nat × List Word := (0, 0, c.frontWords)
  let xs := front :: c.img.sections.flatMap fun x => (partsOf x.2.toWords).map fun y => (x.1, y.1, y.2)
  (List.range xs.length).map fun i =>
    let x := xs.getD i front
    partHeader c.img.no i x.1 (i + 1 == xs.length) x.2.1 x.2.2.length ++ x.2.2

/-! Reading (R396, R462). -/

/-- The descriptors in the words of part 0, as (TYPE, WORDS, CRC). -/
def descriptors (ws : List Word) : List (Nat × Nat × Nat) :=
  (List.range (fld (ws.getD 0 0) 26 22)).map fun i =>
    (fld (ws.getD (24 + 4 * i) 0) 35 30, (ws.getD (25 + 4 * i) 0).toNat, fld (ws.getD (26 + 4 * i) 0) 35 4)

/-- WORDS of a section obeys the table of R396; `one` is WORDS of section 1. -/
def sectWordsOk (one : Nat) (x : Nat × Nat × Nat) : Bool :=
  match x.1 with
  | 1 => x.2.1 % 32 == 0 && decide (x.2.1 ≤ 67108864)
  | 2 => x.2.1 == one / 32 * 16
  | 3 => decide (x.2.1 ≤ 2097152)
  | 4 => x.2.1 % 4 == 0 && decide (x.2.1 ≤ 256)
  | 5 => x.2.1 != 0
  | 9 => decide (32 ≤ x.2.1) && decide (x.2.1 ≤ 12320) && (x.2.1 - 32) % 3 == 0
  | n => decide (6 ≤ n) && decide (n ≤ 8)

/-- The words of the section of a TYPE among those received. -/
def gotWords (got : List (Nat × Nat × SectBody)) (typ : Nat) : List Word :=
  ((got.find? fun x => x.1 == typ).map fun x => x.2.2.toWords).getD []

/-- Everything R395 and R396 ask of a checkpoint: format, TYPEs each at most once and 1, 2, 5 and 9 among them, WORDS, every CRC, SECT_HASH,
and the signature of the device that made it. SOURCE is 0 as that device signed it. -/
def ckptSound (key : Option (Nat × Bool)) (serial : Nat) (ws : List Word) (got : List (Nat × Nat × SectBody)) : Bool :=
  let ds := descriptors ws
  let ts := ds.map fun x => x.1
  let n := 24 + 4 * ds.length
  let one := ((ds.find? fun x => x.1 == 1).map fun x => x.2.1).getD 0
  fld (ws.getD 0 0) 35 28 == 1 && decide (1 ≤ ds.length) && decide (ds.length ≤ 16) && ws.length == n + 25
    && ts.eraseDups == ts && [1, 2, 5, 9].all ts.contains && ds.all (sectWordsOk one) && got.all (fun x => x.2.2.fits)
    && ds.all (fun x => x.2.1 == (gotWords got x.1).length && x.2.2 == crc32c (wordsOctets (gotWords got x.1)))
    && ofWords32 ((ws.drop 12).take 12) == sha384 (wordsOctets (ds.flatMap fun x => gotWords got x.1))
    && (ws.getD n 0).toNat == serial
    && (match key with
      | some k => p384.verify (p384.point k.1 k.2) (sha384 (wordsOctets (ws.take n))) (ofWords32 ((ws.drop (n + 1)).take 12))
          (ofWords32 ((ws.drop (n + 13)).take 12))
      | none => false)

/-- Groups of `n` words as a table by place, those that `f` reads. -/
def tableOf {α : Type} (n : Nat) (f : List Word → Option α) (ws : List Word) : NMap α :=
  (List.range (ws.length / n)).filterMap fun i => (f ((ws.drop (n * i)).take n)).map fun x => (i, x)

/-- The EUI-64 in two words. -/
def euiOf (a b : Word) : Eui := BitVec.ofNat 64 (fld a 35 4 * 2 ^ 32 + fld b 35 4)

/-- What the words and tables of a checkpoint say (R395, R396). -/
def snapshotOf (ws : List Word) (got : List (Nat × Nat × SectBody)) : Snapshot :=
  let w (i : Nat) : Word := ws.getD i 0
  let body (t : Nat) : Option SectBody := (got.find? fun x => x.1 == t).map fun x => x.2.2
  let nine := gotWords got 9
  let recs := tableOf 32 (fun g => if (MeterRec.ofWords g).inUse then some (MeterRec.ofWords g) else none) (gotWords got 1)
  let keys := tableOf 16 (fun g => if g.all (· == 0) then none else some (KeyBlock.ofWords g)) (gotWords got 2)
  { no := (w 1).toNat, epoch := (w 2).toNat, csnAt := joinW (w 3) (w 4), bno := (w 5).toNat, time := joinW (w 6) (w 7), fw := (w 8).toNat,
    sv := (nine.getD 17 0).toNat, cfgSeq := (w 9).toNat, legal := (w 10).toNat, log2 := fld (w 11) 35 31, recs := recs, keys := keys,
    mem := tableOf 1 (fun g => if g.headD 0 == 0 then none else some (g.headD 0)) (gotWords got 3)
    leg := (match body 5 with | some (.legal x) => x | _ => Legal.zero)
    cmd := (match body 6, body 7 with
      | some (.camps c), some (.cmds a b n) => ⟨a, b, c, n⟩
      | some (.camps c), _ => ⟨[], [], c, 0⟩
      | _, some (.cmds a b n) => ⟨a, b, [], n⟩
      | _, _ => Commands.reset)
    corr := (match body 8 with | some (.corr x) => x | _ => [])
    prev := ofWords32 ((nine.drop 3).take 12), acked := (nine.getD 15 0).toNat
    ann := (tableOf 3 (fun g => some (euiOf (g.getD 0 0) (g.getD 1 0), (g.getD 2 0).toNat * 2 ^ 36)) (nine.drop 32)).map fun p => p.2
    stash := (tableOf 4 (fun g => some (euiOf (g.getD 0 0) (g.getD 1 0), (g.getD 2 0).toNat)) (gotWords got 4)).map fun p => p.2
    gen := (nine.getD 16 0).toNat }

end Machine

end Sys2Proof
end

