-- ==== Sys2Proof/Machine/Nand.lean ====
section
/-!
DEFINITION. The NAND: pages with their trailers, stripes with parity, bands with their keys, the free pool, erasure and wear (spec 14,
R378–R384, R398, R400). What the spec leaves open of it is in notes/assumptions/10.md.
-/

namespace Sys2Proof.Machine

def Dev.setSto (d : Dev) (x : Store) : Dev := { d with sto := x }

def Die.none : Die := ⟨0, 0, 0, 0, 0, 0, 0, 0, 0, 0⟩

def Dev.die (d : Dev) (n : Nat) : Die := NMap.look d.sto.dies n Die.none

def Dev.setDie (d : Dev) (n : Nat) (x : Die) : Dev := d.setSto { d.sto with dies := NMap.put d.sto.dies n x }

/-- The dies in use, in ascending number (R382). -/
def Dev.diesInUse (d : Dev) : List Nat := (d.sto.dies.filter fun p => p.2.st == 1).map fun p => p.1

/-! Geometry (R378–R381). -/

/-- Octets of a page (R380). -/
def Dev.pageOctets (d : Dev) : Nat := 4096 * 2 ^ d.pageCode

/-- Data words a page holds (R380). -/
def Dev.pageWords (d : Dev) : Nat := (d.pageOctets - 64) / 9 * 2

/-- Bands of the store: the blocks of a die that SPARE_PCT does not hold back (R379, R382, R400). -/
def Dev.nBands (d : Dev) : Nat := d.bpd - d.bpd * d.sparePct / 100

/-- Data pages of a band (R382). -/
def Dev.bandPages (d : Dev) : Nat := (d.sto.w - 1) * d.ppb

/-- Data pages in the store (R401): what SPARE_PCT and parity leave of the dies in use. -/
def Dev.dataPages (d : Dev) : Nat := d.nBands * d.bandPages

/-- FREE_PAGES (R401). -/
def Dev.freePages (d : Dev) : Nat := (d.nBands - d.sto.bands.length) * d.bandPages

/-! Pages (R380). -/

/-- The octets of a page trailer before its CRC. -/
def pageTrailer (area flags pseq writeS temp stripe band words : Nat) : List Octet :=
  octetsBE area 1 ++ octetsBE flags 1 ++ octetsBE pseq 8 ++ octetsBE (writeS % 2 ^ 36) 5 ++ octetsBE temp 1 ++ octetsBE stripe 4
    ++ octetsBE band 4 ++ octetsBE words 2 ++ List.replicate 34 0

/-- A page of `n` octets: its words encrypted under the band key with PSEQ as the tweak (least significant octet first: PRESUMED,
notes/assumptions/10.md), the trailer, and the CRC over all of it. -/
def pageImage (n : Nat) (key : List Octet) (pseq : Nat) (ws : List Word) (trailer : List Octet) : List Octet :=
  let data := pairOctets (ws ++ List.replicate (ws.length % 2) 0)
  let os := xtsWrap key (octetsLE pseq 16) (data ++ List.replicate (n - 64 - data.length) 0) ++ trailer
  os ++ octetsBE (crc32c os) 4

/-- PURPOSE of a band key (R485). -/
def keyBand : Nat := 4

/-- `n` octets of the random source. -/
def Dev.drawn (d : Dev) (n : Nat) : List Octet := (List.range n).map fun i => BitVec.ofNat 8 (Config.random (d.draws + i))

/-- A band's key in clear (R382, R485). -/
def Dev.bandKey (d : Dev) (b : Nat) (x : Band) : List Octet := xtsUnwrap d.wrapKey (keyTweak keyBand 0 b) (octetsBE x.key.toNat 32)

/-! The MAP (R388): key table, band table, erase counts and die status, in two copies. -/

/-- The words of the MAP; their layout is the engine's own (DESIGN CHOICE, notes/assumptions/10.md). -/
def Store.mapWords (x : Store) : List Word :=
  (x.bands.flatMap fun p => [W p.1, pk [(p.2.area, 35, 32), (p.2.next, 31, 0)]] ++ words32 p.2.key.toNat 8)
    ++ (x.wear.flatMap fun p => [W p.1, W p.2]) ++ x.dies.flatMap fun p => [W p.1, pk [(p.2.st, 35, 34), (p.2.spare, 33, 18), (p.2.bad, 17, 0)]]

/-- The MAP is written anew: both copies enter the staging buffer. -/
def Dev.stageMap (d : Dev) : Dev :=
  let n := d.sto.mapNo + 1
  let p : Piece := ⟨7, n, d.sto.mapWords⟩
  d.setSto { d.sto with mapNo := n, staged := d.sto.staged ++ [p, p] }

/-! Stripes (R382, R383). -/

/-- The place of the parity page of a band's open stripe. -/
def Band.parity (b : Band) (n : Nat) : Nat := (n + b.next) % max 1 b.dies.length

/-- The position of the next data page in the open stripe of a band. -/
def OpenBand.place (o : OpenBand) (b : Band) : Nat := if o.pos == b.parity o.band then o.pos + 1 else o.pos

def Dev.nandBand (d : Dev) (n : Nat) : Band := NMap.look d.sto.bands n ⟨0, 0, [], 0, []⟩

/-- The exclusive-or of pages of `n` octets. -/
def xorPages (n : Nat) (ps : List (List Octet)) : List Octet := ps.foldl xorO (List.replicate n 0)

/-- The octets of the pages of a stripe. -/
def Band.stripeOctets (b : Band) (s : Nat) : List (List Octet) :=
  b.dies.filterMap fun n => (NMap.find b.pages (s * 64 + n)).map Page.octets

/-- The open stripe of an area is closed with parity over the pages written, a missing page counting as zeros, and PARTIAL where some are
missing (R383); where its die has just been lost there is none. The parity page's own AREA and FLAGS stand in the band table, its octets
being the exclusive-or whole (DESIGN CHOICE, notes/assumptions/10.md). -/
def Dev.closeStripe (d : Dev) (area : Nat) : Dev :=
  match NMap.find d.sto.opens area with
  | none => d
  | some o =>
    if o.pos == 0 then d
    else
      let b := d.nandBand o.band
      let die := b.dies.getD (b.parity o.band) 0
      let os := xorPages d.pageOctets (b.stripeOctets b.next)
      let short := decide ((b.stripeOctets b.next).length + 1 < b.dies.length)
      let alive := (d.die die).st == 1
      let pg : Page := ⟨8, b2n short + 2 * b2n d.pw.hu.isSome, [], d.sto.pseq + 1, if d.tb.set then d.nowS else 0, (d.die die).temp, os⟩
      let b1 : Band := { b with next := b.next + 1, pages := if alive then NMap.put b.pages (b.next * 64 + die) pg else b.pages }
      let d1 := d.setSto { d.sto with
        pseq := d.sto.pseq + b2n alive, bands := NMap.put d.sto.bands o.band b1
        opens := if b1.next < d.ppb then NMap.put d.sto.opens area { o with pos := 0 } else NMap.del d.sto.opens area }
      if alive then d1.emit (.nandPage die o.band b.next os) else d1

/-- Every open stripe is closed (R383, R391). -/
def Dev.closeStripes (d : Dev) : Dev := d.sto.opens.foldl (fun x p => x.closeStripe p.1) d

/-! Bands (R382, R398, R400). -/

/-- Erasures of a band so far. -/
def Dev.wearOf (d : Dev) (b : Nat) : Nat := NMap.look d.sto.wear b 0

/-- The free band of lowest erase count, the lowest number among equals (R400). -/
def Dev.freeBand (d : Dev) : Option Nat :=
  bestBy (fun (a b : Nat) => decide (d.wearOf a < d.wearOf b)) ((List.range d.nBands).filter fun b => (NMap.find d.sto.bands b).isNone)

/-- A band is opened for an area, with a key of its own; none where no band is free. -/
def Dev.openBand (d : Dev) (area : Nat) : Option Dev :=
  d.freeBand.map fun n =>
    let key := BitVec.ofNat 256 (ofBE (xtsWrap d.wrapKey (keyTweak keyBand 0 n) (d.drawn 32)))
    let d1 : Dev := { d with
      draws := d.draws + 32
      sto := { d.sto with
        bands := NMap.put d.sto.bands n ⟨key, area, d.diesInUse, 0, []⟩, opens := NMap.put d.sto.opens area ⟨n, 0, d.clk⟩ } }
    d1.stageMap

/-- The store with an open band for an area. -/
def Dev.withBand (d : Dev) (area : Nat) : Option Dev := if (NMap.find d.sto.opens area).isSome then some d else d.openBand area

/-- One page of an area is programmed at the next place of its open stripe; the last data page of a stripe brings its parity page. -/
def Dev.programPage (d : Dev) (area : Nat) (ps : List Piece) : Option Dev :=
  (d.withBand area).map fun d1 =>
    let o := NMap.look d1.sto.opens area ⟨0, 0, 0⟩
    let b := d1.nandBand o.band
    let pos := o.place b
    let die := b.dies.getD pos 0
    let ws := ps.flatMap Piece.ws
    let n := d1.sto.pseq + 1
    let secs := if d.tb.set then d.nowS else 0
    let flags := 2 * b2n d.pw.hu.isSome
    let os := pageImage d.pageOctets (d1.bandKey o.band b) n ws
      (pageTrailer area flags n secs (d1.die die).temp b.next o.band ws.length)
    let d2 := (d1.setSto { d1.sto with
      pseq := n
      bands := NMap.put d1.sto.bands o.band { b with
        pages := NMap.put b.pages (b.next * 64 + die) ⟨area, flags, ps, n, secs, (d1.die die).temp, os⟩ }
      opens := NMap.put d1.sto.opens area { o with pos := pos + 1, at' := d.clk } }).emit (.nandPage die o.band b.next os)
    if b.dies.length ≤ ({ o with pos := pos + 1 } : OpenBand).place b then d2.closeStripe area else d2

/-- The pieces at the front that one page of an area takes, and those that are left. -/
def takePage (area : Nat) : Nat → List Piece → List Piece × List Piece
  | _, [] => ([], [])
  | cap, p :: r =>
    if p.area != area || cap == 0 then ([], p :: r)
    else if p.ws.length ≤ cap then
      let x := takePage area (cap - p.ws.length) r
      (p :: x.1, x.2)
    else ([{ p with ws := p.ws.take cap }], { p with ws := p.ws.drop cap } :: r)

/-- Pages are programmed with pieces of one area until none is left; those that find no free band stay in the staging buffer. -/
def Dev.writePieces (d : Dev) (area : Nat) : Nat → List Piece → Dev
  | 0, ps => d.setSto { d.sto with staged := d.sto.staged ++ ps }
  | fuel + 1, ps =>
    if ps.isEmpty then d
    else
      let x := takePage area d.pageWords ps
      match d.programPage area x.1 with
      | some d1 => Dev.writePieces d1 area fuel x.2
      | none => d.setSto { d.sto with staged := d.sto.staged ++ ps }

/-- Words of pieces. -/
def wordsOf (ps : List Piece) : Nat := (ps.map fun p => p.ws.length).sum

/-- Live content is rewritten in new stripes of its areas (R385, R386, R398). -/
def Dev.rewrite (d : Dev) (ps : List Piece) : Dev :=
  (List.range 10).foldl (fun (x : Dev) a =>
    let mine := ps.filter fun p => p.area == a
    x.writePieces a (wordsOf mine / max 1 d.pageWords + mine.length) mine) d

/-- What a page holds is still wanted (R388–R391). A checkpoint's pieces are numbered by its CKPT_NO × 2, plus 1 where it was shipped. -/
def Dev.pieceLive (d : Dev) (p : Piece) : Bool :=
  match p.area with
  | 1 => (NMap.find d.sto.arch p.key).isSome
  | 2 => d.sto.idx.any fun q => q.2.any fun e => e.2.csn == p.key
  | 3 => (NMap.find d.sto.jour p.key).isSome
  | 4 => (d.sto.ckpts ++ d.sto.cur.toList).any fun c => c.img.no * 2 + b2n c.peer == p.key
  | 5 => (NMap.find d.evr.fmt p.key).isSome
  | 6 => d.leg.snaps.any fun q => q.2.no == p.key
  | 7 => p.key == d.sto.mapNo
  | 9 => match d.sto.tail with | some x => x.pseq == p.key | none => false
  | _ => false

/-- The live pieces of a band. -/
def Dev.livePieces (d : Dev) (b : Band) : List Piece := b.pages.flatMap fun p => p.2.pieces.filter d.pieceLive

/-- A band is crypto-erased (R398): its key leaves the key table, the table is written anew in a band of its own, so that the blocks that held
old copies can be erased, and the band's blocks are erased. -/
def Dev.eraseBand (d : Dev) (n : Nat) : Dev :=
  let b := d.nandBand n
  let dies := b.dies.filter fun k => (d.die k).st == 1
  let w := d.wearOf n + 1
  let d1 := dies.foldl (fun (x : Dev) k =>
    (x.setDie k { x.die k with erased := (x.die k).erased + 1, top := max (x.die k).top w }).emit (.nandErase k n)) d
  let d2 := d1.setSto { d1.sto with
    bands := NMap.del d1.sto.bands n, wear := NMap.put d1.sto.wear n w, opens := NMap.keep d1.sto.opens fun _ o => o.band != n }
  if b.area == 7 then d2
  else
    let d3 := d2.closeStripe 7
    (d3.setSto { d3.sto with opens := NMap.del d3.sto.opens 7 }).stageMap

/-- Bands that no area writes to and that hold nothing live are reclaimed (R383, R398, R402). -/
def Dev.reclaim (d : Dev) : Dev :=
  (d.sto.bands.filter fun p => !(d.sto.opens.any fun o => o.2.band == p.1) && (d.livePieces p.2).isEmpty).foldl
    (fun x p => x.eraseBand p.1) d

/-- A band's live content is rewritten elsewhere and the band is erased (R386, R398, R400). -/
def Dev.moveBand (d : Dev) (n : Nat) : Dev :=
  let d1 := d.setSto { d.sto with opens := NMap.keep d.sto.opens fun _ o => o.band != n }
  (d1.rewrite (d1.livePieces (d1.nandBand n))).eraseBand n

/-- Mean erase count of the bands. -/
def Dev.meanWear (d : Dev) : Nat := (d.sto.wear.map fun p => p.2).sum / max 1 d.nBands

/-- Rated cycles of the dies in use. -/
def Dev.rated (d : Dev) : Nat := ((d.diesInUse.head?.map d.die).map Die.endur).getD 0

/-- A band erased so seldom that it lies more than 10 % of the rated endurance below the mean is relocated (R400). -/
def Dev.levelWear (d : Dev) : Dev :=
  match d.sto.bands.find? fun p => !(d.sto.opens.any fun o => o.2.band == p.1) && decide (d.wearOf p.1 + d.rated / 10 < d.meanWear) with
  | some p => d.moveBand p.1
  | none => d

/-- One page of what stands first in the staging buffer is programmed (R391). Dead bands are reclaimed, and wear is levelled, when a new band
is wanted (DESIGN CHOICE, notes/assumptions/10.md). -/
def Dev.pageWritten (d : Dev) : Dev :=
  match d.sto.staged with
  | [] => d
  | p :: _ =>
    let fresh := (NMap.find d.sto.opens p.area).isNone
    let d1 := if fresh then d.reclaim else d
    let x := takePage p.area d1.pageWords d1.sto.staged
    match (d1.setSto { d1.sto with staged := x.2 }).programPage p.area x.1 with
    | some d2 => if fresh then d2.levelWear else d2
    | none => d1

/-- Pages are programmed until the staging buffer is empty (R391), at most `fuel` of them. -/
def Dev.programAll (d : Dev) : Nat → Dev
  | 0 => d
  | fuel + 1 => if d.sto.staged.isEmpty then d else Dev.programAll d.pageWritten fuel

/-- The die on which the next page of the staging buffer is programmed. -/
def Dev.nextDie (d : Dev) : Option Nat :=
  d.sto.staged.head?.bind fun p => (d.withBand p.area).bind fun x =>
    let o := NMap.look x.sto.opens p.area ⟨0, 0, 0⟩
    (x.nandBand o.band).dies[o.place (x.nandBand o.band)]?

/-- A page that failed during holdup is written again on the next position (R402): its own stays empty. -/
def Dev.skipPlace (d : Dev) : Dev :=
  match d.sto.staged with
  | [] => d
  | p :: _ =>
    match d.withBand p.area with
    | none => d
    | some x =>
      let o := NMap.look x.sto.opens p.area ⟨0, 0, 0⟩
      let o1 : OpenBand := { o with pos := o.place (x.nandBand o.band) + 1 }
      let x1 := x.setSto { x.sto with opens := NMap.put x.sto.opens p.area o1 }
      if (x.nandBand o.band).dies.length ≤ o1.place (x.nandBand o.band) then x1.closeStripe p.area else x1

/-! Reading (R384). -/

/-- The age bin of a page: 7 where it was written before time was set. -/
def Dev.ageBin (d : Dev) (writeS : Nat) : Nat :=
  if writeS == 0 then 7
  else
    let age := (d.nowS - writeS) / 86400
    ([1, 7, 30, 91, 182, 365, 730].filter fun n => decide (n ≤ age)).length

/-- The temperature bin of a page: the die's temperature now less TEMP. -/
def tempBin (now temp : Nat) : Nat := ([-30, 0, 30].filter fun (n : Int) => decide (n ≤ (now : Int) - temp)).length

/-- THR_MAP entry `i`. -/
def Dev.thrMap (d : Dev) (i : Nat) : Nat := fld (d.stW (4 + i / 9)) (4 * (i % 9) + 3) (4 * (i % 9))

/-- Read-offset set `k`, the four octets of SET FEATURES at FEAT_ADDR. -/
def Dev.offsetSet (d : Dev) (k : Nat) : Nat := fld (d.stW (8 + k)) 35 4

/-- The order in which read-offset sets are tried for a page. -/
def Dev.setOrder (d : Dev) (die : Nat) (p : Page) : List Nat :=
  let first := d.thrMap (4 * d.ageBin p.writeS + tempBin (d.die die).temp p.temp)
  (List.range 16).map fun i => (first + i) % 16

end Sys2Proof.Machine
end

