-- ==== Sys2Proof/Machine/Store.lean ====
section
/-!
DEFINITION. The store engine: archive, interval index, staging, checkpoints, dies, scrubbing and secure discard (spec 14,
R383–R402).
-/

namespace Sys2Proof.Machine

/-! The store counters (R401). -/

def fCorrected : Fld := ⟨0x0499, 35, 0⟩
def fRetries : Fld := ⟨0x049A, 35, 18⟩
def fRebuilt : Fld := ⟨0x049A, 17, 0⟩
def fRelocated : Fld := ⟨0x049B, 35, 18⟩
def fUnrecoverable : Fld := ⟨0x049B, 17, 0⟩
def fArchLost : Fld := ⟨0x049C, 35, 18⟩
def fTailLost : Fld := ⟨0x049C, 17, 0⟩
def fDiscardSecure : Fld := ⟨0x049D, 35, 18⟩
def fDiscardHint : Fld := ⟨0x049D, 17, 0⟩

/-- Dies lost or being copied out (R401). -/
def Dev.diesLost (d : Dev) : Nat := (d.sto.dies.filter fun p => p.2.st == 2 || p.2.st == 3).length

/-! Areas (R388). -/

def Dev.areaWords (d : Dev) (area : Nat) : Nat := NMap.look d.sto.words area 0

def Dev.addWords (d : Dev) (area n : Nat) : Dev :=
  d.setSto { d.sto with words := NMap.put d.sto.words area (d.areaWords area + n) }

def Dev.subWords (d : Dev) (area n : Nat) : Dev :=
  d.setSto { d.sto with words := NMap.put d.sto.words area (d.areaWords area - n) }

/-- Words the archive and journal may hold (ARCH_PCT, R388). -/
def Dev.archCap (d : Dev) : Nat := d.dataPages * d.archPct / 100 * d.pageWords

/-- Words the interval area may hold (INT_PCT). -/
def Dev.intCap (d : Dev) : Nat := d.dataPages * d.intPct / 100 * d.pageWords

/-- Words the staging buffer takes: 4 MiB, and no more than the dies can program in 200 ms (R391). -/
def Dev.stageCap (d : Dev) : Nat :=
  min (4 * 2 ^ 20 * 8 / 36) (8 * d.diesPerCh * (200000 / max 1 d.tprogUs) * d.pageWords)

/-! Archive (R389, R390). -/

/-- Words a packet of the store writes queue can hold: no more than the group's 65,535 octets (R50), two words in nine (R335). -/
def storePktWords : Nat := 14563

/-- Class of a record on its way to the store: the spec gives none, and C2 is what it gives where nothing else is said (DESIGN CHOICE,
notes/assumptions/18.md). -/
def storeCls : Nat := 2

/-- A record enters the store writes queue (R50), in as many packets as it takes; the last of them completes it. -/
def Dev.storePackets (d : Dev) (area key : Nat) (ws : List Word) : Nat → Dev
  | 0 => d
  | fuel + 1 =>
    let now := ws.take storePktWords
    let more := decide (storePktWords < ws.length)
    let d1 := d.enqueue 6 storeCls (Item.packet (.store ⟨area, now, key, more⟩) storeCls d.now (octetsOfWords now.length) none)
    if more then Dev.storePackets d1 area key (ws.drop storePktWords) fuel else d1

/-- A record joins the store writes queue. -/
def Dev.storeItem (d : Dev) (area key : Nat) (ws : List Word) : Dev := d.storePackets area key ws (ws.length / storePktWords + 1)

/-- Journal words of a commit (R392). -/
def Dev.journal (d : Dev) (csn : Nat) (ws : List Word) : Dev :=
  d.setSto { d.sto with jour := NMap.put d.sto.jour csn ws }

/-- A block leaves the archive. -/
def Dev.dropBlock (d : Dev) (bno : Nat) : Dev :=
  let d1 := d.subWords 1 (NMap.look d.sto.arch bno 0)
  let d2 := d1.setSto { d1.sto with arch := NMap.del d1.sto.arch bno }
  { d2 with led := { d2.led with blocks := NMap.del d2.led.blocks bno } }

/-- The oldest acknowledged block leaves the archive; where every block is unacknowledged the oldest leaves as
ARCH_LOST (R389). -/
def Dev.dropOldest (d : Dev) : Dev :=
  match d.sto.arch with
  | [] => d
  | (b, _) :: _ =>
    if b ≤ d.led.acked then d.dropBlock b
    else ((d.dropBlock b).count fArchLost).raise 0x094 [b]

/-- Room is made for `n` words of a block (R389). -/
def Dev.makeRoom (d : Dev) (n : Nat) : Nat → Dev
  | 0 => d
  | fuel + 1 =>
    if d.areaWords 1 + d.areaWords 3 + n ≤ d.archCap || d.sto.arch.isEmpty then d else Dev.makeRoom d.dropOldest n fuel

/-- In FAILED blocks wait in the 256 places of the DRAM buffer and then follow R389 (R387). -/
def Dev.keep256 (d : Dev) : Nat → Dev
  | 0 => d
  | fuel + 1 => if d.sto.arch.length ≤ 256 then d else Dev.keep256 d.dropOldest fuel

/-! The interval index (R174, R390). -/

/-- The five words of an interval entry (R390). -/
def IvlEntry.words (e : IvlEntry) (slot endS : Nat) : List Word :=
  [pk [(slot, 35, 15), (e.outcome, 14, 13), (e.flags, 12, 5)], W endS] ++ dw e.csn ++ [W e.reg0]

/-- An interval entry enters the index. -/
def Dev.indexPut (d : Dev) (slot endS : Nat) (e : IvlEntry) : Dev :=
  (d.setSto { d.sto with idx := NMap.put d.sto.idx slot (NMap.put (NMap.look d.sto.idx slot []) endS e) }).storeItem 2 e.csn
    (e.words slot endS)

/-- A lookup by slot and END_S (R174, R399): none while the store is FAILED; for an entry whose discard has fallen back
to a hint it is free whether it is found. -/
def Dev.indexFind (d : Dev) (slot endS : Nat) : Option Nat × Dev :=
  if d.sto.st == 3 then (none, d)
  else
    match NMap.find (NMap.look d.sto.idx slot []) endS with
    | some e => (some e.csn, d)
    | none =>
      match NMap.find (NMap.look d.sto.dead slot []) endS with
      | none => (none, d)
      | some e =>
        if d.sto.disc.any fun x => x.slot == some slot || x.slot == none then (none, d)
        else (if Config.discardResidue d.sto.looks then some e.csn else none, d.setSto { d.sto with looks := d.sto.looks + 1 })

/-- The oldest day with interval entries, by its start. -/
def Dev.oldestDay (d : Dev) : Option Nat :=
  (bestBy (fun (a b : Nat) => decide (a < b)) (d.sto.idx.filterMap fun p => p.2.head?.map (·.1))).map fun e => e / 86400 * 86400

/-- The entries of a day leave the index and the interval area. -/
def Dev.dropDay (d : Dev) (day : Nat) : Dev :=
  let inDay (e : Nat) : Bool := e / 86400 * 86400 == day
  let n := (d.sto.idx.map fun p => (p.2.filter fun q => inDay q.1).length).sum
  let idx := (NMap.mapAll d.sto.idx fun _ m => NMap.keep m fun e _ => !inDay e)
  (d.subWords 2 (5 * n)).setSto { (d.subWords 2 (5 * n)).sto with idx := NMap.keep idx fun _ m => !m.isEmpty }

/-- The interval area gives up its oldest day while it is full; a day within INT_DAYS is reported (R390). -/
def Dev.trimDays (d : Dev) : Nat → Dev
  | 0 => d
  | fuel + 1 =>
    if d.areaWords 2 ≤ d.intCap then d
    else match d.oldestDay with
      | none => d
      | some day =>
        let d1 := d.dropDay day
        Dev.trimDays (if d.nowS < day + 86400 + d.intDays * 86400 then d1.raise 0x095 [day] else d1) fuel

/-! Staging and stripes (R383, R391). -/

/-- What entering the staging buffer makes of an item (R389–R392); a packet that others of its record follow only takes its words. -/
def Dev.staged (d : Dev) (i : StoreItem) : Dev :=
  if i.more then d else
  match i.area with
  | 1 =>
    match NMap.find d.led.blocks i.key with
    | none => d
    | some b =>
      let n := b.words.length
      let j : List Piece := (NMap.keep d.sto.jour fun c _ => decide (b.first ≤ c) && decide (c ≤ b.last)).map fun p => ⟨3, p.1, p.2⟩
      let d1 := ((d.makeRoom (n + wordsOf j) d.sto.arch.length).addWords 1 n).addWords 3 (wordsOf j)
      d1.setSto { d1.sto with arch := NMap.put d1.sto.arch i.key n, staged := d1.sto.staged ++ j }
  | 2 => (d.addWords 2 i.ws.length).trimDays 4
  | _ => d

/-- An item taken from the store writes queue: a FAILED store takes no writes, and its blocks wait in DRAM (R387). -/
def Dev.storeTake (d : Dev) (i : StoreItem) : Dev :=
  if d.sto.st == 3 then
    match i.area, i.more, NMap.find d.led.blocks i.key with
    | 1, false, some b => (d.setSto { d.sto with arch := NMap.put d.sto.arch i.key b.words.length }).keep256 (d.sto.arch.length + 1)
    | _, _, _ => d
  else (d.setSto { d.sto with staged := d.sto.staged ++ [⟨i.area, i.key, i.ws⟩] }).staged i

/-- The store engine takes an item of `n` words now: it is FAILED, or it runs, HOLDUP_OK has been set since the
start (R433) and the staging buffer has room (R391). -/
def Dev.storeRoom (d : Dev) (n : Nat) : Bool :=
  d.sto.st == 3 || (d.sto.st != 0 && d.domOn 49 && d.pw.heldOk && decide (wordsOf d.sto.staged + n ≤ d.stageCap))

/-- STORE_WRITE (R391): the first item of the store writes queue enters the staging buffer, unless the buffer is full. -/
def execStoreWrite (t : Nat) (s : State) : Result := run t s fun d =>
  match d.takeItem 6 with
  | some (.store i, d1) => if d.storeRoom i.ws.length then d1.storeTake i else d.discard 6 true
  | _ => d.discard 6 true

/-- Every item of the store writes queue that is left enters the staging buffer: what a stop does (R391, R426). -/
def Dev.drainStore (d : Dev) : Nat → Dev
  | 0 => d
  | fuel + 1 =>
    match (d.fillGroup 6).takeItem 6 with
    | some (.store i, d1) => Dev.drainStore (d1.storeTake i) fuel
    | _ => d.fillGroup 6

/-- STRIPE_TIMEOUT (R383): 1 s without a further page. -/
def execStripeTimeout (t : Nat) (s : State) : Result := run t s fun d =>
  d.sto.opens.foldl (fun x p => if d.passedMs p.2.at' 1000 then x.closeStripe p.1 else x) d

/-! Checkpoints (R394–R396). -/

/-- The newest valid checkpoint this device has made. -/
def Dev.ckptOwn (d : Dev) : Option Ckpt := d.sto.ckpts.find? fun c => !c.peer

/-- The state a checkpoint begun now holds (R394–R396). -/
def Dev.snapshot (d : Dev) (no : Nat) : Snapshot :=
  { no := no, epoch := d.pair.epoch, csnAt := d.led.csn - 1, bno := d.led.bno, time := d.now, fw := d.boot.fwVer,
    sv := d.boot.stVer,
    cfgSeq := d.cfgSeq, legal := d.leg.check, log2 := d.led.dir.log2, recs := d.led.recs, keys := d.led.keys,
    mem := d.bal.mem, leg := d.leg.st, cmd := d.cmd, corr := d.bal.corr, prev := d.led.prev, acked := d.led.acked,
    ann := d.led.ann.map fun a => (a.1, a.2 / 2 ^ 36 * 2 ^ 36), stash := d.led.dir.stash, gen := d.led.dir.gen }

/-- A checkpoint is begun: the state after the last commit (R394, R395); open stripes close (R383). -/
def Dev.beginCkpt (d : Dev) : Dev :=
  if !(d.sto.st == 1 || d.sto.st == 2) then d
  else
    let n := d.sto.ckNo + 1
    let c := d.signCkpt (d.snapshot n)
    (d.closeStripes.setSto { d.closeStripes.sto with cur := some c, ckNo := n }).storeItem 4 (2 * n) c.words

/-- The words of a checkpoint have all entered the staging buffer (R391, R394). -/
def Dev.ckptStaged (d : Dev) (c : Ckpt) : Bool :=
  !((d.items 6).any fun x => match x with
    | .store i => i.area == 4 && i.key == c.img.no * 2
    | _ => false)

/-- The newest `k` checkpoints of each source. -/
def keepCkpts (k : Nat) (cs : List Ckpt) : List Ckpt :=
  (cs.filter fun c => !c.peer).take k ++ (cs.filter Ckpt.peer).take k

/-- CHECKPOINT (R394): a whole multiple of 900 s of device time, once for each. -/
def execCheckpoint (t : Nat) (s : State) : Result := run t s fun d =>
  let n := d.nowS / 900
  if d.ledgerRuns && n != d.sto.ckAt then (d.setSto { d.sto with ckAt := n }).beginCkpt else d

/-- The checkpoints kept once `c` is valid (R394); while a trial runs, the newest of an older state format too (R456). -/
def Dev.ckptsWith (d : Dev) (c : Ckpt) : List Ckpt :=
  if d.boot.trial.isSome then
    keepCkpts d.ckptKeep ((c :: d.sto.ckpts).filter fun x => x.img.sv == c.img.sv)
      ++ (d.sto.ckpts.filter fun x => decide (x.img.sv < c.img.sv)).take 1
  else keepCkpts d.ckptKeep (c :: d.sto.ckpts)

/-- A checkpoint becomes valid; journal words that no kept checkpoint needs go (R388, R394). -/
def Dev.ckptValid (d : Dev) (c : Ckpt) : Dev :=
  let cs := d.ckptsWith c
  let old := (bestBy (fun (a b : Nat) => decide (a < b)) (cs.map fun x => x.img.csnAt)).getD 0
  let gone := ((NMap.keep d.sto.jour fun k _ => decide (k ≤ old)).map fun p => p.2.length).sum
  let d1 := d.subWords 3 gone
  d1.setSto { d1.sto with ckpts := cs, jour := NMap.keep d1.sto.jour fun k _ => decide (old < k) }

/-! Dies (R385–R387, R399, R400). -/

/-- Every discard under way falls back to a hint for a cause (R399). -/
def Dev.hintAll (d : Dev) (cause : Nat) : Dev :=
  d.sto.disc.foldl (fun x _ => (x.count fDiscardHint).raise 0x096 [cause]) (d.setSto { d.sto with disc := [] })

/-- A die is lost (R386, R387, R402). -/
def Dev.loseDie (d : Dev) (n : Nat) : Dev :=
  if (d.die n).st != 1 then d
  else
    let d0 := ((d.setDie n { d.die n with st := 3 }).hintAll 1).closeStripes
    let d1 := (d0.setSto { d0.sto with opens := [] }).stageMap
    if d.sto.st == 1 then (d1.setSto { d1.sto with st := 2, copy := some d.clk }).raise 0x090 [n]
    else if d.sto.st == 2 then (d1.setSto { d1.sto with st := 3, copy := none }).raise 0x092 [d1.diesLost]
    else d1

/-- DIE_LOST (R386). -/
def execDieLost (t die : Nat) (s : State) : Result := run t s fun d => d.loseDie die

/-- STORE_COPY_DONE (R386, R387): the lost die reads LOST; with fewer than 3 dies left the store is FAILED. -/
def execStoreCopyDone (t : Nat) (s : State) : Result := run t s fun d =>
  if d.sto.st != 2 then d
  else
    let w := d.sto.w - 1
    let over' := d.sto.bands.filter fun p => p.2.dies.any fun n => (d.die n).st == 3
    let d0 := over'.foldl (fun x p => x.moveBand p.1) d
    let d1 := (d0.setSto { d0.sto with
      w := w, copy := none, st := if w < 3 then 3 else 1
      dies := NMap.mapAll d0.sto.dies fun _ x => if x.st == 3 then { x with st := 2 } else x }).stageMap
    if w < 3 then d1.raise 0x092 [d1.diesLost] else d1.raise 0x091 [w]

/-- A block of a die is retired for a spare (R400): the levels below half and below a quarter are reported, and a die with no spare left is
lost. -/
def Dev.retire (d : Dev) (n : Nat) : Dev :=
  let x := d.die n
  if x.spare == 0 then (d.setDie n { x with bad := x.bad + 1 }).loseDie n
  else
    let left := x.spare - 1
    let level := if 4 * left < x.had then 2 else if 2 * left < x.had then 1 else 0
    let d1 := d.setDie n { x with spare := left, bad := x.bad + 1, told := max x.told level }
    let d2 := if x.told < level then d1.raise 0x097 [n, left] else d1
    if left == 0 then d2.loseDie n else d2

/-- PAGE_PROGRAM_DONE (R391, R400, R402): the die's temperature is kept, and where the next page of the staging buffer goes to this die it is
programmed; a program that fails retires the block for a spare, in the holdup only after the restart. -/
def execPageProgramDone (t die temp : Nat) (ok : Bool) (s : State) : Result := run t s fun d =>
  if (d.die die).st != 1 then d
  else
    let d1 := d.setDie die { d.die die with temp := temp }
    if ok then if d1.nextDie == some die then d1.pageWritten else d1
    else if d.pw.hu.isSome then
      let d2 := d1.setDie die { d1.die die with owed := (d1.die die).owed + 1 }
      if d1.nextDie == some die then d2.skipPlace else d2
    else d1.retire die

/-- What an unrecoverable page held is gone (R384). -/
def Dev.losePiece (d : Dev) (p : Piece) : Dev :=
  match p.area with
  | 1 => d.dropBlock p.key
  | 2 => d.setSto { d.sto with idx := NMap.keep (NMap.mapAll d.sto.idx fun _ m => NMap.keep m fun _ e => e.csn != p.key) fun _ m => !m.isEmpty }
  | 3 => d.setSto { d.sto with jour := NMap.del d.sto.jour p.key }
  | 4 => d.setSto { d.sto with ckpts := d.sto.ckpts.filter fun c => c.img.no * 2 + b2n c.peer != p.key }
  | 5 => { d with evr := { d.evr with fmt := NMap.del d.evr.fmt p.key } }
  | 6 => { d with leg := { d.leg with snaps := NMap.keep d.leg.snaps fun _ x => x.no != p.key } }
  | _ => d

/-- A page's content is taken out of it: it is dead (R385). -/
def Dev.clearPage (d : Dev) (band key : Nat) : Dev :=
  let b := d.nandBand band
  match NMap.find b.pages key with
  | some p => d.setSto { d.sto with bands := NMap.put d.sto.bands band { b with pages := NMap.put b.pages key { p with pieces := [] } } }
  | none => d

/-- SCRUB (R384, R385): the page of a stripe on a die is read. `plain` gives the corrected bits of each codeword where the plain read
succeeds, `sets` the same for each read-offset set with which it would, and `dead` the dies whose pages of the stripe cannot be read either.
Sets are tried from the one THR_MAP gives; a page that fails with all of them is rebuilt from its stripe, whose parity must stand and whose
other pages must be readable. -/
def execScrub (t band stripe die : Nat) (plain : Option (List Nat)) (sets : NMap (List Nat)) (dead : List Nat) (s : State) : Result :=
  run t s fun d =>
    let b := d.nandBand band
    let key := stripe * 64 + die
    match NMap.find b.pages key with
    | none => d
    | some p =>
      let order := d.setOrder die p
      let fails := order.takeWhile fun k => (NMap.find sets k).isNone
      let tried := if plain.isSome then [] else order.take (fails.length + 1)
      let good := plain <|> (order.findSome? fun k => NMap.find sets k)
      let whole := decide (stripe < b.next) && b.dies.all fun n =>
        n == die || ((NMap.find b.pages (stripe * 64 + n)).isSome && (d.die n).st == 1 && !dead.contains n)
          || ((NMap.find b.pages (stripe * 64 + n)).isNone && b.parity band != n)
      let bits := good.getD []
      let d1 := (tried.foldl (fun (x : Dev) k => x.emit (.nandFeature die (fld (d.stW 1) 20 13) (d.offsetSet k))) d).countN fCorrected
        (bits.filter fun n => n != 0).length
      let d2 := if plain.isSome then d1 else d1.count fRetries
      if good.isNone && !whole then
        p.pieces.foldl (fun x q => x.losePiece q) (((d2.count fUnrecoverable).raise 0x093 [p.area]).clearPage band key)
      else
        let d3 := if good.isNone then d2.count fRebuilt else d2
        if plain.isSome && bits.all fun n => decide (n ≤ d.scrubBits) then d3
        else ((d3.clearPage band key).rewrite (p.pieces.filter d.pieceLive)).count fRelocated

/-! Retention and discard (R388–R390, R398, R399). -/

/-- DAY_INDEX (R390): a day's index is complete; days older than INT_DAYS leave (R388). -/
def execDayIndex (t day : Nat) (s : State) : Result := run t s fun d =>
  let d1 := d.setSto { d.sto with days := NMap.put d.sto.days (day / 86400 * 86400) true }
  match d1.oldestDay with
  | some o =>
    if o + 86400 + d.intDays * 86400 ≤ d.nowS then
      let d2 := d1.dropDay o
      d2.setSto { d2.sto with days := NMap.del d2.sto.days o }
    else d1
  | none => d1

/-- ARCHIVE_EXPIRY (R389): acknowledged blocks leave ARCH_DAYS after their SEAL_TIME. -/
def execArchiveExpiry (t : Nat) (s : State) : Result := run t s fun d =>
  d.sto.arch.foldl (fun x p =>
    let sealT := ((NMap.find x.led.blocks p.1).map Block.sealT).getD 0
    if decide (p.1 ≤ x.led.acked) && decide (sealT + d.archDays * 86400 * 2 ^ 36 ≤ d.now) then x.dropBlock p.1 else x) d

/-- A secure discard begins (R398): the entries are dead. -/
def Dev.beginDiscard (d : Dev) (slot : Option Nat) : Dev :=
  match slot with
  | some n => d.setSto { d.sto with
      disc := d.sto.disc ++ [⟨slot, d.clk⟩]
      dead := NMap.put d.sto.dead n (NMap.look d.sto.idx n [])
      idx := NMap.del d.sto.idx n }
  | none => d.setSto { d.sto with disc := d.sto.disc ++ [⟨none, d.clk⟩], dead := d.sto.idx, idx := [] }

/-- A band holds entries that a discard has marked dead; every band where the whole store is discarded (R398). -/
def Dev.holdsDead (d : Dev) (slot : Option Nat) (b : Band) : Bool :=
  match slot with
  | none => true
  | some n => b.pages.any fun q => q.2.pieces.any fun x => x.area == 2 && (NMap.look d.sto.dead n []).any fun e => e.2.csn == x.key

/-- DISCARD_DONE (R398, R399): the live data of each band affected is in new bands, and the bands are crypto-erased. -/
def execDiscardDone (t : Nat) (slot : Option Nat) (s : State) : Result := run t s fun d =>
  if d.sto.disc.any fun x => x.slot == slot then
    let d1 := (d.sto.bands.filter fun p => d.holdsDead slot p.2).foldl (fun x p => x.moveBand p.1) d
    (d1.setSto { d1.sto with
      disc := d.sto.disc.filter fun x => x.slot != slot
      dead := match slot with | some n => NMap.del d1.sto.dead n | none => [] }).count fDiscardSecure
  else d

/-- DISCARD_TIMEOUT (R399): a discard cannot complete, for want of space in 24 h or because an erase failed. -/
def execDiscardTimeout (t : Nat) (slot : Option Nat) (erase : Bool) (s : State) : Result := run t s fun d =>
  if d.sto.disc.any fun x => x.slot == slot && (erase || d.passedMs x.since 86400000) then
    ((d.setSto { d.sto with disc := d.sto.disc.filter fun x => x.slot != slot }).count fDiscardHint).raise 0x096
      [if erase then 0 else 2]
  else d

/-! What the mirror shows of it (R401). -/

/-- COPY_PERMIL: what the copy has read at REBUILD_MBS of the pages held. -/
def Dev.copyPermil (d : Dev) : Nat :=
  match d.sto.copy with
  | none => 0
  | some t0 =>
    let bytes := (d.sto.bands.map fun p => p.2.pages.length).sum * d.pageOctets
    min 1000 ((d.clk - t0) * d.rebuildMbs * 10 ^ 9 / 2 ^ 36 / max 1 bytes)

/-- The H words 0 to 8 of the store status block (R401). -/
def Dev.storeWords (d : Dev) : List Word :=
  let pct (n cap : Nat) : Nat := min 100 (n * 100 / max 1 cap)
  let c := d.ckptOwn
  [pk [(d.sto.st, 35, 33), (d.sto.w, 32, 26), (d.diesLost, 25, 19), (d.copyPermil, 18, 9)],
    W d.dataPages, W d.freePages,
    pk [(pct (d.areaWords 1 + d.areaWords 3) d.archCap, 35, 29), (pct (d.areaWords 2) d.intCap, 28, 22)],
    W ((d.sto.arch.head?.map (·.1)).getD 0), W (d.oldestDay.getD 0), W ((c.map fun x => x.img.no).getD 0)]
  ++ dw ((c.map fun x => x.img.csnAt).getD 0)

/-- The four words of a die (R401). -/
def Dev.dieWords (d : Dev) (n : Nat) : List Word :=
  let x := d.die n
  if x.st == 0 then [0, 0, 0, 0]
  else [pk [(x.st, 35, 34), (sat 16 x.spare, 33, 18), (sat 18 x.bad, 17, 0)],
    pk [(sat 18 (x.erased / max 1 d.bpd), 35, 18), (sat 18 x.top, 17, 0)], pk [(sat 18 x.endur, 35, 18), (x.temp, 17, 10)], 0]

end Sys2Proof.Machine
end

