-- ==== Sys2Proof/Machine/Delivery.lean ====
section
/-!
DEFINITION. Signed blocks on their way out: delivery to the head end, shipping to the standby, acknowledgements, receipts
and what an acknowledgement frees (spec 06, R161, R187–R194; 07, R203; 12, R341–R344; 18, R461).
-/

namespace Sys2Proof.Machine

/-- Blocks are delivered to the head end (R466): by a primary, with a lease or without, and through a handover. -/
def Dev.delivers (d : Dev) : Bool := d.primary || d.pair.st == 4

/-- Some session to the head end is UP. -/
def Dev.headUp (d : Dev) : Bool := d.sessUp 0 || d.sessUp 1

def Dev.setBlock (d : Dev) (b : Block) : Dev := { d with led := { d.led with blocks := NMap.put d.led.blocks b.bno b } }

/-- A signed block goes to the head end as a LEDGER_BLOCK message (R341, R342); with no session UP it waits (R338). -/
def Dev.sendBlock (d : Dev) (b : Block) (resend : Bool) : Dev :=
  if !d.headUp || b.sig.isNone then d
  else
    let d1 := (d.send 0 0x01 0 (pk [(b2n resend, 34, 34)] :: b.words)).setBlock
      { b with sent := some d.clk, resends := b.resends + b2n resend }
    let d2 := { d1 with led := { d1.led with sentB := max d1.led.sentB b.bno } }
    if resend then d2.count fBlkResent else d2

/-- The blocks not yet sent go in BNO order while the window holds them (R342). -/
def Dev.sendWindow (d : Dev) : Nat → Dev
  | 0 => d
  | fuel + 1 =>
    match d.led.blocks.find? fun p => decide (d.led.sentB < p.1) with
    | some (n, b) =>
      if d.delivers && d.headUp && b.sig.isSome && decide (n ≤ d.led.acked + d.txWindow) then
        Dev.sendWindow (d.sendBlock b b.sent.isSome) fuel
      else d
    | none => d

/-- Delivery goes on as far as it can. -/
def Dev.deliver (d : Dev) : Dev := d.sendWindow d.led.blocks.length

/-- The journal words of a block (R392): for each commit that has some its CSN, their number and the words (DESIGN CHOICE,
notes/assumptions/68.md). -/
def Dev.blockJournal (d : Dev) (b : Block) : List Word :=
  (NMap.keep d.sto.jour fun c _ => decide (b.first ≤ c) && decide (c ≤ b.last)).flatMap fun p => dw p.1 ++ [W p.2.length] ++ p.2

/-- The primary ships a block over the pair link, its journal words behind its trailer (R461). Port 2 is the pair
link. -/
def Dev.shipBlock (d : Dev) (b : Block) : Dev :=
  if !d.pair.link || !(d.pair.st == 3 || d.pair.st == 4) || b.sig.isNone then d
  else
    let q := d.nextSeq 1
    let d1 := { d with
      up := { d.up with txSeq := NMap.put d.up.txSeq 1 (if q = 2 ^ 36 - 1 then 1 else q + 1) }
      pair := { d.pair with shipped := max d.pair.shipped b.bno } }
    d1.sendLink 0x01 q (0 :: b.words ++ d.blockJournal b)

/-- BLOCK_TIME_LIMIT (R189): 250 ms after its first entry the open block seals. -/
def execBlockTimeLimit (t : Nat) (s : State) : Result := run t s fun d =>
  match d.led.openB with
  | some o => if d.passedMs o.since 250 then d.seal 1 else d
  | none => d

/-- The signature of the next block in BNO order is complete (R188–R190): it joins the chain, goes to the store, to the
head end and to the standby. -/
def Dev.blockSigned (d : Dev) : Dev :=
  match d.led.signQ with
  | [] => d
  | n :: r =>
    match NMap.find d.led.blocks n with
    | none => { d with led := { d.led with signQ := r } }
    | some b0 =>
      let b1 := { b0 with prev := d.led.prev }
      let b := { b1 with sig := some (d.signOctets (wordsOctets b1.signedWords)) }
      let d1 := ({ d with led := { d.led with signQ := r, signAt := d.clk, prev := sha384 (wordsOctets b.words) } }).setBlock b
      ((d1.storeItem 1 n b.words).deliver).shipBlock b

/-- BLOCK_SIGNED (R189): signing takes 1.6 ms, from the seal or from the end of the signing before it. -/
def execBlockSigned (t : Nat) (s : State) : Result := run t s fun d =>
  match d.led.signQ.head?.bind (NMap.find d.led.blocks) with
  | some b => if d.passedUs (max b.sealClk d.led.signAt) 1600 then d.blockSigned else d
  | none => d

/-- BLOCK_RESEND (R342): a block unacknowledged RESEND_MS after its last sending is sent again. -/
def execBlockResend (t bno : Nat) (s : State) : Result := run t s fun d =>
  match NMap.find d.led.blocks bno with
  | some b =>
    match b.sent with
    | some t0 => if d.delivers && decide (d.led.acked < bno) && d.passedMs t0 d.resendMs then d.sendBlock b true else d
    | none => d
  | none => d

/-- BLOCK_REQ (R344): blocks held are sent again in BNO order; those no longer held are answered by one BLOCK_GONE. -/
def execBlockReq (t ref first last : Nat) (s : State) : Result := run t s fun d =>
  if last < first || 1024 ≤ last - first || d.bnoSealed < first then d.count fBadSeg
  else
    let ns := (List.range (min last d.bnoSealed + 1 - first)).map (first + ·)
    let gone := ns.filter fun n => (NMap.find d.led.blocks n).isNone
    let d1 := ns.foldl (fun x n =>
      match NMap.find x.led.blocks n with
      | some b => x.sendBlock b true
      | none => x) d
    match gone.head?, gone.getLast? with
    | some a, some z => (d1.send 0 0x04 ref [W a, W z, W ((d.led.blocks.head?.map (·.1)).getD 0)]).count fBlkGone
    | _, _ => d1

/-! Receipts (R192, R193). -/

/-- What a receipt says of one frame: its slot and counter, STATUS, and the highest CSN among its entries. -/
structure RcptItem where
  slot   : Nat
  fctr   : Nat
  status : Nat
  csn    : Nat
deriving DecidableEq, Repr

/-- The item of one READING entry; none for other entries, for a removed slot's, and for those without a slot. -/
def Entry.rcpt (e : Entry) : Option RcptItem :=
  let b (i : Nat) : Word := e.body.getD i 0
  match e.slot with
  | some n =>
    if e.typ != 1 || (e.outcome == 3 && e.reason == 6) then none
    else
      let lost := e.outcome == 3 && (e.reason == 1 || e.reason == 5 || e.reason == 3 || e.reason == 4)
      let orig := joinW (b 7) (b 8)
      some ⟨n, fld (b 9) 35 4, b2n lost + 2 * b2n (e.outcome == 2), if orig == 0 then e.csn else orig⟩
  | none => none

/-- Items of one frame become one. -/
def mergeRcpt (xs : List RcptItem) (x : RcptItem) : List RcptItem :=
  match xs with
  | [] => [x]
  | y :: r =>
    if y.slot == x.slot && y.fctr == x.fctr then
      { y with status := y.status ||| x.status, csn := max y.csn x.csn } :: r
    else y :: mergeRcpt r x

/-- RECEIPT payload (R193). -/
def rcptPayload (xs : List RcptItem) : List Octet :=
  [0xA1] ++ octetsBE xs.length 1 ++ xs.flatMap (fun x => octetsBE x.fctr 4 ++ octetsBE x.status 1)
  ++ octetsBE ((xs.map RcptItem.csn).foldl max 0) 4

/-- A list in pieces of at most 16. -/
def chunks16 {α : Type} (xs : List α) : Nat → List (List α)
  | 0 => []
  | fuel + 1 => if xs.isEmpty then [] else xs.take 16 :: chunks16 (xs.drop 16) fuel

/-- The receipt jobs of one slot, its frames in FCTR order, up to 16 a job; MAIL is set (R192, R193). -/
def Dev.rcptJobs (d : Dev) (slot : Nat) (xs : List RcptItem) : Dev :=
  let pl := ((d.rec? slot).map MeterRec.pl).getD false
  let ys := xs.foldr (insertOn RcptItem.fctr) []
  (chunks16 ys ys.length).foldl (fun x c => x.queueJob
    { Job.base (.receipt (c.map RcptItem.fctr)) (some slot) 2 d.clk (d.clk + secT d.rcptDeadlineS) (rcptPayload c) with pl := pl })
    (d.updRec slot fun r => { r with mail := true })

/-- The receipts of the blocks newly covered; a slot that is not assigned gets none (R192). -/
def Dev.receipts (d : Dev) (bs : List Block) : Dev :=
  let items := (bs.flatMap fun b => b.entries.filterMap Entry.rcpt).foldl mergeRcpt []
  (items.map RcptItem.slot).eraseDups.foldl (fun x n =>
    if (x.rec? n).isSome then x.rcptJobs n (items.filter fun i => i.slot == n) else x) d

/-- A slot whose REMOVE is acknowledged becomes free; its interval entries are discarded where DISCARD_ON_REMOVE is 1
(R161, R398). -/
def Dev.freeSlot (d : Dev) (slot : Nat) : Dev :=
  let d1 := { d with led := { d.led with
    heldS := NMap.del d.led.heldS slot, recs := NMap.del d.led.recs slot, keys := NMap.del d.led.keys slot } }
  if d.discardOnRemove then d1.beginDiscard (some slot) else d1

/-- What an acknowledgement frees: slots held after removal (R161), and the places of ended commands (R203). What a command holds goes with
the last of its transactions: a TARIFF_CANCEL or FW_CANCEL still under way runs on. -/
def Dev.ackFrees (d : Dev) : Dev :=
  let d1 := (d.led.heldS.filter fun p => decide (p.2 ≤ d.led.acked)).foldl (fun x p => x.freeSlot p.1) d
  let gone := d1.cmd.tab.filter fun p => p.2.ended && !p.2.freed && decide (p.2.finalBno ≤ d1.led.acked)
  gone.foldl (fun (x : Dev) p => (x.setCmd { p.2 with freed := true }).forget p.1) d1

/-- BLOCK_ACK of a block by way of `port` (R184, R191, R192). -/
def Dev.blockAcked (d : Dev) (port bno csn : Nat) : Dev :=
  let newly := (d.led.blocks.filter fun p => decide (d.led.acked < p.1) && decide (p.1 ≤ bno)).map fun p => p.2
  let d1 := d.commit (mkEntry 0x06 1 d.now none 0 ([W bno] ++ dw csn ++ [pk [(port, 35, 35)]]))
  let d2 := { d1 with led := { d1.led with acked := bno } }
  ((d2.receipts newly).ackFrees).deliver

/-- A LEDGER_ACK that ends no fetch (R191, R343, R427). A block that has left the archive can differ in nothing. -/
def Dev.ledgerAck (d : Dev) (port bno csn : Nat) : Dev :=
  if d.led.sentB < bno then d.count fAckIgnored
  else if ((NMap.find d.led.blocks bno).map fun b => b.last != csn).getD false then d.count fAckBad
  else if bno ≤ d.led.acked || !d.ledgerRuns then d
  else d.blockAcked port bno csn

end Sys2Proof.Machine
end

