-- ==== Sys2Proof/Machine/Frames.lean ====
section
/-!
DEFINITION. MAC frames of IEEE 802.15.4 as octets: headers, the auxiliary security header, security and the frame check sequence
(spec 04, R100–R105, R109, R117, R557; 05, R136). PRESUMED: the layouts are those of the published standard
(notes/assumptions/59.md).
-/

namespace Sys2Proof

/-- Link quality of a signal-to-noise ratio in 0.25 dB (R82). -/
def lqOf (snr : Int) : Nat := (max 0 (min 255 snr)).toNat

/-- An address of a header by its mode, least significant octet first, and what follows. -/
def addrAt (mode : Nat) (os : List Octet) : Option (Addr × List Octet) :=
  match mode with
  | 0 => some (.none, os)
  | 2 => if os.length < 2 then none else some (.short (ofLE (os.take 2)), os.drop 2)
  | 3 => if os.length < 8 then none else some (.ext (BitVec.ofNat 64 (ofLE (os.take 8))), os.drop 8)
  | _ => none

/-- Whether a header holds a destination and a source PAN ID, by version, PAN ID compression and the two address modes. Between two
extended addresses the destination's is there with compression too, as in R557's frames (DEDUCED, notes/assumptions/59.md). -/
def pansAt (version : Nat) (comp : Bool) (dst src : Nat) : Bool × Bool :=
  if version < 2 then (dst != 0, src != 0 && !(comp && dst != 0))
  else if dst == 0 && src == 0 then (comp, false)
  else if dst == 0 then (false, !comp)
  else if src == 0 then (!comp, false)
  else if dst == 3 && src == 3 then (true, false)
  else (true, !comp)

/-- The MAC header that octets begin with (R100); none where they end before it does. -/
def parseMac (os : List Octet) : Option MacHdr :=
  let fc := ofLE (os.take 2)
  let bit (i : Nat) : Bool := fc.testBit i
  let version := fc / 2 ^ 12 % 4
  let seqLen := if version == 2 && bit 8 then 0 else 1
  let pans := pansAt version (bit 6) (fc / 2 ^ 10 % 4) (fc / 2 ^ 14)
  let a := os.drop (2 + seqLen)
  let b := a.drop (if pans.1 then 2 else 0)
  match addrAt (fc / 2 ^ 10 % 4) b with
  | none => none
  | some (dst, c) =>
    match addrAt (fc / 2 ^ 14) (c.drop (if pans.2 then 2 else 0)) with
    | none => none
    | some (src, rest) =>
      let n := os.length - rest.length
      if os.length < 2 + seqLen || a.length < (if pans.1 then 2 else 0) || c.length < (if pans.2 then 2 else 0) then none
      else
        some { ftype := fc % 8, version := version, sec := bit 3, ar := bit 5,
               seq := if seqLen == 0 then 0 else ofLE ((os.drop 2).take 1),
               dstPan := if pans.1 then some (ofLE (a.take 2)) else none, dst := dst, src := src, octets := n }

/-- An auxiliary security header: level, key identifier mode, frame counter, key index and octets. -/
structure AuxSec where
  level  : Nat
  kim    : Nat
  fctr   : Nat
  keyIdx : Nat
  octets : Nat
deriving DecidableEq, Repr

/-- The auxiliary security header that octets begin with. A suppressed frame counter leaves none. -/
def parseAux (os : List Octet) : Option AuxSec :=
  let sc := ofLE (os.take 1)
  let kim := sc / 8 % 4
  let n := 5 + [0, 1, 5, 9].getD kim 0
  if os.length < n || sc.testBit 5 then none
  else some ⟨sc % 8, kim, ofLE ((os.drop 1).take 4), ofLE ((os.drop (n - 1)).take 1), n⟩

/-- MIC octets of a security level (R103). -/
def micOf (level : Nat) : Nat := [0, 4, 8, 16].getD (level % 4) 0

/-- The nonce of a secured frame (R103): source EUI-64, frame counter, security level. -/
def secNonce (src : Eui) (fctr level : Nat) : List Octet := octetsBE src.toNat 8 ++ octetsBE fctr 4 ++ octetsBE level 1

/-- Octets without their last `n`. -/
def dropTail (n : Nat) (os : List Octet) : List Octet := os.take (os.length - n)

/-- The FCS of a frame passes (R99). -/
def fcsPass (fcs2 : Bool) (psdu : List Octet) : Bool :=
  let n := if fcs2 then 2 else 4
  decide (n ≤ psdu.length) && psdu.drop (psdu.length - n) == (if fcs2 then fcs16 else fcs32) (dropTail n psdu)

/-- A PSDU with its FCS. -/
def withFcs (fcs2 : Bool) (os : List Octet) : List Octet := os ++ (if fcs2 then fcs16 else fcs32) os

/-- The frame control field of a frame the device sends (R109, R557): type, security, frame pending, AR, PAN ID compression,
destination and source address modes, version 0b10. -/
def frameCtl (ftype : Nat) (sec pend ar : Bool) (dst src : Nat) : List Octet :=
  let bit (b : Bool) (i : Nat) : Nat := if b then 2 ^ i else 0
  octetsLE (ftype + bit sec 3 + bit pend 4 + bit ar 5 + 2 ^ 6 + dst * 2 ^ 10 + 2 * 2 ^ 12 + src * 2 ^ 14) 2

/-- An address's mode, and its octets on air. -/
def Addr.mode : Addr → Nat
  | .none => 0
  | .short _ => 2
  | .ext _ => 3

def Addr.wire : Addr → List Octet
  | .none => []
  | .short a => octetsLE a 2
  | .ext e => octetsLE e.toNat 8

/-- The MAC header of a frame the device sends (R557). -/
def sentHeader (ftype : Nat) (sec ar : Bool) (seq pan : Nat) (dst : Addr) (src : Eui) : List Octet :=
  frameCtl ftype sec false ar dst.mode 3 ++ octetsLE seq 1 ++ octetsLE pan 2 ++ dst.wire ++ octetsLE src.toNat 8

/-- The auxiliary security header of a frame the device sends (R557): key identifier mode 1. -/
def sentAux (level fctr keyIdx : Nat) : List Octet := octetsLE (level + 8) 1 ++ octetsLE fctr 4 ++ octetsLE keyIdx 1

/-- The acknowledgement PSDU (R109). -/
def ackPsdu (seq : Nat) (dst : Eui) (pend fcs2 : Bool) : List Octet :=
  withFcs fcs2 (frameCtl 2 false pend false 3 0 ++ octetsLE seq 1 ++ octetsLE dst.toNat 8)

/-- The 64 bits of a horn call's burst (R127): preamble, sync, the wake code with its group bit, and the CRC over it. -/
def hornBurst (wake : Nat) (grp : Bool) : List Octet :=
  let code := wake % 2 ^ 23 + (if grp then 2 ^ 23 else 0)
  [0xAA, 0xAA, 0xB3, 0x8F] ++ octetsBE code 3 ++ octetsBE (crc8 code 24) 1

/-- What security and the frame counter say of a frame from a slot (R103, R104). -/
inductive SecVerdict where
  | pass | secFail | counterEnd | replay
deriving DecidableEq, Repr

/-- A secured frame without its FCS, under keys by index (R103): header octets `n`, source, and the receive counter. Answers the
verdict of R103 and R104 with the auxiliary header and the plaintext payload. -/
def openFrame (keys : List (Nat × List Octet)) (rxCtr : Nat) (h : MacHdr) (src : Eui) (os : List Octet) :
    SecVerdict × AuxSec × List Octet :=
  match if h.sec then parseAux (os.drop h.octets) else none with
  | none => (.secFail, ⟨0, 0, 0, 0, 0⟩, [])
  | some x =>
    match keys.find? fun k => k.1 == x.keyIdx with
    | none => (.secFail, x, [])
    | some k =>
      if !(x.level == 5 || x.level == 6 || x.level == 7) || x.kim != 1 then (.secFail, x, [])
      else
        let hd := h.octets + x.octets
        let r := ccmOpen k.2 (secNonce src x.fctr x.level) (os.take hd) (os.drop hd) (micOf x.level)
        (if !r.2 then .secFail else if x.fctr == 0xFFFFFFFF then .counterEnd else if x.fctr ≤ rxCtr then .replay else .pass, x, r.1)

/-- A frame the device sends, secured or not, with its FCS: 2 octets on powerline (R117, R557; notes/assumptions/62.md). -/
def sealFrame (fcs2 : Bool) (sec : Option (List Octet × Nat × Nat × Nat)) (hdr : List Octet) (src : Eui) (payload : List Octet) : List Octet :=
  match sec with
  | none => withFcs fcs2 (hdr ++ payload)
  | some (key, level, fctr, idx) =>
    let a := hdr ++ sentAux level fctr idx
    withFcs fcs2 (a ++ ccmSeal key (secNonce src fctr level) a payload (micOf level))

end Sys2Proof
end

