-- ==== Sys2Proof/Machine/Validation.lean ====
section
/-!
DEFINITION. Validation and commit: frames taken from the received frames queues, meters' responses and reports, the
commit input, key swaps, the stale scan and the directory rebuild (spec 06, R166–R186, R195–R198, R556; 07, R208,
R214–R218, R221).
-/

namespace Sys2Proof.Machine

/-- A STATE entry of a slot whose record already stands as the entry leaves it (R182). -/
def stateEntry (cls time slot nonet before cause status fctr : Nat) : Entry :=
  mkEntry 0x03 cls time (some slot) nonet [pk [(before, 35, 27), (cause, 26, 19), (status, 18, 11)], pk [(fctr, 35, 4)]]

/-- A STATE entry with CAUSE 3, class C1 (R182); answers its CSN. -/
def Dev.stateByCommand (d : Dev) (slot before : Nat) : Nat × Dev :=
  d.append (stateEntry 1 d.now slot (d.nonet slot) before 3 0 0)

/-! Key swaps (R218). -/

/-- What a frame's first commit does to the slot's keys. -/
inductive KeyNews where
  | none | swapped
deriving DecidableEq, Repr

/-- The first commit of a frame under the next index swaps the keys; the first under the new index after a CTR_RESET
switch clears the pending bit (R218). -/
def Dev.keyFirst (d : Dev) (f : FrameInfo) : KeyNews × Dev :=
  match f.slot with
  | some n =>
    match d.rec? n with
    | some r =>
      if r.keyNextV && f.keyIdx == r.keyNext then (.swapped, d.swapKeys n false true)
      else if r.has sbKeyRot && !r.keyNextV && f.keyIdx == r.keyCur then
        (.swapped, d.updRec n fun x => x.setBit sbKeyRot false)
      else (.none, d)
    | none => (.none, d)
  | none => (.none, d)

/-- The open KEY_ROTATE transaction of a slot. -/
def Dev.keyTxn (d : Dev) (slot : Nat) : Option Txn :=
  (d.cmd.txns.find? fun p => p.2.slot == slot && p.2.isOpen && p.2.mcmd == 6 && ((d.cmd? p.2.cmd).map Cmd.kind) == some 5).map (·.2)

/-- After the last entry of a frame that swapped the keys: the per-meter OK entry, or a STATE entry where the
transaction has ended (R218). -/
def Dev.keyAfter (d : Dev) (slot before : Nat) (k : KeyNews) : Dev :=
  match k with
  | .none => d
  | .swapped =>
    match d.keyTxn slot with
    | some t => d.endTxn t rcOk 0 (keyDetail (((d.rec? slot).map MeterRec.keyCur).getD 0) t.reset) 0 t.exec
    | none => (d.stateByCommand slot before).2

/-- A frame that commits what `c` commits, with its key swap before and after (R218); one that commits nothing swaps
nothing. -/
def Dev.withKeys (d : Dev) (f : FrameInfo) (c : Dev → Dev) : Dev :=
  match f.slot with
  | some n =>
    let before := d.nonet n
    let k := d.keyFirst f
    let d1 := c k.2
    if d1.led.csn == d.led.csn then c d else d1.keyAfter n before k.1
  | none => c d

/-! Responses (R208, R214). -/

/-- A COMMAND_RESPONSE (R214): TXID, CMD, RESULT, EXEC_S and its body. -/
structure Response where
  txid : Nat
  cmd  : Nat
  res  : Nat
  exec : Nat
  body : List Octet
deriving DecidableEq, Repr

def parseResponse (os : List Octet) : Option Response :=
  let o (i n : Nat) : Nat := ofBE ((os.drop i).take n)
  if os.length < 13 then none else some ⟨o 1 5 % 2 ^ 36, o 6 1, o 7 1, o 8 5 % 2 ^ 36, os.drop 13⟩

/-- The length of a response agrees with its CMD (R214): a READ's body has the length its set calls for. A READ the meter refuses
carries no set. DEDUCED, notes/assumptions/21.md. -/
def Response.fits (r : Response) : Bool :=
  match r.cmd with
  | 1 => (decide (8 ≤ r.body.length) && r.body.length == setLength r.body) || (r.res != 0 && r.body.isEmpty)
  | 2 | 3 | 6 => r.body.length == 1
  | 4 | 5 => r.body.length == 2
  | _ => (parseReport r.body).isSome

/-- The octet `i` of a response's body. -/
def Response.octet (r : Response) (i : Nat) : Nat := ofBE ((r.body.drop i).take 1)

/-- DISCONNECT or RECONNECT answered: the disconnected bit follows RELAY whatever RESULT says (R216). -/
def Dev.relayAnswer (d : Dev) (t : Txn) (r : Response) : Dev :=
  let isOpen := r.octet 0 != 0
  (d.updRec t.slot fun x => x.setBit sbDisconnected isOpen).endTxn t (if r.res == 0 then rcOk else rcMeterRefused) r.res
    (b2n isOpen * 2 ^ 27) 0 r.exec

/-- TARIFF_STAGE answered (R221): staged, PROGRESS; refused, METER_REFUSED; done and not staged, the transaction just ends, for the cut to
tell. After a CANCEL the staged member is undone at once, and one not staged ends CANCELLED (R209, R221). DEDUCED,
notes/assumptions/21.md. -/
def Dev.stageAnswer (d : Dev) (t : Txn) (r : Response) : Dev :=
  let args := ((d.cmd? t.cmd).map Cmd.args).getD []
  let stopped := ((d.cmd? t.cmd).map Cmd.cancelled).getD false
  if r.res != 0 then d.endTxn t rcMeterRefused r.res (d.plainDetail t.cmd 4 t.slot) 0 r.exec
  else if r.octet 1 != 0 then
    let tt := fld (args.getD 0 0) 35 28
    let x : Txn := { t with st := .ended, staged := true, exec := r.exec }
    let d1 := ((d.closeTxn t).setTxn x).updRec t.slot fun m => { m with ttStaged := tt, stagedV := true }
    let d2 := d1.meterResult t.cmd 4 t.slot rcProgress t.last t.jobs 0 (tt * 2 ^ 20) 0 r.exec t.late
    if stopped then (d2.tariffUndo x (d.atSecond (args.getD 2 0).toNat)).cmdFinish t.cmd else d2
  else if stopped then d.endTxn t rcCancelled 0 (d.plainDetail t.cmd 4 t.slot) 0 r.exec
  else d.closeTxn t

/-- KEY_SWITCH answered under the current key (R218): the transaction waits for the meter's first frame under the new
one; refused, it ends. -/
def Dev.keyAnswer (d : Dev) (t : Txn) (r : Response) : Dev :=
  if r.res != 0 then d.endTxn t rcMeterRefused r.res (keyDetail (((d.rec? t.slot).map MeterRec.keyNext).getD 0) t.reset) 0 r.exec
  else ((d.setTxn { t with st := .keyWait, exec := r.exec }).withdraw (fun j => j.who == .txn t.cmd t.slot) (some t.slot))

/-- A KEY_SWITCH answered: under the new index already, its OK entry is the frame's commit (R218). -/
def Dev.keySwitchAnswered (d : Dev) (f : FrameInfo) (t : Txn) (r : Response) : Dev :=
  let k := d.keyFirst f
  (k.2.keyAnswer t r).keyAfter t.slot (d.nonet t.slot) k.1

/-- A response that matches an open transaction (R208). -/
def Dev.answered (d : Dev) (t : Txn) (r : Response) : Dev :=
  match r.cmd with
  | 1 => d.endTxn t rcMeterRefused r.res 0 0 r.exec
  | 2 | 3 => d.relayAnswer t r
  | 4 => d.stageAnswer t r
  | 5 => d.closeTxn t
  | _ =>
    match d.campOf t.cmd with
    | some id => d.campResponse id t r.res r.exec (parseReport r.body)
    | none => d

/-! Taking a frame. -/

/-- What validation knows of a packet's frame. -/
def Packet.info (p : Packet) (x : RxMeta) : FrameInfo :=
  { slot := p.slot, cls := p.cls, tag := p.time, stream := p.stream, sub := p.sub, lq := p.lq, pl := x.pl, fctr := x.fctr,
    keyIdx := x.keyIdx, src := x.src, shr := x.shr }

/-- Octets of an item of the commit input (notes/assumptions/18.md): eight words, and a response or report as it stands. -/
def CommitItem.octets (i : CommitItem) : Nat :=
  match i.kind with
  | .response _ os => min 2047 (octetsOfWords 8 + os.length)
  | .report _ os => min 2047 (octetsOfWords 8 + os.length)
  | _ => octetsOfWords 8

/-- An item joins the commit input in its class (R27, R50, R186). -/
def Dev.queueCommit (d : Dev) (i : CommitItem) : Dev := d.enqueue 2 i.cls (Item.packet (.commit i) i.cls i.tag i.octets i.slot)

/-- What validation makes of a frame joins the commit input. -/
def Dev.toCommit (d : Dev) (f : FrameInfo) (k : CommitKind) : Dev := d.queueCommit ⟨f.cls, f.tag, f.stream, f.sub, f.slot, k⟩

/-- A slot has a frame in validation or on its way to its commit (R172). -/
def Dev.valBusy (d : Dev) (slot : Nat) : Bool :=
  (NMap.find d.led.inVal slot).isSome || (d.items 2).any fun x => match x with | .commit i => i.slot == some slot | _ => false

def Dev.setVal (d : Dev) (slot : Nat) (v : Validating) : Dev :=
  { d with led := { d.led with inVal := NMap.put d.led.inVal slot v } }

/-- Results of a set's signature checks, one for each reading (R173). -/
def Validating.sig (v : Validating) (i : Nat) : Nat := if v.set.sigEach then v.sigs.getD i 0 else v.sigs.getD 0 0

/-- The interval ends a set needs the store's index for: those older than 64 intervals and those SEEN that a record marks
(R173, R174, R180, R558), each judged after the readings before it. -/
def Dev.needLook (d : Dev) (r : MeterRec) (v : Validating) : List (Nat × Reading) → List Nat
  | [] => []
  | (i, x) :: rest =>
    let j := d.judgeReading r v.info v.set x (v.sig i) none
    let back := (r.lastEnd - x.endS) / r.ivlS
    let want := r.lastCsn != 0 && decide (x.endS < r.lastEnd)
      && ((j.outcome == 2 && j.reason == 20) || (j.outcome == 3 && j.reason == 2 && 1 ≤ back))
    let r1 := r.afterReading v.set x (skewOf v.set.mclk v.info.shr) j 1
    (if want then [x.endS] else []) ++ d.needLook r1 v rest

/-- Verify units (R172). -/
def verifyUnits : Nat := 24

/-- What waits for a verify unit is ranked by class, then by time tag (R27, R28). -/
def Validating.rank (v : Validating) : Nat × Nat × Nat × Nat := (v.info.cls, v.info.tag, v.info.stream, v.info.sub)

/-- The free verify units take sets that wait for one, the first in order first (R27, R28). A block's signing takes
one as C0 (R189). -/
def Dev.assignUnits (d : Dev) : Nat → Dev
  | 0 => d
  | fuel + 1 =>
    if verifyUnits ≤ (d.led.inVal.filter fun p => p.2.unit).length + b2n (!d.led.signQ.isEmpty) then d
    else
      match bestBy (fun (a b : Nat × Validating) => before a.2.rank b.2.rank)
          (d.led.inVal.filter fun p => p.2.stage == .verify && !p.2.unit) with
      | some p => (d.setVal p.1 { p.2 with unit := true }).assignUnits fuel
      | none => d

/-- Signatures are known: the set waits for the index, or goes to the commit input (R173, R174). -/
def Dev.verified (d : Dev) (slot : Nat) (v : Validating) : Dev :=
  let r := (d.rec? slot).getD MeterRec.blank
  if (d.needLook r v (v.set.readings.mapIdx fun i x => (i, x))).isEmpty then
    (d.setVal slot { v with stage := .queued }).toCommit v.info (.run slot)
  else d.setVal slot { v with stage := .lookup }

/-- A reading set enters validation and waits for a verify unit; without a signature key nothing is verified (R173). -/
def Dev.takeSet (d : Dev) (slot : Nat) (f : FrameInfo) (x : ReadingSet) (resp : Option (Nat × Nat × Nat × Nat)) : Dev :=
  let v : Validating := ⟨f, x, .verify, [], [], false, resp⟩
  if (d.keyBlock slot).sigV then (d.setVal slot v).assignUnits verifyUnits
  else d.verified slot { v with sigs := x.sigs.map fun _ => 1 }

/-- What the transactions say of a response (R208): the open one it ends, or the counter it counts on. -/
def Dev.matches (d : Dev) (slot : Nat) (r : Response) : Txn ⊕ Fld :=
  match d.txn? r.txid slot with
  | none => .inr fStrayResp
  | some t =>
    if t.mcmd == r.cmd && t.isOpen then (if r.fits then .inl t else .inr fMalformedResp)
    else if t.mcmd == r.cmd || t.olds.contains r.cmd then .inr fDupResp
    else .inr fStrayResp

/-- A COMMAND_RESPONSE is taken (R208, R214): a READ's reading set is judged like any other (R215); any other response that ends an open
transaction goes on to the commit input. -/
def Dev.takeResponse (d : Dev) (slot : Nat) (f : FrameInfo) (os : List Octet) : Dev :=
  match parseResponse os with
  | none => d.count fMalformedResp
  | some r =>
    match d.matches slot r with
    | .inr c => d.count c
    | .inl _ =>
      match (if r.cmd == 1 then parseSet r.body else none) with
      | some x => d.takeSet slot f x (some (r.txid, r.res, r.exec, x.readings.length))
      | none => d.toCommit f (.response f os)

/-- A FIRMWARE_NACK is taken (R225). -/
def Dev.takeNack (d : Dev) (f : FrameInfo) (os : List Octet) : Dev :=
  match parseReport (os.drop 1) with
  | some _ => d.toCommit f (.report f os)
  | none =>
    let id := ofBE ((os.drop 1).take 1)
    if decide (id < 64) && (d.camp? id).isSome then d.count (fCampMalformed id) else d.count fStrayRpt

/-- The payload of a frame from an assigned slot (R167–R171). -/
def Dev.takePayload (d : Dev) (slot : Nat) (f : FrameInfo) (os : List Octet) : Dev :=
  match os.head? with
  | none => d.toCommit f (.reject f 3)
  | some o =>
    match o.toNat with
    | 0x10 =>
      match parseSet os with
      | some x => d.takeSet slot f x none
      | none => d.toCommit f (.reject f 3)
    | 0x30 =>
      let st := ofBE ((os.drop 1).take 1)
      if os.length == 2 && decide (st < 16) then d.toCommit f (.status f st) else d.toCommit f (.reject f 3)
    | 0x50 => d.takeResponse slot f os
    | 0x60 => d.takeNack f os
    | _ => d.toCommit f (.reject f 4)

/-- What a packet says of its frame beside its octets (R105): as the lane that wrote it says, or for one brought in by PACKET_WRITE as its
header octets say, its SHR start being its time tag; none where no header stands there. -/
def Packet.meta (p : Packet) (pl : Bool) : Option RxMeta :=
  match p.item with
  | .frame x => some x
  | _ =>
    let os := unpackOctets p.data
    match parseMac os with
    | none => none
    | some h =>
      let a := if h.sec then parseAux (os.drop h.octets) else none
      some { hdrLen := h.octets + ((a.map AuxSec.octets).getD 0), src := h.srcEui, fctr := (a.map AuxSec.fctr).getD 0,
             keyIdx := (a.map AuxSec.keyIdx).getD 0, shr := p.time, pl := pl, lane := 0 }

/-- A frame of the slot with an earlier time tag is on its way: in a received frames queue or held aside (R34). -/
def Dev.earlierFrame (d : Dev) (slot time : Nat) : Bool :=
  let sooner (p : Packet) : Bool := p.slot == some slot && decide (p.time < time)
  d.led.aside.any sooner || [0, 1].any fun g => (List.range 5).any fun c => (d.queue g c).all.any sooner

/-- A frame is held aside (R34, R172): its slot has a frame in validation, or an earlier one still to come. -/
def Dev.waitsAside (d : Dev) (p : Packet) : Bool :=
  match p.slot with
  | some n => d.valBusy n || d.earlierFrame n p.time
  | none => false

/-- A packet is taken up (R172, R556): a discovery frame, a frame held aside, one of a removed slot, or a payload. One whose octets begin
with no MAC header is committed MALFORMED (R41). -/
def Dev.takeFrame (d : Dev) (pl : Bool) (p : Packet) : Dev :=
  let x := (p.meta pl).getD ⟨0, 0, 0, 0, p.time, pl, 0⟩
  let f := p.info x
  match p.slot with
  | none => d.toCommit f (.discovery f 0 0 0 true)
  | some n =>
    if d.waitsAside p then
      { d with led := { d.led with aside := d.led.aside ++ [{ p with item := if (p.meta pl).isSome then .frame x else p.item }] } }
    else if (d.rec? n).isNone then d.toCommit f (.reject f 6)
    else if (p.meta pl).isNone then d.toCommit f (.reject f 3)
    else d.takePayload n f ((unpackOctets p.data).drop x.hdrLen)

/-- Frames held aside that need wait no longer go into validation, by class and time tag, until their slots have frames there (R34,
R172). -/
def Dev.releaseAside (d : Dev) : Nat → Dev
  | 0 => d
  | fuel + 1 =>
    match bestBy (fun (a b : Packet) => before (a.cls, a.time, a.stream, a.sub) (b.cls, b.time, b.stream, b.sub))
        (d.led.aside.filter fun p => !d.waitsAside p) with
    | some p => (({ d with led := { d.led with aside := d.led.aside.erase p } }).takeFrame false p).releaseAside fuel
    | none => d

/-- The frame validation takes next from a group: of the highest class that has one, but of none whose commit input applies
back-pressure (R27, R55). -/
def Dev.nextFrame (d : Dev) (g : Nat) : Option (Packet × Dev) :=
  (List.range 5).findSome? fun c =>
    if (d.queue 2 c).pressing then none
    else match (d.queue g c).ring with
      | [] => none
      | p :: _ => some (p, d.takeOut g c p)

/-- VALIDATE_FRAME (R41, R172, R173): none is taken while 4,096 frames are held aside, and none once the holdup has sealed the ledger.
Whether an RF or a powerline frame is taken, the spec does not say: the command names the queues (DESIGN CHOICE,
notes/assumptions/58.md). -/
def execValidateFrame (t : Nat) (pl : Bool) (s : State) : Result := run t s fun d =>
  if !d.ledgerRuns then d
  else
    let d1 := (d.releaseAside d.led.aside.length).discard (b2n pl) false
    if 4096 ≤ d1.led.aside.length then d1
    else
      match d1.nextFrame (b2n pl) with
      | some (p, d2) => d2.takeFrame pl p
      | none => d1

/-- VERIFY_DONE (R169, R173): the set a verify unit has is checked, each signature under the slot's key, and the unit takes the next. -/
def execVerifyDone (t slot : Nat) (s : State) : Result := run t s fun d =>
  match NMap.find d.led.inVal slot with
  | some v =>
    if v.stage != .verify || !v.unit then d
    else
      let eui := ((d.rec? slot).map MeterRec.eui).getD v.info.src
      let d1 : Dev := { d with led := { d.led with verAt := d.clk } }
      (d1.verified slot { v with unit := false, sigs := v.set.sigs.map ((d.keyBlock slot).check eui) }).assignUnits verifyUnits
  | none => d

/-- INDEX_LOOKUP (R174). -/
def execIndexLookup (t slot : Nat) (s : State) : Result := run t s fun d =>
  match NMap.find d.led.inVal slot with
  | some v =>
    if v.stage != .lookup then d
    else
      let r := (d.rec? slot).getD MeterRec.blank
      let ends := d.needLook r v (v.set.readings.mapIdx fun i x => (i, x))
      let found := ends.foldl (fun a e => let q := a.2.indexFind slot e; (a.1 ++ [(e, q.1)], q.2)) (([] : List (Nat × Option Nat)), d)
      (found.2.setVal slot { v with stage := .queued, look := found.1 }).toCommit v.info (.run slot)
  | none => d

/-! Commits (R176–R186). -/

/-- A committed reading, with the record before it, for the balance engine (R242). -/
structure Committed where
  was : MeterRec
  x   : Reading
  j   : Judgement
deriving DecidableEq, Repr

/-- The counter of an outcome (R201). -/
def outcomeFld (o : Nat) : Fld := [fAccepted, fFlagged, fQuarantined].getD o fRejected

/-- One reading of a run is judged and committed (R34, R173, R177, R180, R390); `more` says that another follows. An interval the index
did not know when the set was looked up may have been committed by an earlier reading of the set. -/
def Dev.commitReading (d : Dev) (slot : Nat) (v : Validating) (i : Nat) (x : Reading) (more : Bool) : Committed × Dev :=
  let r := (d.rec? slot).getD MeterRec.blank
  let skew := skewOf v.set.mclk v.info.shr
  let need := !(d.needLook r v [(i, x)]).isEmpty
  let q : Option Nat × Dev := if !need then (none, d)
    else match v.look.find? fun p => p.1 == x.endS with
      | some p => (p.2.orElse fun _ => (NMap.find (NMap.look d.sto.idx slot []) x.endS).map IvlEntry.csn, d)
      | none => d.indexFind slot x.endS
  let j := d.judgeReading r v.info v.set x (v.sig i) q.1
  let csn := q.2.led.csn
  let r1 := r.afterReading v.set x skew j csn
  let e := { mkEntry 0x01 v.info.cls v.info.tag (some slot) r1.nonet
      (readingBody v.info v.set (r.reported v.set x) x i skew j.orig) with
    outcome := j.outcome, reason := j.reason, flags := j.flags }
  let d1 := ((q.2.setRec slot r1).append e more).2.count (outcomeFld j.outcome)
  let d2 := if v.set.compact && r.regN != 0 && j.outcome ≤ 1 then d1.journal csn [1] else d1
  (⟨r, x, j⟩, if j.indexed then d2.indexPut slot x.endS ⟨j.outcome, j.flags, csn, x.regs.getD 0 0⟩ else d2)

/-- The readings of a set, in one indivisible run (R34). -/
def Dev.commitRun (d : Dev) (slot : Nat) (v : Validating) : List (Nat × Reading) → List Committed × Dev
  | [] => ([], d)
  | (i, x) :: rest =>
    let a := d.commitReading slot v i x (!rest.isEmpty)
    let b := a.2.commitRun slot v rest
    (a.1 :: b.1, b.2)

/-- The READ transaction a set answers ends (R208, R211, R215). -/
def Dev.readAnswered (d : Dev) (slot first : Nat) (v : Validating) : Dev :=
  match v.resp with
  | none => d
  | some (cmd, res, exec, n) =>
    match d.txn? cmd slot with
    | some t =>
      if t.isOpen && t.mcmd == 1 then
        d.endTxn t (if res == 0 then rcOk else rcMeterRefused) res (n * 2 ^ 20) first exec
      else d.count fDupResp
    | none => d

/-- A frame rejected as a whole (R167, R170, R556). -/
def Dev.commitReject (d : Dev) (f : FrameInfo) (reason : Nat) : Dev :=
  let st := match f.slot with | some n => d.nonet n | none => 0
  (d.commit { mkEntry 0x01 f.cls f.tag f.slot st (wholeFrameBody f) with outcome := 3, reason := reason }).count fRejected

/-- A set's readings are committed; a slot removed meanwhile gives one entry with reason REMOVED (R556). -/
def Dev.commitSet (d : Dev) (slot : Nat) (v : Validating) : Dev :=
  if (d.rec? slot).isNone then d.commitReject v.info 6
  else
    let first := d.led.csn
    let before := d.nonet slot
    let k := d.keyFirst v.info
    let a := k.2.commitRun slot v (v.set.readings.mapIdx fun i x => (i, x))
    let d1 := (a.2.keyAfter slot before k.1).readAnswered slot first v
    a.1.foldl (fun y c => y.contribute slot c.was v.set c.x c.j) d1

/-- A response ends its transaction (R208); a READ's whose set is MALFORMED commits one rejected entry first (R170, R215). Its CMD_ID may have
ended since it was taken. -/
def Dev.commitResponse (d : Dev) (f : FrameInfo) (os : List Octet) : Dev :=
  match f.slot, parseResponse os with
  | some n, some r =>
    if (d.rec? n).isNone then d.commitReject f 6
    else match d.matches n r with
      | .inr c => d.count c
      | .inl t =>
        if r.cmd == 6 then d.keySwitchAnswered f t r
        else d.withKeys f fun y =>
          if r.cmd == 1 && !r.body.isEmpty then
            let first := y.led.csn
            (y.commitReject f 3).endTxn t (if r.res == 0 then rcOk else rcMeterRefused) r.res (ofBE ((r.body.drop 1).take 1) * 2 ^ 20)
              first r.exec
          else y.answered t r
  | _, _ => d

/-- A campaign report (R225, R228). -/
def Dev.commitReport (d : Dev) (f : FrameInfo) (os : List Octet) : Dev :=
  match f.slot, parseReport (os.drop 1) with
  | some n, some p => if (d.rec? n).isNone then d.commitReject f 6 else d.withKeys f fun y => y.takeReport n p
  | _, _ => d

/-- METER_STATUS (R171, R182). -/
def Dev.commitStatus (d : Dev) (f : FrameInfo) (st : Nat) : Dev :=
  match f.slot with
  | some n =>
    if (d.rec? n).isNone then d.commitReject f 6
    else d.withKeys f fun y =>
      let before := y.nonet n
      let bit (i : Nat) : Bool := st / 2 ^ i % 2 == 1
      let y1 := y.updRec n fun r =>
        let r1 := (r.setBit sbAlarm (bit 0)).setBit sbTamper (bit 1)
        if bit 3 then r1.setBit sbOutage false else if bit 2 then r1.setBit sbOutage true else r1
      y1.commit (stateEntry f.cls f.tag n (y1.nonet n) before 1 st f.fctr)
  | none => d

/-- The announcer list with an EUI's commit at device time `t` (R181): its own entry again, a free place, the entry whose hold
expired first, or the one with the oldest commit, which is the same entry. -/
def announce (l : List (Eui × Nat)) (e : Eui) (t : Nat) : List (Eui × Nat) :=
  let rest := l.filter fun p => p.1 != e
  if rest.length < 4096 then rest ++ [(e, t)]
  else
    match bestBy (fun (a b : Eui × Nat) => decide (a.2 < b.2)) rest with
    | some o => (rest.filter fun p => p.1 != o.1) ++ [(e, t)]
    | none => [(e, t)]

/-- DISCOVERY (R181); an announcement within its hold is suppressed. -/
def Dev.commitDiscovery (d : Dev) (f : FrameInfo) (mtype mods sweep : Nat) (ann : Bool) : Dev :=
  if ann && d.led.ann.any fun p => p.1 == f.src && decide (d.now < p.2 + secT d.annHoldS) then d.count fAnnSuppr
  else
    let d1 := d.commit (mkEntry 0x02 4 f.tag none 0
      [pk [(f.src.toNat / 2 ^ 32, 35, 4)], pk [(f.src.toNat, 35, 4)],
        pk [(mtype, 35, 20), (mods, 19, 16), (f.stream, 15, 11), (b2n f.pl, 10, 10), (b2n ann, 9, 9)],
        pk [(sweep, 35, 20), (f.lq, 19, 12)]])
    if ann then { d1 with led := { d1.led with ann := announce d1.led.ann f.src d1.now } } else d1

/-- DIR_SWITCH (R185, R198): the new tables serve alone, if the rebuild still waits for it. -/
def Dev.commitSwitch (d : Dev) : Dev :=
  if d.led.rebuild.st != .switch then d else
  let n := d.led.rebuild.new
  let d1 := d.commit (mkEntry 0x07 1 d.now none 0 [pk [(d.led.dir.log2, 35, 31), (n.log2, 30, 26)], W n.count, W n.gen])
  ({ d1 with led := { d1.led with dir := n, rebuild := { d1.led.rebuild with st := .release, since := d1.clk } } }).dirEvents

/-- An item is committed. -/
def Dev.commitItem (d : Dev) (i : CommitItem) : Dev :=
  match i.kind with
  | .run slot =>
    match NMap.find d.led.inVal slot with
    | some v => ({ d with led := { d.led with inVal := NMap.del d.led.inVal slot } }).commitSet slot v
    | none => d
  | .reject f reason =>
    if reason == 6 then d.commitReject f 6
    else match f.slot with
      | some n => if (d.rec? n).isNone then d.commitReject f 6 else d.withKeys f fun y => y.commitReject f reason
      | none => d.commitReject f reason
  | .status f st => d.commitStatus f st
  | .response f os => d.commitResponse f os
  | .report f os => d.commitReport f os
  | .discovery f mtype mods sweep ann => d.commitDiscovery f mtype mods sweep ann
  | .dirSwitch => d.commitSwitch

/-- The order of items at the arbiter (R27, R28, R186). -/
def CommitItem.first (a b : CommitItem) : Bool := before (a.cls, a.tag, a.stream, a.sub) (b.cls, b.tag, b.stream, b.sub)

/-- The visible items of the commit input, each with its packet. -/
def Dev.committable (d : Dev) : List (Packet × CommitItem) :=
  (List.range 5).flatMap fun c => (d.queue 2 c).ring.filterMap fun p => match p.item with | .commit i => some (p, i) | _ => none

/-- The item the arbiter gives to a port next (R27, R28, R186). -/
def Dev.firstItem (d : Dev) : Option (Packet × CommitItem) :=
  bestBy (fun (a b : Packet × CommitItem) => CommitItem.first a.2 b.2) d.committable

/-- The first waiting item is given to a port and committed (R186). -/
def Dev.commitNext (d : Dev) : Dev :=
  let d1 := d.discard 2 true
  match d1.firstItem with
  | none => d1
  | some (p, i) =>
    let d2 := (d1.takeOut 2 i.cls p).commitItem i
    d2.releaseAside d2.led.aside.length

/-- COMMIT (R186). -/
def execCommit (t : Nat) (s : State) : Result := run t s fun d => if d.ledgerRuns then d.commitNext else d

/-- The commit input is drained (R426, R472): every item that waits is committed. -/
def Dev.drainCommits (d : Dev) : Nat → Dev
  | 0 => d
  | fuel + 1 => if (d.items 2).isEmpty || !d.ledgerRuns then d else Dev.drainCommits (d.fillGroup 2).commitNext fuel

/-- Every item of the commit input, and what held frames become once theirs is committed. -/
def Dev.drainInput (d : Dev) : Dev := d.drainCommits ((d.items 2).length + d.led.aside.length)

/-- Waiting items that rank before an entry of class `c` tagged `tag` take their CSNs before it does. -/
def Dev.passFrom (d : Dev) (c tag : Nat) : Nat → Dev
  | 0 => d
  | fuel + 1 =>
    match d.firstItem with
    | some (_, i) =>
      if d.ledgerRuns && before (i.cls, i.tag, i.stream, i.sub) (c, tag, 0, 0) then (d.commitNext).passFrom c tag fuel else d
    | none => d

/-- What the balance engine, command results and other units commit in class `c` goes through the same arbiter (R27, R28, R186): items that
rank before it are committed first. -/
def Dev.letPass (d : Dev) (c : Nat) : Dev := d.passFrom c d.now ((d.items 2).length + d.led.aside.length)

/-! The stale scan (R166). -/

/-- A record in use whose device time less LAST_END is above STALE_MULT intervals, and which is not stale yet (R166). -/
def Dev.isLate (d : Dev) (r : MeterRec) : Bool :=
  r.inUse && !r.has sbStale && decide ((r.lastEnd + d.staleMult * r.ivlS) * 2 ^ 36 < d.now)

/-- A slot's record turns stale, with a STATE entry of CAUSE 2, class C2 (R166, R182). -/
def Dev.markStale (d : Dev) (slot : Nat) (r : MeterRec) : Dev :=
  let y := d.setRec slot (r.setBit sbStale true)
  y.commit (stateEntry 2 y.now slot (y.nonet slot) r.nonet 2 0 0)

/-- STALE_SCAN (R166): every 60 s of device time. -/
def execStaleScan (t : Nat) (s : State) : Result := run t s fun d =>
  if !d.ledgerRuns || !d.tb.set || d.nowS / 60 == d.led.scan / 60 then d
  else
    let e := d.letPass 2
    let d0 : Dev := { e with led := { e.led with scan := e.nowS } }
    if d.staleMult == 0 then d0 else (e.led.recs.filter fun p => d.isLate p.2).foldl (fun (x : Dev) p => x.markStale p.1 p.2) d0

/-! The directory rebuild (R195–R198). -/

/-- A DIR_SWITCH that waits is withdrawn (R196). -/
def Dev.noSwitch (d : Dev) : Dev :=
  d.dropItems 2 fun x => match x with | .commit i => i.kind == .dirSwitch | _ => false

/-- A rebuild is aborted for a cause of R415. -/
def Dev.abortRebuild (d : Dev) (cause : Nat) : Dev :=
  ({ d with led := { d.led with rebuild := { d.led.rebuild with st := .abort, since := d.clk, cause := cause } } }).noSwitch

/-- REBUILD_WALK_DONE (R196, R197): `err` says that a position read with an uncorrectable error. -/
def execRebuildWalkDone (t : Nat) (err : Bool) (s : State) : Result := run t s fun d =>
  let b := d.led.rebuild
  if b.st != .build then d
  else if err then d.abortRebuild 1
  else
    match DirSet.copyIn d.led.dir.entries b.new d.draws with
    | none => d.abortRebuild 0
    | some (n, k) =>
      ({ d with draws := k, led := { d.led with rebuild := { b with st := .switch, since := d.clk, new := n } } }).queueCommit
        ⟨1, d.now, 0, 0, none, .dirSwitch⟩

/-- A rebuild is over. -/
def Dev.rebuildIdle (d : Dev) : Dev :=
  { d with led := { d.led with rebuild := ⟨.idle, d.clk, 0, 0, DirSet.empty⟩ } }

/-- A rebuild's command ends with its final summary (R210). -/
def Dev.rebuildSummary (d : Dev) (id reason : Nat) : Dev :=
  match d.cmd? id with
  | some c =>
    let r := d.summary id 0x0B reason false 0 0 0 none
    r.2.setCmd { c with ended := true, reason := reason, csn := r.1, finalBno := d.led.bno }
  | none => d

/-- REBUILD_RELEASE_END (R196): 4 µs after the DIR_SWITCH commit. -/
def execRebuildReleaseEnd (t : Nat) (s : State) : Result := run t s fun d =>
  let b := d.led.rebuild
  if b.st == .release && d.passedUs b.since 4 then ((d.letPass 1).rebuildIdle).rebuildSummary b.cmd rcComplete else d

/-- REBUILD_ABORT (R196): 4 µs after the abort. -/
def execRebuildAbort (t : Nat) (s : State) : Result := run t s fun d =>
  let b := d.led.rebuild
  if b.st == .abort && d.passedUs b.since 4 then (((d.letPass 1).rebuildIdle).rebuildSummary b.cmd rcFailed).raise 0x023 [b.cause] else d

end Sys2Proof.Machine
end

