-- ==== Sys2Proof/Machine/Results.lean ====
section
/-!
DEFINITION. Key swaps and where the result of a downlink job goes (spec 04, R118; 06, R194; 07, R207, R217, R218).
-/

namespace Sys2Proof.Machine

/-- The KEY_SWITCH of a CTR_RESET rotation has been acknowledged: a PROGRESS entry, and the keys are swapped (R218), unless a frame
committed before has ended the transaction. -/
def Dev.keySwitchAcked (d0 : Dev) (t : Txn) : Dev :=
  let d := d0.letPass 1
  let idx := ((d.rec? t.slot).map MeterRec.keyNext).getD 0
  if ((d.txn? t.cmd t.slot).map Txn.isOpen).getD false then
    ((d.swapKeys t.slot true false).meterResult t.cmd 5 t.slot rcProgress t.last t.jobs 0 (keyDetail idx true) 0 0 t.late).setTxn
      { t with st := .keyWait }
  else d

/-- A transaction past its deadline ends as its last job's result says (R207, R208, R228); a TARIFF_STAGE is left for the cut,
which tells a silent member from the others (R221). -/
def Dev.txnDeadline (d0 : Dev) (t0 : Txn) : Dev :=
  let d := d0.letPass 1
  let t := (d.txn? t0.cmd t0.slot).getD t0
  match d.cmd? t.cmd with
  | none => d
  | some c =>
    if !t.isOpen then d
    else if c.kind == 6 then
      match d.campOf t.cmd with
      | some id => d.campDeadline id t
      | none => d
    else if c.kind == 4 then
      if t.mcmd == 4 && c.cancelled then d.endTxn t t.deadlineCode 0 (d.plainDetail t.cmd 4 t.slot) 0 0
      else if t.mcmd == 4 then (d.withdraw (fun j => j.who == .txn t.cmd t.slot) (some t.slot)).setTxn { t with st := .resp }
      else d.closeTxn t
    else
      let det := if c.kind == 5 then keyDetail (((d.rec? t.slot).map MeterRec.keyNext).getD 0) t.reset else 0
      d.endTxn t t.deadlineCode 0 det 0 0

/-- The meter has acknowledged a KEY_SWITCH with CTR_RESET, and its keys are still to be swapped (R218). -/
def Txn.switched (t : Txn) : Bool := t.reset && t.mcmd == 6 && t.last == 0 && t.st == .resp

/-- The job of a transaction has ended (R207); while the ledger does not run, what follows waits. -/
def Dev.txnJobDone (d : Dev) (cmd slot res : Nat) : Dev :=
  match d.txn? cmd slot with
  | none => d
  | some t0 =>
    if t0.st != .job then d
    else
      let t := { t0 with last := res }
      if !d.ledgerRuns then d.setTxn { t with st := .resp, wait := d.clk }
      else if res == 0 && t.reset && t.mcmd == 6 then d.keySwitchAcked t
      else if t.deadline ≤ d.clk then (d.setTxn t).txnDeadline t
      else if res == 0 then d.setTxn { t with st := .resp, wait := d.clk }
      else (d.setTxn t).tryAny t

/-- Beacons that missed their deadlines (R325, R329). -/
def fBeaconSkip : Fld := ⟨0x0469, 17, 0⟩

/-- The result of a downlink job goes back to the unit that queued it (R118). -/
def Dev.jobDone (d : Dev) (j : Job) (res : Nat) : Dev :=
  match j.who with
  | .txn cmd slot => d.txnJobDone cmd slot res
  | .receipt _ => if res ≤ 1 then d.count fRcptSent else d.count fRcptDrop
  | .camp id slot => (d.letPass 1).unicastDone id slot j (res == 0)
  | .beacon => if res ≤ 1 then d else d.count fBeaconSkip
  | .fwBlock id ti => (d.updTarget id ti fun g => { g with list := g.list.drop 1 }).roundNext id ti
  | .fwEnd id ti => d.updTarget id ti fun g => { g with phase := 2, since := d.clk }
  | .group id ti => d.updTarget id ti fun g => { g with phase := if res ≤ 1 then 5 else 0, since := d.clk }
  | _ => d

/-! Lateness at the moment of sending (R219, R220). -/

/-- Octets with those from `i` on replaced by as many zeros as `n`. -/
def zeroAt (i n : Nat) (os : List Octet) : List Octet := os.take i ++ List.replicate n 0 ++ os.drop (i + n)

/-- When a transaction's action is due, the policy it follows, and the octets of its COMMAND payload that hold the time: AT_S, or the ACT_S
of FW_ACTIVATE (R213, R219). -/
def Dev.actionOf (d : Dev) (t : Txn) : Option (Nat × Policy × Nat) :=
  if t.mcmd == 8 then ((d.campOf t.cmd).bind d.camp?).map fun c => (c.actS, d.polCampAct, 13)
  else if t.atS == 0 then none
  else some (t.atS, d.polMeterAt, 7)

/-- An action that has become late while its job waited (R219): a job about to leave at device time `first`. Where it may still run, its
payload carries 0 for the time from now on; where it may not, the answer is false and its transaction is to end. A retry that has become
late is a new frame: it cannot be the identical one of R117 and obey R219 and R220 (DEDUCED, notes/assumptions/24.md). -/
def Dev.lateNow (d : Dev) (j : Job) (first : Nat) : Bool × Job × Dev :=
  match j.who with
  | .txn cmd slot =>
    match d.txn? cmd slot with
    | some t =>
      match d.actionOf t with
      | some (at', p, i) =>
        if at' == 0 || t.late || decide (first < at' * 2 ^ 36) then (true, j, d)
        else if p.runs (first / 2 ^ 36 - at') then
          (true, { j with payload := zeroAt i 5 j.payload, frame := none }, (d.setTxn { t with late := true }).count fLateRun)
        else (false, j, d)
      | none => (true, j, d)
    | none => (true, j, d)
  | _ => (true, j, d)

/-- The transaction of a job that may not run late ends SKIPPED (R219): a FW_ACTIVATE's member in state EXCLUDED, with FW_CANCEL sent. -/
def Dev.skipLate (d0 : Dev) (j : Job) : Dev :=
  let d := d0.letPass 1
  match j.who with
  | .txn cmd slot =>
    match (d.txn? cmd slot).filter Txn.isOpen with
    | some t =>
      match (if t.mcmd == 8 then d.campOf cmd else none) with
      | some id =>
        (((((d.count fLateSkip).raise 0x040 [cmd, 2] (some slot)).closeTxn t).memberTo id slot 11 rcSkipped 0 0).sendCancel id slot)
      | none =>
        ((d.count fLateSkip).raise 0x040 [cmd, 0] (some slot)).endTxn t rcSkipped 0
          (d.plainDetail cmd (((d.cmd? cmd).map Cmd.kind).getD 0) slot) 0 0
    | none => d
  | _ => d

/-- A job ends with a result: it leaves its table, and the result goes to the unit that queued it. -/
def Dev.endJob (d : Dev) (pl : Bool) (id res : Nat) : Dev :=
  match NMap.find (if pl then d.pl.jobs else d.air.jobs) id with
  | some j => (d.dropJob pl id).jobDone j res
  | none => d

end Sys2Proof.Machine
end

