-- ==== Sys2Proof/Machine/PlStreams.lean ====
section
/-!
DEFINITION. Powerline streams, lanes and sweeps as they stand, and their end when a source goes (spec 05, R131–R135,
R154, R157).
-/

namespace Sys2Proof.Machine

/-- A job goes back to its table (R76, R135). -/
def Dev.jobBack (d : Dev) (pl : Bool) (j : Option Nat) : Dev :=
  let back (m : NMap Job) : NMap Job :=
    match j.bind (NMap.find m) with
    | some x => NMap.put m (j.getD 0) { x with lane := none }
    | none => m
  if pl then { d with pl := { d.pl with jobs := back d.pl.jobs } } else { d with air := { d.air with jobs := back d.air.jobs } }

/-- The job a powerline lane holds goes back to the job table. -/
def Dev.plReturnJob (d : Dev) (s : Nat) : Dev := d.jobBack true (d.plLane s).job

/-- A powerline lane is IDLE again and keeps the job whose attempt resumes (R145), and until when its own samples blank its stream;
its medium counts as idle from the running-axis instant `idle` (R144). -/
def Dev.plIdleFrom (d : Dev) (s idle : Nat) : Dev :=
  let l := d.plLane s
  d.setPlLane s { PlLane.init with
    st := .idle, job := l.job, be := l.be, busy := l.busy, idle := idle, blank := l.blank, since := d.clk }

/-- A powerline lane is IDLE again, its medium idle from now on. -/
def Dev.plIdle (d : Dev) (s : Nat) : Dev := d.plIdleFrom s d.clk

def Sweep.init : Sweep :=
  { st := .idle, id := 0, stack := [], cur := (0, 0), found := [], heard := false, reps := [], since := 0, todo := [],
    fail := false, never := [], trunc := false, last := 0, aborted := false }

def Dev.sweep (d : Dev) (s : Nat) : Sweep := NMap.look d.pl.sweep s Sweep.init

def Dev.setSweep (d : Dev) (s : Nat) (w : Sweep) : Dev :=
  { d with pl := { d.pl with sweep := NMap.put d.pl.sweep s w } }

/-- A sweep is aborted: nothing is committed, it has ended ABORTED, and its jobs that have not started leave the queue, the job table and
its lane (R154). -/
def Dev.abortSweep (d : Dev) (s : Nat) : Dev :=
  let w := d.sweep s
  if w.st == .idle then d
  else (d.setSweep s { Sweep.init with id := w.id, last := w.last, aborted := true }).withdraw
    (fun j => j.who == .sweep && j.via.map (fun v => v.1) == some s) none

/-- A powerline lane goes OFF: its job returns to the job table, and its stream's sweep is aborted (R135, R154). A frame
in HOLD is kept for its hold close (R76, R133). -/
def Dev.plOff (d : Dev) (s : Nat) : Dev :=
  let l := d.plLane s
  if l.st == .off then d
  else
    let off := if l.st == .hold then { l with st := .off, job := none } else PlLane.init
    ((d.plReturnJob s).setPlLane s off).abortSweep s

/-- A powerline lane begins to listen; a local front end is given its stream's receive gain (R132, R135, R544). -/
def Dev.plBegin (d : Dev) (s : Nat) : Dev :=
  let x := d.setPlLane s { PlLane.init with st := .idle, idle := d.clk, since := d.clk }
  if d.plSrcLink s then x else x.emit (.plGain (d.plPos s) (d.plGain s))

/-- A powerline lane that is OFF becomes IDLE where its three conditions hold, and OFF where they do not (R135). -/
def Dev.plRefresh (d : Dev) (s : Nat) : Dev :=
  if d.plUp s then if (d.plLane s).st == .off then d.plBegin s else d
  else d.plOff s

/-- Powerline lanes in RX on a link whose samples were lost return to IDLE (R70, R133). -/
def Dev.plGap (d : Dev) (k : Nat) : Dev :=
  (d.plStreamsOf k).foldl (fun x s => if (x.plLane s).st == .rx then x.plIdle s else x) d

end Sys2Proof.Machine
end

