-- ==== Sys2Proof/Machine/Links.lean ====
section
/-!
DEFINITION. Field links and their commands (spec 03, R63, R66–R77; 05, R133).
-/

namespace Sys2Proof.Machine

/-! Link counters (R77). -/

def fFramesOk (k : Nat) : Fld := ⟨0x0500 + 8 * k + 2, 35, 0⟩
def fCrcErr (k : Nat) : Fld := ⟨0x0500 + 8 * k + 3, 35, 18⟩
def fSeqGap (k : Nat) : Fld := ⟨0x0500 + 8 * k + 3, 17, 0⟩
def fLockLoss (k : Nat) : Fld := ⟨0x0500 + 8 * k + 4, 35, 18⟩
def fCtrlDrop (k : Nat) : Fld := ⟨0x0500 + 8 * k + 4, 17, 0⟩

def LinkSt.code : LinkSt → Nat
  | .off => 0 | .locking => 1 | .aligning => 2 | .up => 3 | .lost => 4

/-- A link's one-way delay in ns, as far as the link goes (R73, R111). -/
def Link.fullNs (l : Link) : Nat := l.delay.toNat * 1000000000 / 2 ^ 36

/-- DELAY_NS of a link's status block (R77). -/
def Link.delayNs (l : Link) : Nat := min l.fullNs 262143

/-- OFFSET_NS of a link's status block (R77). -/
def Link.offsetNs (l : Link) : Int := max (-131071) (min 131071 (Int.tdiv (l.offset * 1000000000) (2 ^ 36)))

/-! Block lock (R66, R76). -/

/-- 64 consecutive valid sync headers give block lock (R66, R76). -/
def gainsLock (line : List LineBlock) : Bool := line.length == 64 && line.all LineBlock.valid

/-- 16 invalid sync headers in 64 blocks lose it (R66, R76). -/
def losesLock (line : List LineBlock) : Bool :=
  decide (line.length ≤ 64) && decide (16 ≤ (line.filter fun b => !b.valid).length)

/-! The blocks of a link frame (R68, R69). -/

/-- Sample blocks of one stream in a frame: 512 in RF mode, 6 in powerline mode. -/
def payloadBlocks (pl : Bool) : Nat := if pl then 6 else 512

/-- What a received frame says (R69, R70): the CRC's verdict, whether the blocks stand in order, the terminate block, the start
block's fields, the time block, descriptors, the payload blocks of each stream present by POS, and the control octets. -/
structure FrameIn where
  crcOk   : Bool
  orderOk : Bool
  termOk  : Bool
  version : Nat
  fseq    : Nat
  mode    : Bool
  count   : Nat
  time    : Nat
  descs   : List LineBlock
  samples : NMap (List LineBlock)
  ctrl    : List Octet
deriving DecidableEq, Repr

/-- The descriptors' positions rise. -/
def rising : List Nat → Bool
  | a :: b :: r => decide (a < b) && rising (b :: r)
  | _ => true

/-- The payload blocks dealt out to the streams present, in the descriptors' order. -/
def dealPayload (n : Nat) : List LineBlock → List LineBlock → NMap (List LineBlock)
  | [], _ => []
  | x :: r, bs => NMap.put (dealPayload n r (bs.drop n)) (x.fld 63 60) (bs.take n)

/-- A frame's blocks read by the order table (R68–R70). -/
def readFrame (bs : List LineBlock) : FrameIn :=
  let b (i : Nat) : LineBlock := bs.getD i ⟨0, 0⟩
  let mode := (b 0).fld 31 31 == 1
  let count := (b 0).fld 30 26
  let nctrl := (b 0).fld 25 21
  let descs := (bs.drop 2).take count
  let present := descs.filter fun x => x.fld 59 59 == 1
  let pay := payloadBlocks mode * present.length
  let ctrlAt := 2 + count + pay
  let crcAt := ctrlAt + nctrl
  let body := (bs.drop 1).take (crcAt - 1)
  { crcOk := (b crcAt).fld 63 32 == crc32c ((b 0).octets.drop 1 ++ body.flatMap LineBlock.octets)
    orderOk := (b 0).sync == 2 && (b 0).fld 63 56 == 0x78 && decide (nctrl ≤ 16) && decide (crcAt < bs.length)
      && body.all (fun x => x.sync == 1) && (b crcAt).sync == 1 && rising (descs.map fun x => x.fld 63 60)
      && (bs.drop (crcAt + 2)).all fun x => x.sync == 2 && x.fld 63 56 == 0x1E
    termOk := (b (crcAt + 1)).sync == 2 && (b (crcAt + 1)).fld 63 56 == 0x87
    version := (b 0).fld 55 48, fseq := (b 0).fld 47 32, mode := mode, count := count, time := (b 1).bits, descs := descs
    samples := dealPayload (payloadBlocks mode) present ((bs.drop (2 + count)).take pay)
    ctrl := ((bs.drop ctrlAt).take nctrl).flatMap LineBlock.octets }

/-- The control messages of a control area (R71): one that runs past its end comes with the payload octets there are. -/
def ctrlMsgs : Nat → List Octet → List CtrlMsg
  | 0, _ => []
  | fuel + 1, os =>
    match os with
    | [] => []
    | [t] => if t == 0 then [] else [⟨t.toNat, 127, []⟩]
    | t :: n :: r => if t == 0 then [] else ⟨t.toNat, n.toNat, r.take n.toNat⟩ :: ctrlMsgs fuel (r.drop n.toNat)

/-- The 16-bit samples of payload blocks, in time order. -/
def blockSamples (bs : List LineBlock) : List Int :=
  bs.flatMap fun b => [ofTwos 16 (b.fld 63 48), ofTwos 16 (b.fld 47 32), ofTwos 16 (b.fld 31 16), ofTwos 16 (b.fld 15 0)]

/-- An overrange sample occurred for the stream at `pos` (R61, R69, R131): its descriptor says so, or a sample that came is one. -/
def FrameIn.over (f : FrameIn) (pos : Nat) : Bool :=
  f.descs.any (fun x => x.fld 63 60 == pos && x.fld 58 58 == 1)
    || (blockSamples (NMap.look f.samples pos [])).any overrange

/-- A sample as 16 bits. -/
def samp16 (v : Int) : Nat := toTwos 16 v

/-- A control message joins those that wait for a link's next frame. -/
def Dev.queueCtrl (d : Dev) (k : Nat) (m : CtrlMsg) : Dev :=
  let l := d.link k
  d.setLink k { l with ctlQ := l.ctlQ ++ [m] }

/-- STREAM_SET (R71, R133); the time of the frame from which it applies joins it as that frame is sent. -/
def Dev.streamSet (d : Dev) (k pos centre gain : Nat) : Dev :=
  d.queueCtrl k ⟨4, 12, octetsBE pos 1 ++ octetsBE centre 4 ++ octetsBE gain 1⟩

/-- STREAM_SET for every stream of a link, on entry to UP (R133). -/
def Dev.streamSets (d : Dev) (k : Nat) : Dev :=
  let d1 := (d.streamsOf k).foldl (fun x s => x.streamSet k (x.rfPos s) (x.rfCentreKhz s) (x.rfGain s)) d
  (d1.plStreamsOf k).foldl (fun x s => x.streamSet k (x.plPos s) (b2n (x.plFcc s)) (x.plGain s)) d1

/-- A link that is ALIGNING goes to UP after eight undamaged frames and a completed exchange (R75, R76). -/
def Dev.tryUp (d : Dev) (k : Nat) : Dev :=
  let l := d.link k
  if l.st == .aligning && decide (8 ≤ l.good) && l.exch then
    let d1 := ((d.setLink k { l with st := .up, since := d.clk, bad := 0, silent := false }).raise 0x010 [k]).streamSets k
    (d1.plStreamsOf k).foldl Dev.plRefresh d1
  else d

/-- A lane on a link that has gone LOST (R76, R99). -/
def Dev.laneLinkLost (d : Dev) (n : Nat) (l : Lane) : Dev :=
  match l.st with
  | .rx | .turn | .ack => (((d.count (fLinkAbort l.det.stream)).stopTx n).dropTx n).freeLane n
  | .tx => ((((d.count (fLinkAbort l.det.stream)).stopTx n).dropTx n).freeLane n).jobBack false l.job
  | .cca => ((d.dropTx n).freeLane n).jobBack false l.job
  | _ => d

/-- The streams of a link go down: lanes and requests of its RF streams end, its powerline lanes go OFF (R76, R133). -/
def Dev.streamsDown (d : Dev) (k : Nat) : Dev :=
  let ss := d.streamsOf k
  let d1 := (d.air.lanes.filter fun p => ss.contains p.2.det.stream).foldl (fun x p => x.laneLinkLost p.1 p.2) d
  let d2 := (d1.dropRequests (fun r => ss.contains r.det.stream) fLinkAbort).pruneGroups
  (d2.plStreamsOf k).foldl Dev.plOff d2

/-- Entry to LOST (R75, R76). -/
def Dev.toLost (d : Dev) (k : Nat) : Dev :=
  let l := d.link k
  let d1 := ((d.setLink k { l with st := .lost, since := d.clk, ctlQ := [] }).count (fLockLoss k)).streamsDown k
  d1.raise 0x011 [k]

/-- A link goes OFF: EN 0 or its domain closing (R75). -/
def Dev.linkOff (d : Dev) (k : Nat) : Dev :=
  let l := d.link k
  if l.st == .off then d else (d.setLink k { l with st := .off, since := d.clk, ctlQ := [] }).streamsDown k

/-- The link acts on messages: ALIGNING and UP (R72). -/
def Link.hears (l : Link) : Bool := l.st == .aligning || l.st == .up

/-- A delay exchange completes (R73); a T1 that matches no request is discarded. -/
def Dev.delayResp (d : Dev) (k t1 t2 t3 t4 : Nat) : Dev :=
  let l := d.link k
  if !l.hears then d
  else if l.req != some (t1 % 2 ^ 64) then d.count (fCtrlDrop k)
  else
    let diff (a b : Nat) : Int := ofTwos 64 (toTwos 64 ((a : Int) - (b : Int)))
    let delay := (diff t4 t1 - diff t3 t2) / 2
    let off := diff t2 t1 - delay
    let d1 := d.setLink k { l with req := none, exch := true, delay := delay, offset := off }
    let d2 := if 100 * 2 ^ 36 < off.natAbs * 1000000000 then
        d1.queueCtrl k ⟨3, 8, octetsBE (toTwos 64 (-off)) 8⟩ else d1
    d2.tryUp k

/-- A STATUS message restarts the link's silence time (R72). -/
def Dev.linkStatus (d : Dev) (k : Nat) (body : List Octet) : Dev :=
  let l := d.link k
  if l.hears then d.setLink k { l with status := d.clk, silent := false, body := body } else d

/-- An ALARM message: each bit newly set gives its event (R72). -/
def Dev.linkAlarm (d : Dev) (k bits : Nat) : Dev :=
  let l := d.link k
  if l.hears then
    let fresh (i : Nat) : Bool := bits / 2 ^ i % 2 == 1 && l.alarm / 2 ^ i % 2 == 0
    let d1 := d.setLink k { l with alarm := bits % 8 }
    ((d1.onlyIf (fresh 1) fun x => x.raise 0x012 [k]).onlyIf (fresh 0) fun x => x.raise 0x013 [k]).onlyIf (fresh 2)
      fun x => x.raise 0x014 [k]
  else d

/-- The control messages of an undamaged frame, in order (R71). The rule names no effect of a message whose TYPE goes only from the
device to the head: it is discarded and counted as CTRL_DROP (DESIGN CHOICE, notes/assumptions/58.md). -/
def Dev.takeCtrl (d : Dev) (k t4 : Nat) : List CtrlMsg → Dev
  | [] => d
  | m :: r =>
    if m.typ == 0 then d
    else if m.payload.length < m.len || 126 < m.len then d.count (fCtrlDrop k)
    else
      let f (i n : Nat) : Nat := ofBE ((m.payload.drop i).take n)
      let d1 :=
        if m.typ == 2 && m.len == 24 then d.delayResp k (f 0 8) (f 8 8) (f 16 8) t4
        else if m.typ == 5 && m.len == 16 then d.linkStatus k m.payload
        else if m.typ == 6 && m.len == 4 then d.linkAlarm k (f 0 4)
        else d.count (fCtrlDrop k)
      Dev.takeCtrl d1 k t4 r

/-- The samples of a frame are lost for every stream of the link (R70). -/
def Dev.linkGap (d : Dev) (k : Nat) : Dev :=
  let ss := d.streamsOf k
  (((d.abortLanes (fun _ l => l.st == .rx && ss.contains l.det.stream) fLinkAbort).dropRequests
    (fun r => ss.contains r.det.stream) fLinkAbort).pruneGroups).plGap k

/-- Overrange intervals of a frame's streams (R81, R157). -/
def Dev.overranges (d : Dev) (k : Nat) (f : FrameIn) : Dev :=
  let d1 := (d.streamsOf k).foldl (fun x s => x.onlyIf (f.over (x.rfPos s)) fun y => y.count (fOverrange s)) d
  (d1.plStreamsOf k).foldl (fun x s => x.onlyIf (f.over (x.plPos s)) fun y => y.count (fPlOverrange s)) d1

/-! Frames the device sends. -/

/-- Control messages that fit an area of `n` octets whole, in order, and those left. -/
def fitCtrl (n : Nat) : List CtrlMsg → List CtrlMsg × List CtrlMsg
  | [] => ([], [])
  | m :: r =>
    if m.len + 2 ≤ n then
      let x := fitCtrl (n - (m.len + 2)) r
      (m :: x.1, x.2)
    else ([], m :: r)

/-- The streams of a link with their positions, in ascending POS. -/
def Dev.linkStreams (d : Dev) (k : Nat) : List (Nat × Nat) :=
  (List.range 16).filterMap fun pos =>
    ((if d.linkPl k then d.plStreamsOf k else d.streamsOf k).find? fun s => (if d.linkPl k then d.plPos s else d.rfPos s) == pos).map
      fun s => (pos, s)

/-- An RF stream transmits during the 20 µs from device time `t` (R69). -/
def Dev.rfSends (d : Dev) (s t : Nat) : Bool :=
  d.fr.txs.any fun x => x.stream == s && x.sends && decide (x.first < t + usT 20) &&
    (x.phase == .onAir || decide (t < x.first + usT (if x.horn == 0 then x.phy.airUs x.octets.length else x.horn * 12800)))

/-- The 512 payload blocks of an RF stream: 1,024 complex samples, two a block. -/
def Dev.rfBlocks (d : Dev) (s t : Nat) : List LineBlock :=
  (List.range 512).map fun i =>
    let a := d.txSample s (t + 2 * i * 2 ^ 36 / 51200000)
    let b := d.txSample s (t + (2 * i + 1) * 2 ^ 36 / 51200000)
    dataBlock (((samp16 a.1 * 2 ^ 16 + samp16 a.2) * 2 ^ 16 + samp16 b.1) * 2 ^ 16 + samp16 b.2)

/-- The 6 payload blocks of a powerline stream: 24 real samples, four a block. -/
def Dev.plBlocks (d : Dev) (s t : Nat) : List LineBlock :=
  (List.range 6).map fun i =>
    let a (j : Nat) : Nat := samp16 (d.plTxSample s (t + (4 * i + j) * 2 ^ 36 / 1200000))
    dataBlock (((a 0 * 2 ^ 16 + a 1) * 2 ^ 16 + a 2) * 2 ^ 16 + a 3)

/-- The blocks of a frame from start to terminate (R68, R69): emission at device time `emit`, FSEQ, and the control octets. -/
def Dev.frameBlocks (d : Dev) (k emit fseq : Nat) (ctrl : List Octet) : List LineBlock :=
  let pl := d.linkPl k
  let nctrl := d.linkCtrlBlocks k
  let on (s : Nat) : Bool := (d.link k).st == .up && if pl then d.plSends s emit else d.rfSends s emit
  let desc (x : Nat × Nat) : LineBlock :=
    dataBlock (x.1 * 2 ^ 60 + (if on x.2 then 2 ^ 59 + 2 ^ 57 else 0) + (if pl then d.plGain x.2 else d.rfGain x.2) * 2 ^ 51)
  let ss := d.linkStreams k
  let start := ctlBlock 0x78 (2 ^ 48 + fseq * 2 ^ 32 + b2n pl * 2 ^ 31 + d.linkCount k * 2 ^ 26 + nctrl * 2 ^ 21)
  let area := ctrl ++ List.replicate (8 * nctrl - ctrl.length) 0
  let body := dataBlock emit :: ss.map desc
    ++ (ss.filter fun x => on x.2).flatMap (fun x => if pl then d.plBlocks x.2 emit else d.rfBlocks x.2 emit)
    ++ (pieces 8 area.length area).map dataBlock
  start :: body ++ [dataBlock (crc32c (start.octets.drop 1 ++ body.flatMap LineBlock.octets) * 2 ^ 32), ctlBlock 0x87 0]

/-- LINK_FRAME_SEND (R68, R69, R71, R112): one frame at each 20 µs boundary of device time, filled up with idle blocks to its 3,125
block periods, whole control messages as far as the control area holds them. Its time block gives the emission, the link's delay and
20 µs after the boundary. -/
def execLinkFrameSend (t link : Nat) (s : State) : Result := run t s fun d =>
  let l := d.link link
  let k := ticks20 d.axis
  if l.st == .off || l.txK == some k then d
  else
    let emit := cdiv (k * 2 ^ 36) 50000 + l.delay.toNat + usT 20
    let fit := fitCtrl (d.linkCtrlBlocks link * 8) l.ctlQ
    let bs := d.frameBlocks link (emit % 2 ^ 64) l.txSeq (fit.1.flatMap fun m => m.sent d.linkTime emit)
    let line := scramble l.scrT (bs ++ List.replicate (3125 - bs.length) (ctlBlock 0x1E 0))
    (d.setLink link { l with
      scrT := line.2, txK := some k, txSeq := (l.txSeq + 1) % 65536, sent := l.sent + 1, ctlQ := fit.2,
      req := if fit.1.any (fun m => m.typ == 1) then some d.linkTime else l.req }).emit (.linkFrame link line.1)

/-- A link has received blocks: the descrambler goes on. -/
def Dev.tookLine (d : Dev) (k st : Nat) : Dev := d.setLink k { d.link k with scrR := st }

/-- An undamaged frame (R70–R72, R75, R81). -/
def Dev.goodFrame (d : Dev) (k arr : Nat) (f : FrameIn) : Dev :=
  let l := d.link k
  let d1 := (d.setLink k { l with
    rxSeq := some f.fseq, lastOk := f.fseq, good := if l.since ≤ arr then l.good + 1 else l.good, bad := 0,
    started := arr }).count (fFramesOk k)
  let d2 := d1.onlyIf (l.st == .up) fun x => (x.overranges k f).plTakeFrame k (f.samples.map fun e => (e.1, blockSamples e.2))
  (d2.takeCtrl k ((((arr : Int) + d.tb.off).toNat) % 2 ^ 64) (ctrlMsgs 128 f.ctrl)).tryUp k

/-- A damaged frame, with `missing` before it and the FSEQ taken as the last (R70, R75). -/
def Dev.badFrame (d : Dev) (k arr missing : Nat) (next : Option Nat) : Dev :=
  let l := d.link k
  let bad := l.bad + 1 + missing
  let d1 := ((d.setLink k { l with rxSeq := next, good := 0, bad := bad, started := arr }).count (fCrcErr k)).countN (fSeqGap k) missing
  if l.st == .up then
    if 4 ≤ bad then (d1.linkGap k).toLost k else d1.linkGap k
  else d1

/-- LINK_FRAME (R66, R70): descrambled and judged, then its control messages and samples, or its 20 µs lost. A frame whose FSEQ does
not follow on is damaged, and each FSEQ value left out is a missing frame. -/
def execLinkFrame (t link : Nat) (f : LinkFrame) (s : State) : Result := run t s fun d =>
  let l := d.link link
  if !l.hears then d
  else
    let x := descramble l.scrR f.line
    let r := readFrame x.1
    let want := l.rxSeq.map fun q => (q + 1) % 65536
    let sound := r.crcOk && r.version == 1 && r.count == d.linkCount link && r.mode == d.linkPl link && r.orderOk && r.termOk
    let missing := match want with
      | some w => if r.crcOk then (r.fseq + 65536 - w) % 65536 else 0
      | none => 0
    let d1 := d.tookLine link x.2
    if sound && missing == 0 then d1.goodFrame link f.arr r
    else d1.badFrame link f.arr missing (if r.crcOk then some r.fseq else want)

/-- DELAY_REQ (R73): on entering ALIGNING and every 1,000 frames; it leaves in the next frame. -/
def execDelayReq (t link : Nat) (s : State) : Result := run t s fun d =>
  let l := d.link link
  if l.hears && decide (1000 ≤ l.sent) then
    d.setLink link { l with sent := 0, ctlQ := l.ctlQ ++ [⟨1, 8, []⟩] }
  else d

/-- DELAY_RESP (R73). -/
def execDelayResp (t link t1 t2 t3 t4 : Nat) (s : State) : Result := run t s fun d => d.delayResp link t1 t2 t3 t4

/-- STATUS (R72). -/
def execStatus (t link : Nat) (body : List Octet) (s : State) : Result := run t s fun d => d.linkStatus link body

/-- ALARM (R72). -/
def execAlarm (t link bits : Nat) (s : State) : Result := run t s fun d => d.linkAlarm link bits

/-- REED_SILENT (R72): once for each silence of 3 s, from the last STATUS or the entry to UP. -/
def execReedSilent (t link : Nat) (s : State) : Result := run t s fun d =>
  let l := d.link link
  if l.st == .up && !l.silent && d.passedMs (max l.status l.since) 3000 then
    (d.setLink link { l with silent := true }).raise 0x015 [link]
  else d

/-- BLOCK_LOCK (R66, R75): 64 consecutive valid sync headers; a new alignment begins, and a delay request is due. -/
def execBlockLock (t link : Nat) (line : List LineBlock) (s : State) : Result := run t s fun d =>
  let l := d.link link
  if l.st == .locking && gainsLock line then
    d.setLink link { l with
      st := .aligning, since := d.clk, scrR := (descramble 0 line).2, good := 0, bad := 0, rxSeq := none, req := none, exch := false,
      sent := 1000, started := d.clk }
  else d

/-- BLOCK_LOCK_LOST (R66, R75): 16 invalid sync headers in 64 blocks. -/
def execBlockLockLost (t link : Nat) (line : List LineBlock) (s : State) : Result := run t s fun d =>
  if (d.link link).hears && losesLock line then d.toLost link else d

/-- ALIGN_TIMEOUT (R75). -/
def execAlignTimeout (t link : Nat) (s : State) : Result := run t s fun d =>
  let l := d.link link
  if l.st == .aligning && d.passedMs l.since 100 then d.toLost link else d

/-- LOST_TIMEOUT (R75). -/
def execLostTimeout (t link : Nat) (s : State) : Result := run t s fun d =>
  let l := d.link link
  if l.st == .lost && d.passedMs l.since 1 then d.setLink link { l with st := .locking, since := d.clk } else d

/-- START_BLOCK_TIMEOUT (R75). -/
def execStartBlockTimeout (t link : Nat) (s : State) : Result := run t s fun d =>
  let l := d.link link
  if l.st == .up && d.passedUs l.started 60 then d.toLost link else d

/-- STREAM_GAIN_CHANGE (R63): the gain takes effect at the next 20 µs boundary of device time, from which the stream is blanked for
50 µs. A local port has codes 0 to 15, a Reed head, which receives a STREAM_SET, 0 to 63 (R65). -/
def execStreamGainChange (t stream gain : Nat) (s : State) : Result := run t s fun d =>
  if !d.rfEn stream || decide ((if d.rfSrcLink stream then 63 else 15) < gain) then d
  else
    let at' := cdiv (cdiv (d.axis * 50000) (2 ^ 36) * 2 ^ 36) 50000
    let d1 : Dev := { d with fr := { d.fr with due := NMap.put d.fr.due stream (at', gain) } }
    (if d.rfSrcLink stream then d1.streamSet (d.rfLink stream) (d.rfPos stream) (d.rfCentreKhz stream) gain else d1).openDue

end Sys2Proof.Machine
end

