-- ==== Sys2Proof/Machine/Dwell.lean ====
section
/-!
DEFINITION. The dwell-time ledger (spec 04, R120–R122).
-/

namespace Sys2Proof.Machine

/-- Channels of an entry (R120). -/
def DwellEntry.channels (e : DwellEntry) : Nat := if e.chKhz == 0 then 1 else cdiv (e.high - e.low) e.chKhz

/-- Channel `i` of an entry in Hz, from its lower edge up to its upper (R120). -/
def DwellEntry.range (e : DwellEntry) (i : Nat) : Int × Int :=
  if e.chKhz == 0 then ((e.low : Int) * 1000, (e.high : Int) * 1000)
  else (((e.low + i * e.chKhz : Nat) : Int) * 1000, ((min e.high (e.low + (i + 1) * e.chKhz) : Nat) : Int) * 1000)

/-- The ±100 kHz a subchannel occupies (R121). -/
def Dev.band (d : Dev) (s sub : Nat) : Int × Int := (d.subFreq s sub - 100000, d.subFreq s sub + 100000)

/-- The entries of a stream's dwell table. -/
def Dev.entriesOf (d : Dev) (s : Nat) : List (Nat × DwellEntry) := d.dwellEntries (d.dwellTable s)

/-- The channels a transmission on `subs` overlaps, as numbers entry × 256 + channel with their entries (R121). -/
def Dev.channels (d : Dev) (s : Nat) (subs : List Nat) : List (Nat × DwellEntry) :=
  (d.entriesOf s).flatMap fun e =>
    ((List.range e.2.channels).filter fun i =>
      subs.any fun u => decide ((d.band s u).1 < (e.2.range i).2) && decide ((e.2.range i).1 < (d.band s u).2)).map
      fun i => (e.1 * 256 + i, e.2)

/-- Every frequency from `lo` up to `hi` lies in some entry. -/
def covered (es : List (Nat × DwellEntry)) (lo hi : Int) : Nat → Bool
  | 0 => false
  | fuel + 1 =>
    if hi ≤ lo then true
    else
      match es.find? fun e => decide ((e.2.low : Int) * 1000 ≤ lo) && decide (lo < (e.2.high : Int) * 1000) with
      | some e => covered es ((e.2.high : Int) * 1000) hi fuel
      | none => false

/-- A job there ends CLOSED (R122). -/
def Dev.dwellClosed (d : Dev) (s : Nat) (subs : List Nat) : Bool :=
  subs.any (fun u => !covered (d.entriesOf s) (d.band s u).1 (d.band s u).2 40)
    || (d.channels s subs).any fun c => c.2.maxMs == 0

/-- The bucket of a device time: buckets of WINDOW_S ÷ 32 (R121). -/
def DwellEntry.bucket (e : DwellEntry) (t : Nat) : Nat := t / (max 1 e.winS * 2 ^ 31)

def Dwell.empty : Dwell := ⟨[], []⟩

def Dev.dwellOf (d : Dev) (s c : Nat) : Dwell := NMap.look d.air.dwell (s * 8192 + c) Dwell.empty

/-- The on-air time a channel counts in µs: the current bucket and the 32 before it, and reservations (R121, R122). -/
def Dev.dwellUsed (d : Dev) (s c : Nat) (e : DwellEntry) : Nat :=
  let b := e.bucket d.axis
  let w := d.dwellOf s c
  (w.used.map fun p => if p.1 ≤ b && b ≤ p.1 + 32 then p.2 else 0).sum + (w.resv.map (·.2)).sum

/-- A in µs: what jobs may use of a channel (R122). -/
def DwellEntry.jobUs (e : DwellEntry) : Nat := e.maxMs * 10 * (100 - e.resPct)

/-- A job of `us` µs fits the ledger (R122). -/
def Dev.dwellFits (d : Dev) (s : Nat) (subs : List Nat) (us : Nat) : Bool :=
  (d.channels s subs).all fun c => decide (d.dwellUsed s c.1 c.2 + us ≤ c.2.jobUs)

/-- An acknowledgement of `us` µs fits the ledger (R122). -/
def Dev.dwellAckFits (d : Dev) (s : Nat) (subs : List Nat) (us : Nat) : Bool :=
  (d.channels s subs).all fun c => decide (d.dwellUsed s c.1 c.2 + us ≤ c.2.maxMs * 1000)

/-- A job of `us` µs can never be sent: TOO_LONG (R122). -/
def Dev.dwellTooLong (d : Dev) (s : Nat) (subs : List Nat) (us : Nat) : Bool :=
  (d.channels s subs).any fun c => decide (c.2.jobUs < us)

/-- Charges split by bucket between two device times in units of 2⁻³⁶ µs, each part rounded up to a whole µs (R121). -/
def splitCharge (e : DwellEntry) (m : NMap Nat) (t0 t1 : Nat) : Nat → NMap Nat
  | 0 => m
  | fuel + 1 =>
    if t1 ≤ t0 then m
    else
      let b := e.bucket (t0 / 1000000)
      let up := min t1 ((b + 1) * (max 1 e.winS * 2 ^ 31 * 1000000))
      splitCharge e (NMap.upd m b 0 (· + cdiv (up - t0) (2 ^ 36))) up t1 fuel

/-- The ledger of one channel changed. -/
def Dev.updDwell (d : Dev) (s c : Nat) (f : Dwell → Dwell) : Dev :=
  { d with air := { d.air with dwell := NMap.upd d.air.dwell (s * 8192 + c) Dwell.empty f } }

/-- The ledger without buckets that no longer count (R121). -/
def Dwell.prune (w : Dwell) (b : Nat) : Dwell := { w with used := NMap.keep w.used fun k _ => decide (b ≤ k + 32) }

/-- A transmission of `us` µs whose first sample leaves at device time `first` is charged to every channel it overlaps (R121). -/
def Dev.dwellCharge (d : Dev) (s : Nat) (subs : List Nat) (first us : Nat) : Dev :=
  (d.channels s subs).foldl (fun x c => x.updDwell s c.1 fun w =>
    let v := w.prune (c.2.bucket x.axis)
    { v with used := splitCharge c.2 v.used (first * 1000000) (first * 1000000 + us * 2 ^ 36) 4096 }) d

/-- An acknowledgement's time is reserved for its lane (R122). -/
def Dev.dwellReserve (d : Dev) (lane s : Nat) (subs : List Nat) (us : Nat) : Dev :=
  (d.channels s subs).foldl (fun x c => x.updDwell s c.1 fun w => { w with resv := NMap.put w.resv lane us }) d

end Sys2Proof.Machine
end

