-- ==== Sys2Proof/Machine/AirJobs.lean ====
section
/-!
DEFINITION. Downlink jobs on RF: where a job goes, when it may start, what it occupies, slots and horn calls (spec 04,
R113–R129, R557).
-/

namespace Sys2Proof.Machine

/-- MIC octets of a secured downlink frame (R119, R557). -/
def Dev.micLen (d : Dev) : Nat := [4, 8, 16].getD d.dlSec 8

/-- PSDU octets of a job's frame: as built (R117), or as R557 will have it. -/
def Dev.jobPsdu (d : Dev) (j : Job) : Nat :=
  match j.frame with
  | some f => f.length
  | none =>
    (if j.slot.isSome || 2 ^ 64 ≤ j.dst then 21 else 15) + (if j.secured then 6 + d.micLen else 0) + j.payload.length
      + (if j.pl then 2 else 4)

/-- A horn call as a whole in µs (R127). -/
def Dev.hornUs (d : Dev) : Nat := d.hornRepeat * 12800

/-- A job of a campaign's group horn call (R224). -/
def JobFor.isHorn : JobFor → Bool
  | .group _ _ => true
  | _ => false

/-- The subchannel of a stream whose centre is `khz` to within 1 kHz, where the plan searches it for the mode (R114). -/
def Dev.findSub (d : Dev) (s khz : Nat) (p : Phy) : Option Nat :=
  (List.range 200).find? fun u => d.searches s u p && decide ((d.centre s u p - (khz : Int) * 1000).natAbs ≤ 1000)

/-- The streams of a meter's record that can carry a job, the first one first (R114). -/
def Dev.homePaths (d : Dev) (r : MeterRec) : List (Nat × Nat × Phy) :=
  [r.stream1, r.stream2].filterMap fun s =>
    if d.rfEn s then (d.findSub s r.homeKhz (phyOfMode r.dlMode)).map fun u => (s, u, phyOfMode r.dlMode) else none

/-- A window of a slot that has begun. -/
def liveWindow (m : NMap Window) (slot : Nat) : Option Window :=
  (NMap.find m slot).bind fun w => if w.live then some w else none

/-- Where a job may be sent, in the order R114 gives. -/
def Dev.jobPaths (d : Dev) (j : Job) : List (Nat × Nat × Phy) :=
  match j.via, j.slot with
  | some v, _ => [v]
  | none, some n =>
    match liveWindow d.air.mail n with
    | some w => [(w.stream, w.sub, w.phy)]
    | none =>
      match d.rec? n with
      | some r =>
        match d.homePaths r with
        | a :: rest => if j.last == some a.1 then rest ++ [a] else a :: rest
        | [] => []
      | none => []
  | none, none => []

/-- µs of device time. -/
def Dev.axisUs (d : Dev) : Nat := d.axis * 1000000 / 2 ^ 36

/-- Drift in ppm of a class (R124). -/
def driftPpm (n : Nat) : Nat := [5, 10, 20, 40, 80, 150, 300, 500].getD n 500

/-- The error bound e in µs at device time `t` µs; SYNC_TIME is held to the second, so 1 s is added (R124, R162). -/
def MeterRec.errUs (r : MeterRec) (t : Nat) : Nat :=
  100 + cdiv (driftPpm r.drift * (t + 1000000 - r.syncT * 1000000)) 1000000

/-- The slot at nominal instant `c` µs is usable for a mode (R125). -/
def MeterRec.slotUsable (r : MeterRec) (c : Nat) (p : Phy) : Bool :=
  r.syncT != 0 && decide (2 * r.errUs c + p.shrUs ≤ r.window * 1000)

/-- When a job's first sample leaves in the slot at `c` µs (R125). -/
def MeterRec.slotStart (r : MeterRec) (c : Nat) : Int := (c : Int) + r.syncOff + r.errUs c

/-- Nominal slot instant number `k` in µs (R124). -/
def MeterRec.slotInstant (r : MeterRec) (k : Nat) : Nat := r.offset * 1000 + k * (r.period * 1000000)

/-- Number of the latest nominal instant whose predicted instant is not after `t` µs (R124). -/
def MeterRec.slotNo (r : MeterRec) (t : Nat) : Nat :=
  (((t : Int) - r.syncOff - (r.offset * 1000 : Nat)) / (max 1 r.period * 1000000 : Nat)).toNat

/-- The next usable slot's start lies more than 2 s ahead, or none is known (R128). -/
def Dev.slotFar (d : Dev) (r : MeterRec) (p : Phy) : Bool :=
  let k := r.slotNo d.axisUs
  !(([k, k + 1, k + 2].map r.slotInstant).any fun c =>
    r.slotUsable c p && decide ((d.axisUs : Int) ≤ r.slotStart c) && decide (r.slotStart c ≤ (d.axisUs : Int) + 2000000))

/-- What the rules say of a job at this moment (R113–R129), with the stream that would carry it (R130): it ends with a result, the ledger
holds it, it waits, it may only go in a slot, it is refused a horn call and may only go in a slot, it makes a horn call, or it may go. -/
inductive Verdict where
  | ends (res stream : Nat)
  | held (stream : Nat)
  | wait
  | slotted (stream sub : Nat) (phy : Phy)
  | refused (stream sub : Nat) (phy : Phy)
  | horn (stream sub : Nat)
  | go (stream sub : Nat) (phy : Phy)
deriving DecidableEq, Repr

/-- The ledger holds the job. -/
def Verdict.isHeld : Verdict → Bool
  | .held _ => true
  | _ => false

/-- A job of `us` µs fits, under its campaign's share where it is a campaign frame (R122, R226). -/
def Dev.jobFits (d : Dev) (j : Job) (s : Nat) (subs : List Nat) (us : Nat) : Bool :=
  match j.who.camp?.bind d.camp? with
  | some c => (d.channels s subs).all fun e => decide ((d.dwellUsed s e.1 e.2 + us) * 100 ≤ e.2.jobUs * c.duty)
  | none => d.dwellFits s subs us

/-- A lane is sending, or about to send, a horn call for the slot. -/
def Dev.calling (d : Dev) (slot : Nat) : Bool :=
  d.air.lanes.any fun p => p.2.horn && ((p.2.job.bind (NMap.find d.air.jobs)).bind Job.slot) == some slot

/-- The horn call for a slotted job that would start with stream `s` (R128); the slot rules where none is made. Where HORN_SUBCH is closed to
transmission or the call too long for its ledger, no call can ever be made, and the job goes by the slot rules: the spec does not say
what a job does then (DESIGN CHOICE, notes/assumptions/63.md). -/
def Dev.hornVerdict (d : Dev) (j : Job) (slot : Nat) (r : MeterRec) (s sub : Nat) (p : Phy) : Verdict :=
  if decide (j.cls ≤ 1) && r.wake != 0 && d.slotFar r p && decide (d.hornSub s < 200)
      && (NMap.find d.air.horn slot).isNone && !j.horned && !d.calling slot then
    if d.hornDayMax ≤ r.horns then .refused s sub p
    else if d.dwellClosed s [d.hornSub s] || d.dwellTooLong s [d.hornSub s] d.hornUs then .slotted s sub p
    else if !d.dwellFits s [d.hornSub s] d.hornUs then .held s
    else if d.txOverlaps 4095 s [d.hornSub s] then .wait else .horn s (d.hornSub s)
  else .slotted s sub p

/-- In a horn listening period the job that caused the call goes first (R129). -/
def Dev.hornTurn (d : Dev) (slot : Nat) (w : Window) (j : Job) : Bool :=
  j.horned || w.sent || !(d.air.jobs.any fun p => p.2.slot == some slot && p.2.horned)

/-- What the rules say of a job whose stream, subchannel and mode are settled. -/
def Dev.pathVerdict (d : Dev) (j : Job) (s sub : Nat) (p : Phy) : Verdict :=
  let subs := p.subs sub
  let us := p.airUs (d.jobPsdu j)
  if d.dwellClosed s subs then .ends 6 s
  else if d.dwellTooLong s subs us then .ends 5 s
  else if 4 ≤ d.txCount s || d.txOverlaps 4095 s subs then .wait
  else
    let plain : Verdict := if d.jobFits j s subs us then .go s sub p else .held s
    match j.slot with
    | none => plain
    | some n =>
      match d.rec? n with
      | none => .ends 7 s
      | some r =>
        if r.period == 0 || (liveWindow d.air.mail n).isSome then plain
        else
          match liveWindow d.air.horn n with
          | some w => if d.hornTurn n w j then plain else .wait
          | none =>
            match d.hornVerdict j n r s sub p with
            | .slotted s u p => if d.jobFits j s subs us then .slotted s u p else .held s
            | v => v

/-- What the rules say of a group horn call on a stream and subchannel (R224). -/
def Dev.groupVerdict (d : Dev) (s sub : Nat) : Verdict :=
  if 200 ≤ sub then .ends 7 s
  else if !d.streamUp s || 4 ≤ d.txCount s || d.txOverlaps 4095 s [sub] then .wait
  else if d.dwellClosed s [sub] then .ends 6 s
  else if d.dwellTooLong s [sub] d.hornUs then .ends 5 s
  else if d.dwellFits s [sub] d.hornUs then .horn s sub else .held s

/-- What the rules say of a job (R113–R129). -/
def Dev.verdict (d : Dev) (j : Job) : Verdict :=
  if j.lane.isSome || decide (d.clk < j.start) || decide (j.deadline ≤ d.clk) || d.quiet then .wait
  else if j.who.isHorn then
    match j.via with
    | some (s, sub, _) => d.groupVerdict s sub
    | none => .ends 7 0
  else
    match d.jobPaths j with
    | [] => .ends 7 0
    | ps =>
      match ps.find? fun q => d.streamUp q.1 with
      | none => .wait
      | some (s, sub, p) => d.pathVerdict j s sub p

def Dev.updJob (d : Dev) (id : Nat) (f : Job → Job) : Dev :=
  match NMap.find d.air.jobs id with
  | some j => { d with air := { d.air with jobs := NMap.put d.air.jobs id (f j) } }
  | none => d

/-- A job is judged where nothing starts it: it ends at once, is deferred and counted once, is refused its horn call
and counted once, or waits for a slot (R113, R114, R122, R128). -/
def Dev.judge (d : Dev) (id : Nat) : Dev :=
  match NMap.find d.air.jobs id with
  | none => d
  | some j =>
    match d.verdict j with
    | .ends r st => (if r == 7 then d else d.count (fDwellReject st)).endJob false id r
    | .held st =>
      (if j.defd then d else d.count (fDwellDefer st)).updJob id fun x => { x with held := true, defd := true }
    | .refused s _ _ =>
      (if j.refused then d else d.count (fHornRefused s)).updJob id fun x => { x with refused := true, noSlot := true, held := false }
    | .slotted _ _ _ => d.updJob id fun x => { x with noSlot := true, held := false }
    | .go _ _ _ | .horn _ _ => d.updJob id fun x => { x with noSlot := false }
    | .wait => d

/-- Every job of the table is judged. -/
def Dev.judgeAll (d : Dev) : Dev := d.air.jobs.foldl (fun x p => x.judge p.1) d

/-- A job may be given a lane now, with its stream and subchannel. -/
def Dev.ready (d : Dev) (j : Job) : Option (Nat × Nat) :=
  if j.held then none
  else match d.verdict j with
    | .go s u _ | .horn s u => some (s, u)
    | _ => none

/-- Lanes in CCA, TX or AWAIT (R115). -/
def Dev.txLanesBusy (d : Dev) : Nat :=
  (d.air.lanes.filter fun p => p.2.st == .cca || p.2.st == .tx || p.2.st == .await).length

/-- The eligible jobs with number, class, earliest start, stream and subchannel; none while TX_LANES are in use. -/
def Dev.readyJobs (d : Dev) : List (Nat × Nat × Nat × Nat × Nat) :=
  if d.txLanes ≤ d.txLanesBusy then []
  else d.air.jobs.filterMap fun p => (d.ready p.2).map fun q => (p.1, p.2.cls, p.2.start, q.1, q.2)

/-- The job that would be given a free lane first: class, earliest time tag, then R28 (R115). -/
def Dev.bestJob (d : Dev) : Option (Nat × Nat × Nat × Nat × Nat) :=
  bestBy (fun a b => before a.2 b.2) d.readyJobs

/-- Lane clusters are brought for what waits for a lane (R421). -/
def Dev.callClusters (d : Dev) : Dev :=
  if d.freeLane?.isSome then d
  else d.bringClusters (d.fr.pend.length + min d.readyJobs.length (d.txLanes - d.txLanesBusy)) d.lanesComing 16

end Sys2Proof.Machine
end

