-- ==== Sys2Proof/Machine/Detection.lean ====
section
/-!
DEFINITION. Detection, requests, grants and duplicate groups, and their commands (spec 03, R82–R93).
-/

namespace Sys2Proof.Machine

/-- How requests are ranked: provisional class, earliest time tag, higher link quality, then R28 (R85). -/
def Request.rank (r : Request) : Nat × Nat × Nat × Nat :=
  (r.cls, r.det.tag, 255 - r.det.lq, r.det.stream * 256 + r.det.sub)

def rankedFirst (a b : Request) : Bool := before a.rank b.rank

/-- A detection joins an open group (R89): one coverage set, one frequency to 1 kHz, one mode, tags within 50 µs. -/
def Dev.joins (d : Dev) (g : DupGroup) (x : Detect) : Bool :=
  g.kept.isNone && d.rfOverlap x.stream != 0 && d.rfOverlap g.stream == d.rfOverlap x.stream
    && decide ((d.centre x.stream x.sub x.phy - g.freq).natAbs ≤ 1000)
    && g.phy.ofdm == x.phy.ofdm && g.phy.n == x.phy.n
    && decide (((x.tag : Int) - g.tag).natAbs * 1000000 ≤ 50 * 2 ^ 36)

/-- The group of a detection: an open one it joins, or a new one (R89). -/
def Dev.groupOf (d : Dev) (x : Detect) : Nat × Dev :=
  match d.fr.grps.find? fun p => d.joins p.2 x with
  | some p => (p.1, d)
  | none =>
    let g := d.fr.nextG
    let open' : DupGroup := ⟨x.tag, x.stream, d.centre x.stream x.sub x.phy, x.phy, none, none⟩
    (g, { d with fr := { d.fr with grps := NMap.put d.fr.grps g open', nextG := (g + 1) % 4096 } })

/-- A request is granted a lane, which begins to receive (R85, R86). -/
def Dev.grant (d : Dev) (r : Request) (lane : Nat) : Dev :=
  (d.setLane lane { Lane.idle with st := .rx, det := r.det, cls := r.cls, grp := r.grp, since := d.clk }).count
    (fGranted r.det.stream)

/-- The plane of a stream. -/
def planeOf (s : Nat) : Nat := s / 8

/-- The request ranked last of a plane. -/
def Dev.lastOf (d : Dev) (p : Nat) : Option Request :=
  bestBy (fun a b => rankedFirst b a) (d.fr.pend.filter fun r => planeOf r.det.stream == p)

/-- A request enters its plane's pending set of 64 (R85); with GRANT_WAIT_US 0 it is not held at all (R87). -/
def Dev.pendRequest (d : Dev) (r : Request) : Dev :=
  let add (x : Dev) : Dev := { x with fr := { x.fr with pend := x.fr.pend ++ [r] } }
  if d.grantWaitUs == 0 then (d.count (fStarved r.det.stream)).pruneGroups
  else if (d.fr.pend.filter fun q => planeOf q.det.stream == planeOf r.det.stream).length < 64 then (add d).callClusters
  else
    match d.lastOf (planeOf r.det.stream) with
    | some w =>
      if rankedFirst r w then
        (add ((d.dropRequests (fun q => q == w) fStarved).pruneGroups)).callClusters
      else (d.count (fStarved r.det.stream)).pruneGroups
    | none => add d

/-- Antenna time of what an RF stream's samples place at `raw` (R65, R73): on a link Reed-head time less the link's offset, on a local
port device time; less ANT_DELAY. -/
def Dev.antTag (d : Dev) (s raw : Nat) : Nat :=
  let ant := cdiv (d.rfAntNs s * 2 ^ 36) 1000000000
  if d.rfSrcLink s then d.extend (toTwos 64 ((raw : Int) - (d.link (d.rfLink s)).offset - ant)) else raw - ant

/-- A correlation in 0.25 dB below full scale exceeds the noise floor of every bin a detector searches by DET_THR (R82). For a group,
whose bins have a floor each, the spec does not say which counts (DESIGN CHOICE, notes/assumptions/60.md). -/
def Dev.aboveFloor (d : Dev) (x : Heard) : Bool :=
  (x.phy.subs x.sub).all fun u => d.exceeds x.stream u x.corr (d.rfDetThr x.stream)

/-- The detection as the unit keeps it (R82). -/
def Dev.detectOf (d : Dev) (x : Heard) : Detect := ⟨x.stream, x.sub, x.group, x.phy, d.antTag x.stream x.raw, lqOf x.snr⟩

/-- Lanes that listen before they talk note a detector of their subchannels that has become PENDING or GRANTED (R116). -/
def Dev.hearBusy (d : Dev) (x : Detect) : Dev :=
  let hears (l : Lane) : Bool :=
    l.st == .cca && l.phase == 1 && l.det.stream == x.stream && x.subs.any l.det.subs.contains
  { d with air := { d.air with lanes := NMap.mapAll d.air.lanes fun _ l => if hears l then { l with heard := true } else l } }

/-- A detection becomes a request: granted at once where a lane is free and no request waits, else pending (R85). -/
def Dev.request (d : Dev) (x : Detect) : Dev :=
  let (g, d1) := (d.count (fDetect x.stream)).groupOf x
  let r : Request := ⟨x, 2, g, d.clk⟩
  let d2 := match d1.fr.pend.isEmpty, d1.freeLane? with
    | true, some n => d1.grant r n
    | _, _ => d1.pendRequest r
  if d2.detPending x || d2.detGranted x then d2.hearBusy x else d2

/-- DETECTION (R82, R85, R88, R93). -/
def execDetection (t : Nat) (h : Heard) (s : State) : Result := run t s fun d =>
  let x := d.detectOf h
  if !d.searching x.stream || !d.searches x.stream x.sub x.phy || d.blanked x.stream x.subs || d.quiet || !d.aboveFloor h then d
  else if d.detPending x || d.detGranted x then d.count (fBusySub x.stream)
  else if d.selfHeard x.stream x.subs then d.count (fSelfSupp x.stream)
  else d.request x

/-- PHR_CLASS_MARK (R83): 01 gives C0, 10 gives C1, 00 and 11 give C2. -/
def execPhrClassMark (t stream sub mark : Nat) (s : State) : Result := run t s fun d =>
  if !d.rfClassMark stream then d
  else
    let cls := if mark == 1 then 0 else if mark == 2 then 1 else 2
    { d with fr := { d.fr with pend := d.fr.pend.map fun r =>
        if r.det.stream == stream && r.det.sub == sub && !r.det.phy.ofdm then { r with cls := cls } else r } }

/-- PENDING_GRANT (R85, R86, R115): the request ranked first takes a free lane, unless an eligible job of a higher
class comes before it. -/
def execPendingGrant (t : Nat) (s : State) : Result := run t s fun d =>
  match bestBy rankedFirst d.fr.pend, d.freeLane? with
  | some r, some n =>
    if (d.bestJob.map fun j => decide (j.2.1 < r.cls)).getD false then d
    else ({ d with fr := { d.fr with pend := d.fr.pend.filter fun q => q != r } }).grant r n
  | some _, none => d.callClusters
  | none, _ => d

/-- STARVED (R85): the wait has reached GRANT_WAIT_US. -/
def execStarved (t stream sub : Nat) (group : Bool) (s : State) : Result := run t s fun d =>
  (d.dropRequests (fun r => r.det.stream == stream && r.det.sub == sub && r.det.group == group
    && d.passedUs r.det0 d.grantWaitUs) fStarved).pruneGroups

end Sys2Proof.Machine
end

