-- ==== Sys2Proof/Machine/Lanes.lean ====
section
/-!
DEFINITION. Lanes receiving: from the PHR to the hold close and the hardware acknowledgement (spec 04, R95–R112; 03,
R89–R91).
-/

namespace Sys2Proof.Machine

/-- The address filter (R100); a MAC command frame passes it provisionally. -/
def Dev.macFilter (d : Dev) (h : MacHdr) : Bool :=
  (h.ftype == 1 || h.ftype == 3) && (h.version == 1 || h.version == 2)
    && (match h.dstPan with
      | none => true
      | some p => p == d.panId || p == 0xFFFF)
    && (match h.dst with
      | .short a => a == d.netShort || a == 0xFFFF
      | .ext e => e == d.netEui
      | .none => false)
    && (match h.src with
      | .ext _ => true
      | _ => false)

/-- A frame in RX ends early, counted under its cause. -/
def Dev.endRx (d : Dev) (n : Nat) (f : Nat → Fld) : Dev :=
  ((d.count (f (d.lane n).det.stream)).freeLane n).pruneGroups

/-- PHR_DECODED (R96–R98). -/
def execPhrDecoded (t lane : Nat) (p : Phr) (s : State) : Result := run t s fun d =>
  let l := d.lane lane
  if l.st != .rx || l.phr.isSome then d
  else if p.valid l.det.phy then
    let phy := if l.det.phy.ofdm then { l.det.phy with mcs := p.mcs, il := p.il } else l.det.phy
    d.setLane lane { l with phr := some p, det := { l.det with phy := phy } }
  else d.endRx lane fPhrErr

/-- MAC_HEADER_COMPLETE (R100): the header's octets as received. A PSDU too short for its header ends as PHR_ERR (R99), and a header that
cannot be read otherwise is refused by the filter. -/
def execMacHeaderComplete (t lane : Nat) (os : List Octet) (s : State) : Result := run t s fun d =>
  let l := d.lane lane
  match l.st, l.phr, l.hdr with
  | .rx, some p, none =>
    match parseMac os with
    | none => d.endRx lane (if p.len ≤ os.length + p.fcsLen then fPhrErr else fAddrFilter)
    | some h =>
      if p.len < h.octets + p.fcsLen then d.endRx lane fPhrErr
      else if d.macFilter h then d.setLane lane { l with hdr := some h }
      else d.endRx lane fAddrFilter
  | _, _, _ => d

/-- The wrapped keys a lookup carries (R101, R485): the current one and, where it is valid, the next, each with its PURPOSE and index. -/
def Dev.keysOf (d : Dev) (n : Nat) : List (Nat × Nat × BitVec 128) :=
  match d.rec? n with
  | none => []
  | some r =>
    (keyCurrent, r.keyCur, r.key) ::
      (match NMap.find d.led.keys n with
        | some k => if r.keyNextV then [(keyNextP, r.keyNext, k.next)] else []
        | none => [])

/-- Keys in clear by their index (R101). -/
def Dev.clearKeys (d : Dev) (n : Nat) (ks : List (Nat × Nat × BitVec 128)) : List (Nat × List Octet) :=
  ks.map fun k => (k.2.1, d.unwrap k.1 k.2.1 n k.2.2)

/-- DIRECTORY_LOOKUP (R101, R102, R159): the slot and record fields, or a discovery frame, or UNKNOWN_SRC. -/
def execDirectoryLookup (t lane : Nat) (s : State) : Result := run t s fun d =>
  let l := d.lane lane
  match l.st, l.hdr, l.looked with
  | .rx, some h, false =>
    match d.lookup h.srcEui with
    | some n =>
      if h.ftype == 3 then d.endRx lane fAddrFilter
      else d.setLane lane
        { l with looked := true, slot := some n, rxCtr := ((d.rec? n).map MeterRec.rxCtr).getD 0, keys := d.keysOf n }
    | none =>
      if h.sec then d.endRx lane fUnknownSrc
      else d.setLane lane { l with looked := true, slot := none, cls := 4 }
  | _, _, _ => d

/-- The final class of a frame (R106, R107). -/
def Dev.finalClass (d : Dev) (slot : Option Nat) (first : Option Octet) : Nat :=
  match slot with
  | none => 4
  | some n =>
    let byOctet := first.bind d.classOfOctet
    let byTx := if (((d.rec? n).map MeterRec.openTx).getD 0) == 0 then none else some 1
    match byOctet, byTx with
    | some a, some b => min a b
    | some a, none => a
    | none, some b => b
    | none, none => 2

/-- The content of a frame (R90). -/
def frameContent (h : MacHdr) (e : RxDone) : Content := ⟨h.srcEui, e.fctr, e.fcsVal⟩

/-- A passing copy in a group series: late and dropped, or holding under its group or one of its own (R90, R91).
Answers the group, or none for a late copy. -/
def holdIn (grps : NMap DupGroup) (nextG g : Nat) (own : DupGroup) (c : Content) (endT : Nat) :
    Option (Nat × NMap DupGroup × Nat) :=
  match NMap.find grps g with
  | some x =>
    match x.kept with
    | none => some (g, NMap.put grps g { x with hold := some (min endT (x.hold.getD endT)) }, nextG)
    | some ks => if ks.contains c then none else some (nextG, NMap.put grps nextG own, (nextG + 1) % 4096)
  | none => some (nextG, NMap.put grps nextG own, (nextG + 1) % 4096)

/-- A frame whose checks pass goes to HOLD (R90, R91, R99). -/
def Dev.toHold (d : Dev) (n : Nat) (l : Lane) (h : MacHdr) (e : RxDone) : Dev :=
  let x := l.det
  let own : DupGroup := ⟨x.tag, x.stream, d.centre x.stream x.sub x.phy, x.phy, some e.endT, none⟩
  match holdIn d.fr.grps d.fr.nextG l.grp own (frameContent h e) e.endT with
  | none => d.endRx n fLateDup
  | some (g, gs, ng) =>
    ({ d with fr := { d.fr with grps := gs, nextG := ng } }.setLane n
      { l with st := .hold, grp := g, fin := some e, cls := d.finalClass l.slot e.first, since := d.clk }).pruneGroups

/-- What a frame without security, from a source the directory does not hold, leaves for the queue (R102, R105). -/
def plainDone (endT fcsVal lq : Nat) (h : MacHdr) (os : List Octet) : RxDone := ⟨endT, fcsVal, 0, 0, lq, os, h.octets⟩

/-- A frame from a slot whose octets, FCS removed, are `os`: checked under the keys of its lookup (R103, R104), with what R105 keeps of
it. -/
def openDone (endT fcsVal lq : Nat) (keys : List (Nat × List Octet)) (rxCtr : Nat) (h : MacHdr) (src : Eui) (os : List Octet) :
    SecVerdict × RxDone :=
  let r := openFrame keys rxCtr h src os
  let hd := h.octets + r.2.1.octets
  (r.1, ⟨endT, fcsVal, r.2.1.keyIdx, r.2.1.fctr, lq, os.take hd ++ r.2.2, hd⟩)

/-- FRAME_END (R99, R102–R106). -/
def execFrameEnd (t lane : Nat) (e : RxEnd) (s : State) : Result := run t s fun d =>
  let l := d.lane lane
  match l.st, l.phr, l.hdr, l.looked with
  | .rx, some p, some h, true =>
    let psdu := e.psdu.take p.len
    let os := dropTail p.fcsLen psdu
    let fcsVal := ofBE (psdu.drop os.length)
    let endT := d.antTag l.det.stream e.raw
    if !fcsPass p.fcs2 psdu then d.endRx lane fFcsErr
    else match l.slot with
      | none => d.toHold lane l h (plainDone endT fcsVal (lqOf e.snr) h os)
      | some n =>
        let r := openDone endT fcsVal (lqOf e.snr) (d.clearKeys n l.keys) l.rxCtr h h.srcEui os
        match r.1 with
        | .pass => d.toHold lane l h r.2
        | .secFail => d.endRx lane fSecFail
        | .replay => d.endRx lane fReplay
        | .counterEnd => (d.raise 0x020 [r.2.keyIdx] (some n)).endRx lane fCounterEnd
  | _, _, _, _ => d

/-- How long after its time tag a lane sees a sample: 30 µs on a local stream, d + 70 µs on a link (R112). -/
def Dev.seesT (d : Dev) (s : Nat) : Nat :=
  if d.rfSrcLink s then (d.link (d.rfLink s)).delay.toNat + usT 70 else usT 30

/-- How long before its emission a sample leaves the device: a link's delay and 20 µs (R112). -/
def Dev.leadT (d : Dev) (s : Nat) : Nat := if d.rfSrcLink s then (d.link (d.rfLink s)).delay.toNat + usT 20 else 0

/-- The lanes of a group that hold a frame. -/
def Dev.holders (d : Dev) (g : Nat) : List (Nat × Lane) := d.air.lanes.filter fun p => p.2.st == .hold && p.2.grp == g

/-- The lanes of a group that still receive a copy or hold one. -/
def Dev.groupLanes (d : Dev) (g : Nat) : List (Nat × Lane) :=
  d.air.lanes.filter fun p => (p.2.st == .rx || p.2.st == .hold) && p.2.grp == g

/-- Of two copies the first is kept: higher final link quality, then earliest tag, then R28 (R90). -/
def keptFirst (a b : Nat × Lane) : Bool :=
  let k (l : Lane) : Nat × Nat × Nat × Nat :=
    (255 - ((l.fin.map RxDone.lq).getD 0), l.det.tag, l.det.stream, l.det.sub)
  before (k a.2) (k b.2)

def Lane.content (l : Lane) : Content :=
  match l.hdr, l.fin with
  | some h, some e => frameContent h e
  | _, _ => ⟨0, 0, 0⟩

/-- A kept frame from a slotted meter sets its synchronisation where its SHR start lies near a predicted instant
(R124). -/
def MeterRec.slotFrame (r : MeterRec) (tag : Nat) (shrUs : Nat) : MeterRec :=
  if r.pl || r.period == 0 then r
  else
    let shr : Int := (tag * 1000000 / 2 ^ 36 : Nat) - (shrUs : Int)
    let off : Int := if r.syncT == 0 then 0 else r.syncOff
    let per : Int := (r.period * 1000000 : Nat)
    let rel := shr - off - (r.offset * 1000 : Nat)
    let k := (rel + per / 2) / per
    let nominal := (r.offset * 1000 : Nat) + k * per
    if (shr - (nominal + off)).natAbs ≤ max (r.errUs shr.toNat) 100000 then
      { r with syncOff := ofTwos 24 (toTwos 24 (shr - nominal)), syncT := tag / 2 ^ 36 }
    else r

/-- A kept copy writes the receive counter, the higher of two kept at one close (R91, R104). -/
def Dev.keptRecord (d : Dev) (slot : Option Nat) (tag fctr shrUs : Nat) : Dev :=
  match slot with
  | some n => d.updRec n fun r => { (r.slotFrame tag shrUs) with rxCtr := max r.rxCtr fctr }
  | none => d

/-- The packet a kept copy of lane `n` is written as (R43, R105). -/
def Lane.packet (l : Lane) (n : Nat) (e : RxDone) : Packet :=
  { cls := l.cls, len := e.octets.length, qseq := 0, time := l.det.tag, slot := l.slot, dup := some l.grp,
    stream := l.det.stream, sub := l.det.sub, lq := e.lq, data := packOctets e.octets,
    item := .frame ⟨e.hdrLen, l.content.src, e.fctr, e.keyIdx, l.det.tag - usT l.det.phy.shrUs, false, n⟩ }

/-- PSDU octets of the acknowledgement of a frame (R109). -/
def Lane.ackOctets (l : Lane) : Nat := if (l.phr.map Phr.fcs2).getD false then 13 else 15

/-- The running-axis instant of a device time, as far as no step comes between. -/
def Dev.clkAt (d : Dev) (time : Nat) : Nat := ((time : Int) - d.tb.off).toNat

/-- The acknowledgement of a lane's frame as a transmission that holds its place: its first sample leaves 1,000 µs after the frame end at
the antenna, its window opens 10 µs before (R64, R92, R108, R109). -/
def Dev.ackTx (d : Dev) (n : Nat) (l : Lane) (h : MacHdr) (e : RxDone) (pend : Bool) : Tx :=
  { lane := n, stream := l.det.stream, subs := l.det.subs, phase := .reserved, since := d.clk
    opens := d.clkAt (e.endT + usT 990), sub := l.det.sub, phy := l.det.phy, first := e.endT + usT 1000
    octets := ackPsdu h.seq h.srcEui pend ((l.phr.map Phr.fcs2).getD false), horn := 0 }

/-- On entering TURN the tests of R111 are made once; an acknowledgement that passes them holds its place on the
stream and its dwell time until its last sample (R64, R110, R111, R122). One whose subchannels a transmission occupies that already runs
is sent all the same: R111 gives no such case (DESIGN CHOICE, notes/assumptions/63.md). -/
def Dev.enterTurn (d : Dev) (n : Nat) (l : Lane) (h : MacHdr) (e : RxDone) : Dev :=
  let s := l.det.stream
  let us := l.det.phy.airUs l.ackOctets
  if !d.streamUp s then (d.count (fLinkAbort s)).freeLane n
  else if 4 ≤ d.txCount s then (d.count (fAckDrop s)).freeLane n
  else if !d.dwellAckFits s l.det.subs us then (d.count (fAckDwell s)).freeLane n
  else if d.rfSrcLink s && decide (340000 < (d.link (d.rfLink s)).fullNs) then (d.count (fAckLate s)).freeLane n
  else
    let mail := ((l.slot.bind d.rec?).map MeterRec.mail).getD false
    ((d.dwellReserve n s l.det.subs us).addTx (d.ackTx n l h e mail)).setLane n
      { l with st := .turn, fpend := mail, since := d.clk }

/-- A kept copy: the record is written, the packet goes to the queue, and its lane acknowledges or is freed (R90, R91,
R105, R108); where nothing may be sent the frame ends without acknowledgement (R466). -/
def Dev.keepCopy (d : Dev) (n : Nat) (l : Lane) : Dev :=
  match l.hdr, l.fin with
  | some h, some e =>
    let d1 := (d.keptRecord l.slot l.det.tag e.fctr l.det.phy.shrUs).enqueue 0 l.cls (l.packet n e)
    if h.ar && !d.quiet then d1.enterTurn n l h e else d1.freeLane n
  | _, _ => d.freeLane n

/-- A copy whose frame ended after its group's hold had closed (R91): late and dropped, or a frame of its own. -/
def Dev.lateCopy (d : Dev) (n : Nat) (l : Lane) : Dev :=
  match l.hdr, l.fin with
  | some h, some e => d.toHold n l h e
  | _, _ => d.freeLane n

/-- The hold of an RF group closes (R90): of the copies that ended in it each content's best is kept and the others are
dropped. -/
def Dev.closeHold (d : Dev) (g : Nat) : Dev :=
  match NMap.find d.fr.grps g with
  | none => d
  | some x =>
    match x.hold, x.kept with
    | some h0, none =>
      let held := d.holders g
      let inTime (p : Nat × Lane) : Bool := decide (((p.2.fin.map RxDone.endT).getD 0) ≤ h0 + usT 200)
      let hs := held.filter inTime
      let late := ((d.groupLanes g).map fun p => d.seesT p.2.det.stream).foldl max (usT 30)
      if d.axis < h0 + usT 200 + late then d
      else
        let best (p : Nat × Lane) : Bool :=
          (bestBy keptFirst (hs.filter fun q => q.2.content == p.2.content)).map (·.1) == some p.1
        let d1 : Dev := { d with fr := { d.fr with
          grps := NMap.put d.fr.grps g { x with kept := some (hs.map fun p => p.2.content).eraseDups } } }
        let step (y : Dev) (p : Nat × Lane) : Dev :=
          if best p then y.keepCopy p.1 p.2 else (y.count (fDupDrop p.2.det.stream)).freeLane p.1
        ((held.filter fun p => !inTime p).foldl (fun (y : Dev) p => y.lateCopy p.1 p.2) (hs.foldl step d1)).pruneGroups
    | _, _ => d

/-- An acknowledgement's reservation becomes its charge (R122). -/
def Dev.unreserve (d : Dev) (lane : Nat) : Dev :=
  { d with air := { d.air with dwell := NMap.mapAll d.air.dwell fun _ w => { w with resv := NMap.del w.resv lane } } }

/-- The transmission a lane has planned, reserved or runs. -/
def Dev.txOf (d : Dev) (lane : Nat) : Option Tx :=
  d.fr.txs.find? fun x => x.lane == lane && x.phase != .tail && x.phase != .gain

/-- ACK_START (R108, R109): 1,000 µs after the kept copy's frame end at the antenna. -/
def execAckStart (t lane : Nat) (s : State) : Result := run t s fun d =>
  let l := d.lane lane
  match l.st, d.txOf lane with
  | .turn, some x =>
    if d.axis < x.first then d
    else if d.quiet then (d.dropTx lane).freeLane lane
    else
      let d1 := ((d.unreserve lane).dwellCharge x.stream x.subs x.first (x.phy.airUs x.octets.length)).startTx lane
      ((d1.count (fAckSent x.stream)).setLane lane { l with st := .ack, since := d.clk }).emit (.ack x.stream x.sub x.phy x.octets)
  | _, _ => d

/-- Held jobs that pass `p` and that the ledger no longer holds may be given a lane again (R122). -/
def Dev.unhold (d : Dev) (p : Job → Bool) : Dev :=
  d.air.jobs.foldl (fun x e =>
    if e.2.held && p e.2 && !(x.verdict e.2).isHeld then x.updJob e.1 fun j => { j with held := false } else x) d

/-- ACK_END (R99, R110): with frame pending 1 a mail window opens. -/
def execAckEnd (t lane : Nat) (s : State) : Result := run t s fun d =>
  let l := d.lane lane
  if l.st != .ack || !d.passedUs l.since (l.det.phy.airUs l.ackOctets) then d
  else
    let d1 := (d.stopTx lane).freeLane lane
    match l.slot with
    | some n =>
      if l.fpend && decide (0 < d.mailMs) then
        let w : Window := ⟨l.det.stream, l.det.sub, l.det.phy, d.clk, d.clk + usT (d.mailMs * 1000), true, false⟩
        ({ d1 with air := { d1.air with mail := NMap.put d1.air.mail n w } }).unhold fun j => j.slot == some n
      else d1
    | none => d1

/-- Jobs of a slot that lanes contend with, and that no horn call or slot concerns, go back to the job table unsent (R110, R129). -/
def Dev.returnJobs (d : Dev) (slot : Nat) : Dev :=
  let mine (l : Lane) : Bool :=
    l.st == .cca && !l.horn && !l.slotted && ((l.job.bind (NMap.find d.air.jobs)).bind Job.slot) == some slot
  (d.air.lanes.filter fun p => mine p.2).foldl (fun x p => ((x.dropTx p.1).freeLane p.1).jobBack false p.2.job) d

/-- MAIL_WINDOW_END (R110): jobs that have not started go back to the slot or horn-call rules. -/
def execMailWindowEnd (t slot : Nat) (s : State) : Result := run t s fun d =>
  match NMap.find d.air.mail slot with
  | some w =>
    if w.closes ≤ d.clk then ({ d with air := { d.air with mail := NMap.del d.air.mail slot } }).returnJobs slot else d
  | none => d

end Sys2Proof.Machine
end

