-- ==== Sys2Proof/Machine/AirAccess.lean ====
section
/-!
DEFINITION. Transmit scheduling on RF: the job table, the frames of jobs, backoff, clear-channel assessment, transmission, the wait for
the meter's acknowledgement, horn calls and windows (spec 04, R113–R129, R557).
-/

namespace Sys2Proof.Machine

/-! The job table. -/

/-- A job table's capacity (R113, R145). -/
def jobTableSize (pl : Bool) : Nat := if pl then 1024 else 4096

/-- The table a job goes to has room. -/
def Dev.jobRoom (d : Dev) (pl : Bool) : Bool :=
  decide ((if pl then d.pl.jobs.length else d.air.jobs.length) < jobTableSize pl)

/-- The first job, in the order of classes, that stands at the head of its class queue and has room in its table: a full table holds
only the queues whose head is for it (R27, R113, R145). -/
def Dev.nextJob (d : Dev) : Option (Nat × Packet × Job) :=
  (List.range 5).findSome? fun c =>
    match (d.queue 3 c).ring with
    | p :: _ =>
      (match p.item with
        | .job j => if d.jobRoom j.pl then some (c, p, j) else none
        | _ => none)
    | [] => none

/-- JOB_TABLE_ENTRY (R113, R145): a job leaves the downlink jobs queue for its table, sets its slot's MAIL (R162), and is judged. -/
def Dev.enterJob (d0 : Dev) : Dev :=
  let d := d0.discard 3 true
  match d.nextJob with
  | none => d
  | some (c, p, j) =>
    let id := d.air.nextJ
    let d1 := d.takeOut 3 c p
    let d2 : Dev :=
      if j.pl then { d1 with air := { d1.air with nextJ := id + 1 }, pl := { d1.pl with jobs := NMap.put d1.pl.jobs id j } }
      else { d1 with air := { d1.air with nextJ := id + 1, jobs := NMap.put d1.air.jobs id j } }
    let d3 := match j.slot with
      | some n => d2.updRec n fun r => { r with mail := true }
      | none => d2
    if j.pl then d3 else (d3.judge id).callClusters

/-! The frame of a job. -/

/-- The campaign and target of a multicast campaign frame. -/
def JobFor.target? : JobFor → Option (Nat × Nat)
  | .fwBlock c t => some (c, t)
  | .fwEnd c t => some (c, t)
  | _ => none

/-- The key index of a job's frame: its meter's current one, or its own target's GKEY_IDX (R224, R557). -/
def Dev.jobKeyIdx (d : Dev) (j : Job) : Nat :=
  match j.slot with
  | some n => ((d.rec? n).map MeterRec.keyCur).getD 0
  | none =>
    match j.who.target? with
    | some (c, t) => ((d.camp? c).map fun k => (k.targets.getD t Target.none).keyIdx).getD 0
    | none => 0

/-- Where a job's frame goes (R152, R557). -/
def Dev.jobDst (d : Dev) (j : Job) : Addr :=
  match j.slot with
  | some n => .ext (((d.rec? n).map MeterRec.eui).getD 0)
  | none => if 2 ^ 64 ≤ j.dst then .ext (BitVec.ofNat 64 (j.dst - 2 ^ 64)) else .short j.dst

/-- Under what a job's frame is secured, with the device once the outgoing counter has moved on (R117, R224, R557): key, level, counter
and key index, nothing for a frame without security. None where the counter is exhausted. -/
def Dev.jobKey (d : Dev) (j : Job) : Option (Option (List Octet × Nat × Nat × Nat) × Dev) :=
  if !j.secured then some (none, d)
  else
    match j.slot with
    | some n =>
      (match d.rec? n with
        | some r =>
          if r.txCtr = 0xFFFFFFFF then none
          else some (some (d.unwrap keyCurrent r.keyCur n r.key, d.dlSec + 5, r.txCtr, r.keyCur),
            d.setRec n { r with txCtr := r.txCtr + 1 })
        | none => none)
    | none =>
      match j.who.camp?.bind fun c => (d.camp? c).map fun k => (c, k) with
      | some (c, k) =>
        some (some (d.groupKey c k, d.dlSec + 5, k.mcCtr, d.jobKeyIdx j), d.updCamp c fun x => { x with mcCtr := x.mcCtr + 1 })
      | none => some (none, d)

/-- The frame of a job is built once, with headers `pre` before its payload (R117, R149, R557): it takes its sequence number, and a
secured one its frame counter. None where the outgoing counter is exhausted. -/
def Dev.buildFrame (d : Dev) (j : Job) (pre : List Octet := []) : Option (Job × Dev) :=
  if j.frame.isSome then some (j, d)
  else
    match d.jobKey j with
    | none => none
    | some (sec, x) =>
      let hdr := sentHeader (if j.who == .toneMap then 3 else 1) j.secured j.ar d.air.seq d.panId (d.jobDst j) d.netEui
      some ({ j with seq := d.air.seq, frame := some (sealFrame j.pl sec hdr d.netEui (pre ++ j.payload)) },
        { x with air := { x.air with seq := (x.air.seq + 1) % 256 } })

/-- The payload of a job whose first sample leaves at device time `first` (R220, R324): a beacon's TIME is when its SFD or preamble ends,
`us` µs later; an FW_END's NEXT_S counts from when it leaves. -/
def Dev.atSending (d : Dev) (j : Job) (first us : Nat) : Job :=
  match j.who with
  | .beacon => { j with payload := j.payload.take 7 ++ octetsBE (first + usT us) 9 ++ j.payload.drop 16 }
  | .fwEnd c _ =>
    let wait := ((d.camp? c).map Camp.rptWin).getD 0
    if ofBE (j.payload.drop 5) == 0 then j
    else { j with payload := j.payload.take 5 ++ octetsBE (first / 2 ^ 36 + wait + 1) 5 }
  | _ => j

/-- The outgoing counter of a job's meter is exhausted (R104, R117). -/
def Dev.jobCounterEnd (d : Dev) (pl : Bool) (id : Nat) (j : Job) : Dev :=
  (d.raise 0x020 [d.jobKeyIdx j] j.slot).endJob pl id 9

/-! Assignment and clear-channel assessment. -/

/-- A lane takes a job and backs off: 0 to 2^BE − 1 units of 20 µs, BE from MIN_BE (R116). -/
def Dev.startCca (d : Dev) (lane id s sub : Nat) (p : Phy) (horn : Bool) : Dev :=
  let (b, d1) := d.draw (2 ^ d.minBe)
  (d1.setLane lane { Lane.idle with
    st := .cca, det := ⟨s, sub, false, p, 0, 0⟩, job := some id, be := d.minBe, wait := b, horn := horn, since := d.clk }).updJob
    id fun j => { j with lane := some lane }

/-- The mode of a horn call: one subchannel (R127). -/
def hornPhy : Phy := ⟨false, 0, 0, false⟩

/-- The best eligible job takes a free lane (R115); a pending request of its class or a higher one goes before it. -/
def Dev.assignJob (d0 : Dev) : Dev :=
  let d := d0.judgeAll
  match d.bestJob, d.freeLane? with
  | some b, some lane =>
    if d.fr.pend.any fun r => decide (r.cls ≤ b.2.1) then d
    else
      match (NMap.find d.air.jobs b.1).map d.verdict with
      | some (.horn s u) => d.startCca lane b.1 s u hornPhy true
      | some (.go s u p) => d.startCca lane b.1 s u p false
      | _ => d
  | some _, none => d.callClusters
  | none, _ => d

/-- A detector of these subchannels on the stream is PENDING or GRANTED (R116). -/
def Dev.detectorsBusy (d : Dev) (s : Nat) (subs : List Nat) : Bool :=
  let meets (x : Detect) : Bool := x.stream == s && x.subs.any subs.contains
  d.fr.pend.any (fun r => meets r.det) || d.air.lanes.any fun p => p.2.st == .rx && meets p.2.det

/-- BACKOFF_END (R116): the lane begins to listen. -/
def execBackoffEnd (t lane : Nat) (s : State) : Result := run t s fun d =>
  let l := d.lane lane
  if l.st == .cca && l.phase == 0 && d.passedUs l.since (20 * l.wait) then
    d.setLane lane { l with phase := 1, heard := d.detectorsBusy l.det.stream l.det.subs, since := d.clk }
  else d

/-- An attempt of a job has failed with a result: a retry is used up, and with none left, or past the deadline, the job
ends with it (R113, R116, R117). Multicast jobs are never retried (R114). -/
def Dev.attemptFailed (d : Dev) (id res : Nat) : Dev :=
  match NMap.find d.air.jobs id with
  | none => d
  | some j =>
    if d.maxRetries ≤ j.tries || j.slot.isNone || j.deadline ≤ d.clk then d.endJob false id res
    else (d.updJob id fun x => { x with tries := x.tries + 1, res := res, lane := none, held := false }).judge id

/-- The channel a lane listens to is busy (R116): a detector of its subchannels has been PENDING or GRANTED, or the power of one of them,
`powers` in their order in 0.25 dB below full scale, exceeds its noise floor by CCA_THR. -/
def Dev.channelBusy (d : Dev) (l : Lane) (powers : List Nat) : Bool :=
  l.heard || d.detectorsBusy l.det.stream l.det.subs
    || (l.det.subs.zip powers).any fun q => d.exceeds l.det.stream q.1 q.2 d.ccaThr

/-- A lane gives its job back to the job table, where it is judged (R113). -/
def Dev.giveBack (d : Dev) (lane id : Nat) : Dev := ((d.letGo lane).jobBack false (some id)).judge id

/-- A busy assessment of a lane's `job` (R116, R126): a slot is lost, BE rises, or the attempt has failed. -/
def Dev.ccaBusy (d : Dev) (lane id : Nat) (l : Lane) : Dev :=
  let st := l.det.stream
  let d1 := d.count (fCcaBusy st)
  if l.slotted then
    ((d1.count (fSlotBusy st)).freeLane lane).updJob id fun j => { j with lane := none, noSlot := true }
  else if d.maxCca ≤ l.busy + 1 then
    (((d1.count (fLbtFail st)).freeLane lane).updJob id fun j => if l.horn then j else { j with last := some st }).attemptFailed id 3
  else
    let be := min (l.be + 1) d.maxBe
    let (b, d2) := d1.draw (2 ^ be)
    d2.setLane lane { l with be := be, busy := l.busy + 1, phase := 0, wait := b, heard := false, since := d.clk }

/-- The wake code a horn call carries. -/
def Dev.wakeOf (d : Dev) (j : Job) : Nat :=
  match j.slot with
  | some n => ((d.rec? n).map MeterRec.wake).getD 0
  | none => j.dst

/-- When the first sample of what a lane sends after a clear assessment leaves the antenna: 20 µs from now (R116), on a link later by as
long as its samples are on their way (R112; DEDUCED, notes/assumptions/63.md). -/
def Dev.firstAt (d : Dev) (s : Nat) : Nat := d.axis + usT 20 + d.leadT s

/-- What a lane sends once its channel is clear: its window opens 10 µs before the first sample (R92, R116). -/
def Dev.plannedTx (d : Dev) (lane : Nat) (l : Lane) (os : List Octet) (horn : Nat) : Tx :=
  { lane := lane, stream := l.det.stream, subs := l.det.subs, phase := .planned, since := d.clk
    opens := d.clkAt (d.firstAt l.det.stream - usT 10), sub := l.det.sub, phy := l.det.phy, first := d.firstAt l.det.stream
    octets := os, horn := horn }

/-- The channel is clear (R116): the lane switches to transmit with its horn call or its job's frame. A job that has become late and may
not run late is skipped (R219). -/
def Dev.ccaClear (d : Dev) (lane id : Nat) (l : Lane) (j0 : Job) : Dev :=
  let turn (x : Dev) (os : List Octet) (horn : Nat) : Dev :=
    (x.setLane lane { l with phase := 2, since := d.clk }).addTx (x.plannedTx lane l os horn)
  if l.horn then turn d (hornBurst (d.wakeOf j0) j0.slot.isNone) d.hornRepeat
  else
    let first := d.firstAt l.det.stream
    let r := d.lateNow j0 first
    if !r.1 then (if d.ledgerRuns then r.2.2.skipLate j0 else d.giveBack lane id)
    else
      match r.2.2.buildFrame (d.atSending r.2.1 first l.det.phy.shrUs) with
      | none => (r.2.2.freeLane lane).jobCounterEnd false id j0
      | some (j, x) => turn (x.updJob id fun _ => j) (j.frame.getD []) 0

/-- CCA_END (R116, R126): clear, or busy. -/
def execCcaEnd (t lane : Nat) (powers : List Nat) (s : State) : Result := run t s fun d =>
  let l := d.lane lane
  match l.job.bind fun i => (NMap.find d.air.jobs i).map fun j => (i, j) with
  | none => d
  | some (id, j) =>
    if l.st != .cca || l.phase != 1 || !d.passedUs l.since d.ccaUs then d
    else if d.channelBusy l powers then d.ccaBusy lane id l
    else d.ccaClear lane id l j

/-! Slots (R123–R126). -/

/-- A slot that cannot be used is counted once (R125). -/
def Dev.slotUnsync (d : Dev) (slot c stream : Nat) : Dev :=
  if NMap.find d.air.unsync slot == some c then d
  else ({ d with air := { d.air with unsync := NMap.put d.air.unsync slot c } }).count (fSlotUnsync stream)

/-- Free lanes in clusters that are ON (R86). -/
def Dev.freeLanes (d : Dev) : Nat :=
  ((List.range d.variant.lanes).filter fun n => (d.lane n).st == .idle && !d.laneKeeps n && d.domOn (17 + n / 8)).length

/-- A slotted job may have a lane now (R115): TX_LANES and the free lanes leave one to it after the requests and jobs that rank before it. -/
def Dev.laneFor (d : Dev) (j : Job) (s sub : Nat) : Bool :=
  let jobs := d.readyJobs.filter fun b => before b.2 (j.cls, j.start, s, sub)
  let reqs := d.fr.pend.filter fun r => decide (r.cls ≤ j.cls)
  decide (d.txLanesBusy + jobs.length < d.txLanes) && decide (jobs.length + reqs.length < d.freeLanes)

/-- The path of a slotted job that no window serves: where its slots count (R125, R130). -/
def Dev.slotPath (d : Dev) (j : Job) : Option (MeterRec × Nat × Nat × Phy) :=
  match j.slot.bind d.rec?, (d.jobPaths j).find? fun q => d.streamUp q.1 with
  | some r, some q =>
    let n := j.slot.getD 0
    if r.period == 0 || (liveWindow d.air.mail n).isSome || (liveWindow d.air.horn n).isSome || j.lane.isSome then none
    else some (r, q.1, q.2.1, q.2.2)
  | _, _ => none

/-- SLOTTED_CCA (R125, R126): CCA_US and 20 µs before the computed start, on a link earlier by as long as its samples are on their way (to
a µs, in which the arithmetic is made), a lane is assigned and listens, without backoff. An unusable slot is counted once. -/
def execSlottedCca (t job : Nat) (s : State) : Result := run t s fun d0 =>
  let d := d0.judge job
  match NMap.find d.air.jobs job with
  | none => d
  | some j =>
    match d.slotPath j with
    | none => d
    | some (r, st, u, p) =>
      let lead := d.ccaUs + 20 + d.leadT st * 1000000 / 2 ^ 36
      let c := r.slotInstant (r.slotNo (d.axisUs + lead + 1))
      if !r.slotUsable c p then d.slotUnsync (j.slot.getD 0) c st
      else if decide (1 < (((d.axisUs + lead : Nat) : Int) - r.slotStart c).natAbs) || j.held then d
      else
        match d.verdict j, d.freeLane? with
        | .slotted _ _ _, some lane =>
          if d.laneFor j st u then
            (d.setLane lane { Lane.idle with
              st := .cca, det := ⟨st, u, false, p, 0, 0⟩, job := some job, phase := 1, slotted := true
              heard := d.detectorsBusy st (p.subs u), since := d.clk }).updJob job fun x => { x with lane := some lane }
          else d
        | .slotted _ _ _, none => d.callClusters
        | _, _ => d

/-! Transmission. -/

/-- The job of a horn call's listening period has been sent in it, and others of its slot may follow (R129). -/
def Dev.callAnswered (d : Dev) (j : Job) : Dev :=
  match j.slot with
  | some n =>
    if j.horned then
      match NMap.find d.air.horn n with
      | some w => { d with air := { d.air with horn := NMap.put d.air.horn n { w with sent := true } } }
      | none => d
    else d
  | none => d

/-- A planned transmission may leave: the device may send, a place and its subchannels are free, and the ledger allows it (R64, R122,
R466). -/
def Dev.mayStart (d : Dev) (lane : Nat) (l : Lane) (j : Job) (us : Nat) : Bool :=
  let st := l.det.stream
  !d.quiet && decide (d.txCount st < 4) && !d.txOverlaps lane st l.det.subs &&
    if l.horn then d.dwellFits st l.det.subs us else d.jobFits j st l.det.subs us

/-- Air time of a transmission in µs (R95, R127). -/
def Tx.us (x : Tx) : Nat := if x.horn == 0 then x.phy.airUs x.octets.length else x.horn * 12800

/-- TX_START (R64, R92, R116, R121, R122): the first sample leaves; where it may not, the job goes back to
its table. -/
def execTxStart (t lane : Nat) (s : State) : Result := run t s fun d =>
  let l := d.lane lane
  match l.job.bind fun i => (NMap.find d.air.jobs i).map fun j => (i, j), d.txOf lane with
  | some (id, j), some x =>
    if l.st != .cca || l.phase != 2 || decide (d.axis < x.first) then d
    else if !d.mayStart lane l j x.us then d.giveBack lane id
    else
      let st := l.det.stream
      let d1 := (((d.dwellCharge st x.subs x.first x.us).startTx lane).count (fTxFrames st)).setLane lane
        { l with st := .tx, since := d.clk }
      if l.horn then
        ((d1.updJob id fun k => { k with noSlot := false }).count (fHornCalls st)).emit (.horn st x.sub x.octets x.horn)
      else
        (((d1.updJob id fun k => { k with last := some st, noSlot := false }).callAnswered j).countCampFrame j).emit
          (.air st x.sub x.phy x.octets)
  | _, _ => d

/-- BLANK_END (R63, R92, R93): windows whose tail has passed end. -/
def execBlankEnd (t stream : Nat) (s : State) : Result := run t s fun d =>
  d.endTx fun x => x.stream == stream &&
    ((x.phase == .tail && d.passedUs x.since (d.rfTailUs stream)) || (x.phase == .gain && d.passedUs x.since 50))

/-- A horn call's bursts have ended: the listening period follows HORN_WAKE_MS later (R129), and a meter's call is
counted for the day (R128). -/
def Dev.hornSent (d : Dev) (id : Nat) (j : Job) (l : Lane) : Dev :=
  match j.slot with
  | none => d.endJob false id 1
  | some n =>
    let opens := d.clk + usT (d.hornWakeMs * 1000)
    let w : Window := ⟨l.det.stream, l.det.sub, l.det.phy, opens, opens + usT (d.hornListenMs * 1000), false, false⟩
    (({ d with air := { d.air with horn := NMap.put d.air.horn n w } }).updRec n fun r =>
      { r with horns := sat 8 (r.horns + 1) }).updJob id fun x => { x with lane := none, horned := true }

/-- TX_END (R99, R110, R117): the lane waits for an acknowledgement, or the job ends SENT. -/
def execTxEnd (t lane : Nat) (s : State) : Result := run t s fun d =>
  let l := d.lane lane
  match l.job.bind fun i => (NMap.find d.air.jobs i).map fun j => (i, j), d.txOf lane with
  | some (id, j), some x =>
    if l.st != .tx || !d.passedUs l.since x.us then d
    else if l.horn then ((d.stopTx lane).freeLane lane).hornSent id j l
    else if j.ar then (d.stopTx lane).setLane lane { l with st := .await, since := d.clk }
    else ((d.stopTx lane).freeLane lane).endJob false id 1
  | _, _ => d

/-- The longest wait for an acknowledgement's SHR in µs (R117). -/
def Lane.awaitUs (l : Lane) : Nat := 1200 + l.det.phy.shrUs

/-- The acknowledgement a lane hears is the one it waits for (R117): its FCS passes, its sequence number matches, a destination it carries
is the device's, and its SHR ends in time. -/
def Dev.ackValid (d : Dev) (l : Lane) (j : Job) (a : AckHeard) : Bool :=
  fcsPass a.fcs2 a.psdu &&
    (match parseMac a.psdu with
      | some h =>
        h.ftype == 2 && h.seq == j.seq
          && (match h.dst with
            | .none => true
            | .short x => x == d.netShort
            | .ext e => e == d.netEui)
      | none => false)
    && decide ((d.antTag l.det.stream a.raw : Int) ≤ (l.since : Int) + d.tb.off + usT l.awaitUs)

/-- ACK_RECEIVED (R117). -/
def execAckReceived (t lane : Nat) (a : AckHeard) (s : State) : Result := run t s fun d =>
  let l := d.lane lane
  match l.st, l.job.bind (NMap.find d.air.jobs) with
  | .await, some j =>
    if d.ackValid l j a then
      ((d.count (fTxAcked l.det.stream)).freeLane lane).endJob false (l.job.getD 0) 0
    else d
  | _, _ => d

/-- ACK_WAIT_TIMEOUT (R99, R112, R117): the lane has seen the end of the wait; it tries again at once where it may, else the job goes back
to its table. -/
def execAckWaitTimeout (t lane : Nat) (s : State) : Result := run t s fun d =>
  let l := d.lane lane
  match l.st, l.job with
  | .await, some id =>
    if d.clk < l.since + usT l.awaitUs + d.seesT l.det.stream then d
    else
      let d1 := ((d.count (fNoAck l.det.stream)).freeLane lane).attemptFailed id 2
      match NMap.find d1.air.jobs id with
      | none => d1
      | some j =>
        match d1.verdict j with
        | .go s u p => if j.held || (d1.lane lane).st != .idle then d1 else d1.startCca lane id s u p false
        | _ => d1
  | _, _ => d

/-- The result of a job that its deadline finds not started (R113, R149). A job that has failed an attempt before ends with that
attempt's result: the spec does not say which of the two stands (DESIGN CHOICE, notes/assumptions/63.md). -/
def Dev.lateResult (d : Dev) (pl : Bool) (j : Job) : Nat :=
  if pl then
    if ((j.slot.bind d.rec?).map fun r => r.route.isNone).getD false then 7 else if j.res != 15 then j.res else 10
  else if j.res != 15 then j.res else if j.held then 4 else if j.noSlot then 8 else 10

/-- DWELL_BUCKET (R121, R122): the oldest bucket leaves the sum, and the jobs its stream's ledger may hold are judged again. -/
def execDwellBucket (t stream chan : Nat) (s : State) : Result := run t s fun d =>
  let d1 := match (d.entriesOf stream).find? fun e => e.1 == chan / 256 with
    | some e => d.updDwell stream chan fun w => w.prune (e.2.bucket d.axis)
    | none => d
  (d1.unhold fun j => (d1.jobPaths j).any fun q => q.1 == stream).callClusters

/-! Horn calls (R129). -/

/-- HORN_LISTEN_START (R129): the slot's jobs become eligible without slot rules. -/
def execHornListenStart (t slot : Nat) (s : State) : Result := run t s fun d =>
  match NMap.find d.air.horn slot with
  | some w =>
    if w.opens ≤ d.clk then
      (({ d with air := { d.air with horn := NMap.put d.air.horn slot { w with live := true } } }).unhold fun j =>
        j.slot == some slot).callClusters
    else d
  | none => d

/-- The job of a horn call that brought no acknowledgement goes back to R128, and the call counts as one of its attempts (R129); an attempt
on air finishes first (R113). -/
def Dev.callFailed (d : Dev) (id : Nat) (j : Job) : Dev :=
  let d1 := d.updJob id fun k => { k with horned := false }
  if d.jobOnAir false j then d1.updJob id fun k => { k with tries := k.tries + 1 } else d1.attemptFailed id 2

/-- HORN_LISTEN_END (R129): jobs of the slot that have not started wait for its slots again. -/
def execHornListenEnd (t slot : Nat) (s : State) : Result := run t s fun d =>
  match NMap.find d.air.horn slot with
  | some w =>
    if w.closes ≤ d.clk then
      let d1 := ({ d with air := { d.air with horn := NMap.del d.air.horn slot } }).returnJobs slot
      (d1.air.jobs.filter fun p => p.2.slot == some slot && p.2.horned).foldl (fun x p => x.callFailed p.1 p.2) d1
    else d
  | none => d

/-- HORN_COUNT_RESET (R128). -/
def execHornCountReset (t : Nat) (s : State) : Result := run t s fun d =>
  { d with led := { d.led with recs := NMap.mapAll d.led.recs fun _ r => { r with horns := 0 } } }

end Sys2Proof.Machine
end

