-- ==== Sys2Proof/Machine/BalanceExec.lean ====
section
/-!
DEFINITION. The balance engine's commands: the feeder reference, the wait limit and the correlator's run (spec 08, R243, R244, R252).
-/

namespace Sys2Proof.Machine

/-- ZONE_REFERENCE (R243): a feeder zone's reference is present 10 ms after the interval's end, once the ticks that end there have been
taken. The phases are summed before they are rounded. -/
def execZoneReference (t z endS : Nat) (s : State) : Result := run t s fun d0 =>
  if !d0.balOn || d0.zRefKind z == 2 || !d0.zOpen z endS || decide (d0.met.tick < endS * 100)
      || decide (d0.now * 100 < (endS * 100 + 1) * 2 ^ 36) then d0
  else
    let d := d0.letPass 2
    let r := d.feederRef z endS
    let uWh := if d.zRefKind z == 0 then r.1.getD 0 0 + r.1.getD 1 0 + r.1.getD 2 0 else r.1.getD (d.zRefPhase z) 0
    (d.setIvl z endS { d.zIvl z endS with
      ref := some (clampE (roundHE (uWh.fdiv 1000) 1000)), refPh := r.1.map fun e => e.fdiv 1000, q := r.2.1, gapUs := r.2.2 }).closeEarly z 64

/-- BAL_WAIT_EXPIRY (R244): BAL_WAIT_MIN has passed since the interval's end. -/
def execBalWaitExpiry (t z endS : Nat) (s : State) : Result := run t s fun d =>
  if d.balOn && d.zOpen z endS && decide ((endS + d.balWaitMin * 60) * 2 ^ 36 ≤ d.now) then (d.letPass 2).closeUpTo z endS 65 else d

/-- CORRELATOR_RUN (R252): once every hour of device time, every member whose window has lasted PHI_WIN_D days. -/
def execCorrelatorRun (t : Nat) (s : State) : Result := run t s fun d0 =>
  if !d0.balOn || d0.phiWinD == 0 || d0.nowS / 3600 == d0.bal.hour / 3600 then d0
  else
    let d := d0.letPass 2
    d.bal.corr.foldl (fun x p =>
      let w := x.memWord p.1
      if memZv w && !memPoly w && x.role3 p.1 && decide (p.2.start + x.phiWinD * 86400 ≤ x.nowS) then x.phaseRun p.1 p.2 else x)
      (d.setBal { d.bal with hour := d.nowS })

end Sys2Proof.Machine
end

