-- ==== Sys2Proof/Machine/Routes.lean ====
section
/-!
DEFINITION. Powerline routes, route candidates and routing messages (spec 05, R136, R147–R149). PRESUMED: the octets of the adaptation
layer's headers and messages are notes/assumptions/62.md's.
-/

namespace Sys2Proof.Machine

/-- The link cost of a frame (R148): `modn` 0 ROBO, 1 DBPSK, 2 DQPSK, 3 D8PSK. -/
def Dev.linkCost (d : Dev) (modn lq : Nat) : Nat :=
  min 255 (d.plKh + d.plKm * (3 - modn) + d.plKq * cdiv (d.plQref - lq) 4)

/-- When a candidate is seen, as the record keeps it (R162). -/
def Dev.seenTime (d : Dev) : Nat := d.nowS / 10 % 2 ^ 16

/-- The place of the highest-cost candidate; of several with that cost the first: the spec does not say which is replaced (DESIGN CHOICE,
notes/assumptions/64.md). -/
def worstCand (cs : List Route) : Option Nat :=
  bestBy (fun i j => decide ((cs.getD j ⟨0, 0, 0, 0, 0⟩).cost < (cs.getD i ⟨0, 0, 0, 0, 0⟩).cost)) (List.range cs.length)

/-- A candidate joins a record's four (R147). -/
def MeterRec.addCand (r : MeterRec) (c : Route) : MeterRec :=
  match r.cands.findIdx? fun x => x.stream == c.stream && x.next == c.next with
  | some i => { r with cands := r.cands.set i c }
  | none =>
    if r.cands.length < 4 then { r with cands := r.cands ++ [c] }
    else
      match worstCand r.cands with
      | some i => if c.cost < (r.cands.getD i c).cost then { r with cands := r.cands.set i c } else r
      | none => r

/-- A candidate of a slot's powerline meter is kept, unless it has more than PL_MAX_HOPS hops, and its stream noted (R147, R149). -/
def Dev.candidate (d : Dev) (slot stream next hops cost : Nat) : Dev :=
  if d.plMaxHops < hops || !((d.rec? slot).map MeterRec.pl).getD false then d
  else
    ({ d with pl := { d.pl with lastS := NMap.put d.pl.lastS slot stream } } : Dev).updRec slot fun r =>
      r.addCand ⟨stream, next, hops, min cost 4095, d.seenTime⟩

/-- The candidate adopted before another: less cost, fewer hops, direct before relayed, lower next hop (R149). -/
def adoptFirst (slot : Nat) (a b : Route) : Bool :=
  let k (c : Route) : Nat × Nat × Nat × Nat := (c.cost, c.hops, b2n (c.next != slot), c.next)
  before (k a) (k b)

/-- A slot's record with the best of its candidates as its route, or none (R149). -/
def MeterRec.adopt (r : MeterRec) (slot now : Nat) : MeterRec :=
  { r with route := (bestBy (adoptFirst slot) r.cands).map fun c => { c with time := now % 2 ^ 24 } }

/-- How many times PL_ROUTE_S lies between two recomputations: in step 3 of R29 the most R149 allows (DESIGN CHOICE,
notes/assumptions/64.md). -/
def Dev.routeStretch (d : Dev) : Nat := if 3 ≤ d.up.shed then 4 else 1

/-- PL_ROUTE_S has passed since the last recomputation (R149); the first falls when it will (notes/assumptions/3.md). -/
def Dev.routeDue (d : Dev) : Bool := d.pl.route == 0 || d.passedMs d.pl.route (d.plRouteS * d.routeStretch * 1000)

/-- ROUTE_RECOMPUTE (R149): candidates past their age go, and each powerline meter adopts its least-cost route. -/
def execRouteRecompute (t : Nat) (s : State) : Result := run t s fun d =>
  if !d.routeDue then d else
  let fresh (c : Route) : Bool := decide ((d.seenTime + 2 ^ 16 - c.time) % 2 ^ 16 ≤ d.plRouteAge)
  let redo (n : Nat) (r : MeterRec) : MeterRec :=
    if r.inUse && r.pl then { r with cands := r.cands.filter fresh }.adopt n d.nowS else r
  { d with
    led := { d.led with recs := NMap.mapAll d.led.recs redo }
    pl := { d.pl with route := d.clk } }

/-! Messages between the device and meters. -/

/-- A mesh addressing header from the device, with hops left equal to PL_MAX_HOPS (R149). -/
def Dev.meshHeader (d : Dev) (final : Addr) : List Octet :=
  let short := match final with | .short _ => 16 | _ => 0
  let addr := match final with | .short a => octetsBE a 2 | .ext e => octetsBE e.toNat 8 | .none => []
  octetsBE (128 + short + d.plMaxHops) 1 ++ (if d.plMaxHops == 15 then [15] else []) ++ octetsBE d.netEui.toNat 8 ++ addr

/-- A routing message: kind (0 request, 1 reply, 2 error), hops and cost so far, and the address it names. -/
def routeOctets (kind hops cost : Nat) (e : Eui) : List Octet :=
  [0x40, 0x01] ++ octetsBE kind 1 ++ octetsBE hops 1 ++ octetsBE cost 2 ++ octetsBE e.toNat 8

/-- The stream a route request for a slot goes out on: that of its last candidate. -/
def Dev.lastStream (d : Dev) (slot : Nat) : Option Nat := NMap.find d.pl.lastS slot

/-- The broadcast that asks for a route to a meter (R149). -/
def Dev.routeReqJob (d : Dev) (e : Eui) (s cls deadline : Nat) : Job :=
  { Job.base .routeReq none cls d.clk deadline (d.meshHeader (.short 0xFFFF) ++ routeOctets 0 0 0 e) with
    via := some (s, 0, ⟨false, 0, 0, false⟩), ar := false, secured := false, pl := true, dst := 0xFFFF }

/-- ROUTE_REQUEST (R149): broadcast on the stream of the slot's last candidate, where a job waits and no route is
valid, at most once per PL_RREQ_S. -/
def execRouteRequest (t slot : Nat) (s : State) : Result := run t s fun d =>
  let due := match NMap.find d.pl.rreq slot with
    | some t0 => d.passedMs t0 (d.plRreqS * 1000)
    | none => true
  let waiting := d.pl.jobs.find? fun p => p.2.slot == some slot
  match d.rec? slot, waiting, d.lastStream slot with
  | some r, some p, some st =>
    if r.pl && r.route.isNone && due then
      ({ d with pl := { d.pl with rreq := NMap.put d.pl.rreq slot d.clk } } : Dev).queueJob
        (d.routeReqJob r.eui st p.2.cls p.2.deadline)
    else d
  | _, _, _ => d

/-- The route reply to a meter `e` whose request has come from a neighbour on a stream (R136, R149). -/
def Dev.routeReply (d : Dev) (s nbr : Nat) (e : Eui) : Dev :=
  d.queueJob { Job.base .routeRep (some nbr) 1 d.clk (d.clk + secT d.plRreqS)
      (d.meshHeader (.ext e) ++ routeOctets 1 0 0 e) with via := some (s, 0, ⟨false, 0, 0, false⟩), pl := true }

/-- A slot's route over a next hop on a stream is no longer one (R136, R149). -/
def MeterRec.dropHop (r : MeterRec) (stream next : Nat) : MeterRec :=
  { r with
    cands := r.cands.filter fun c => !(c.stream == stream && c.next == next)
    route := r.route.filter fun a => !(a.stream == stream && a.next == next) }

end Sys2Proof.Machine
end

