-- ==== Sys2Proof/Machine/Sweeps.lean ====
section
/-!
DEFINITION. Discovery sweeps on powerline (spec 05, R151–R156).
-/

namespace Sys2Proof.Machine

/-- Where a job goes that names an EUI-64 and no slot. -/
def euiDst (e : Eui) : Nat := 2 ^ 64 + e.toNat

/-- An address with zeros below its first `len` bits (R152). -/
def maskPrefix (len : Nat) (pre : Eui) : Eui := BitVec.ofNat 64 (pre.toNat / 2 ^ (64 - len) * 2 ^ (64 - len))

/-- A sweep query (R152): QUIET is FLAGS bit 0, CONFIRM bit 1. -/
def sweepPayload (len : Nat) (pre : Eui) (id winMs flags : Nat) : List Octet :=
  [0xD0] ++ octetsBE len 1 ++ octetsBE (maskPrefix len pre).toNat 8 ++ octetsBE id 2 ++ octetsBE winMs 2 ++ octetsBE flags 1

/-- A sweep's frame is a C4 job on its stream, unsecured, with acknowledgement requested only for QUIET (R151). It has no
deadline of its own. -/
def Dev.sweepJob (d : Dev) (s len : Nat) (pre : Eui) (flags dst : Nat) : Dev :=
  d.queueJob { Job.base .sweep none 4 d.clk (d.clk + secT (2 ^ 36)) (sweepPayload len pre (d.sweep s).id d.discWinMs flags) with
    via := some (s, 0, ⟨false, 0, 0, false⟩), ar := flags == 1, secured := false, pl := true, dst := dst }

/-- The meters a sweep has found and still has to confirm. -/
def Sweep.unconfirmed (w : Sweep) : List Found := w.found.filter fun f => !f.known && !f.done

/-- Discovery commits of the confirmed meters, in ascending EUI-64 order (R155). -/
def Dev.discover (d : Dev) (s id : Nat) (fs : List Found) : List CommitItem :=
  (fs.foldr (insertOn fun (f : Found) => f.eui.toNat) []).map fun f =>
    { cls := 4, tag := d.now, stream := s, sub := 0, slot := none,
      kind := .discovery ⟨none, 4, d.now, s, 0, f.lq, true, 0, 0, f.eui, d.now⟩ f.typ f.mods id false }

/-- The sweep has confirmed or dropped every meter: the commits, the event and IDLE (R154, R155). -/
def Dev.sweepEnd (d : Dev) (s : Nat) : Dev :=
  let w := d.sweep s
  let ok := w.found.filter fun f => !f.known && f.done
  let d1 := ((d.discover s w.id ok).foldl (fun (x : Dev) i => x.queueCommit i) d).countN (fDiscFound s) ok.length
  (d1.raise 0x031 [s, w.id, ok.length, b2n w.trunc]).setSweep s { Sweep.init with id := w.id, last := w.last }

/-- CONFIRM: the next meter not yet confirmed is queried, or the sweep ends (R154, R155). A unicast query names the meter with its whole
address: the spec does not say what PREFIX_LEN and PREFIX then hold (DESIGN CHOICE, notes/assumptions/64.md). -/
def Dev.sweepConfirm (d : Dev) (s : Nat) : Dev :=
  let w := d.sweep s
  match w.unconfirmed with
  | [] => d.sweepEnd s
  | f :: _ => (d.setSweep s { w with st := .confirm, heard := false, reps := [] }).sweepJob s 64 f.eui 2 (euiDst f.eui)

/-- QUERY: the next prefix is queried, those passed over that are never to be queried again; an empty stack or SWEEP_MAX meters lead to
CONFIRM (R153, R154). Repliers already in the directory do not count towards SWEEP_MAX, and a sweep that has reached it is TRUNCATED also
where its stack is empty: the spec says neither (DESIGN CHOICE, notes/assumptions/64.md). -/
def Dev.sweepQuery (d : Dev) (s : Nat) : Dev :=
  let w := d.sweep s
  let full := decide (d.sweepMax ≤ (w.found.filter fun f => !f.known).length)
  match w.stack.dropWhile w.never.contains, full with
  | _, true => (d.setSweep s { w with trunc := true }).sweepConfirm s
  | [], false => d.sweepConfirm s
  | p :: r, false =>
    (d.setSweep s { w with st := .query, stack := r, cur := p }).sweepJob s p.1 p.2 0 0xFFFF

/-- The start prefixes, each with zeros below its length, in ascending order, or the empty one (R152, R153). -/
def Dev.sweepStack (d : Dev) : List (Nat × Eui) :=
  let ps := (d.startPrefixes.map fun p => (p.1, maskPrefix p.1 p.2)).foldr (insertOn fun (p : Nat × Eui) => p.2.toNat) []
  if ps.isEmpty then [(0, 0)] else ps

/-- A sweep starts (R151, R153) under a new SWEEP_ID. -/
def Dev.sweepBegin (d : Dev) (s : Nat) : Dev :=
  let w := d.sweep s
  (d.setSweep s { Sweep.init with
    st := .query, id := (w.id + 1) % 65536, stack := d.sweepStack, last := w.last }).sweepQuery s

/-- The two longer prefixes of one, the 0 branch first (R153). -/
def splitPrefix (p : Nat × Eui) : List (Nat × Eui) :=
  [(p.1 + 1, p.2), (p.1 + 1, p.2 ||| BitVec.ofNat 64 (2 ^ (63 - p.1)))]

/-- COLLIDED (R153): the prefix is split, or at length 64 counted and reported. Of more than 65 prefixes those at the far end of the stack
are left out (DESIGN CHOICE, notes/assumptions/64.md). -/
def Dev.sweepCollided (d : Dev) (s : Nat) : Dev :=
  let w := d.sweep s
  if w.cur.1 < 64 then (d.setSweep s { w with stack := (splitPrefix w.cur ++ w.stack).take 65 }).sweepQuery s
  else
    ((d.count (fDupEui s)).raise 0x030 [s, w.cur.2.toNat / 2 ^ 32 * 16, w.cur.2.toNat % 2 ^ 32 * 16]).sweepQuery s

/-- Every QUIET has ended: the same prefix again, or treated as collided where one was not acknowledged (R153). -/
def Dev.sweepQuieted (d : Dev) (s : Nat) : Dev :=
  let w := d.sweep s
  if w.fail then (d.setSweep s { w with fail := false, never := w.cur :: w.never }).sweepCollided s
  else (d.setSweep s { w with stack := w.cur :: w.stack }).sweepQuery s

/-- A job carries a frame of the sweep that runs under an identifier. -/
def Job.ofSweep (j : Job) (id : Nat) : Bool := ofBE ((j.payload.drop 10).take 2) == id

/-- The meters found with those whose QUIET has been acknowledged marked (R153). -/
def Sweep.quieted (w : Sweep) (dst : Nat) (ok : Bool) : List Found :=
  w.found.map fun f => if ok && euiDst f.eui == dst then { f with quiet := true } else f

/-- A sweep's job has ended (R154): a query sent opens its window; a query that could not be sent is sent again; each
QUIET counts off. The end of an earlier sweep's job says nothing of this one. -/
def Dev.sweepJobDone (d : Dev) (s res : Nat) (j : Job) : Dev :=
  let w := d.sweep s
  if !j.ofSweep w.id then d
  else match w.st with
  | .query =>
    if res == 1 then d.setSweep s { w with st := .wait, since := d.clk, heard := false, reps := [] }
    else d.sweepJob s w.cur.1 w.cur.2 0 0xFFFF
  | .quiet =>
    let w1 : Sweep := { w with
      todo := w.todo.filter fun e => euiDst e != j.dst
      found := w.quieted j.dst (res == 0)
      fail := w.fail || res != 0 }
    if w1.todo.isEmpty then (d.setSweep s w1).sweepQuieted s else d.setSweep s w1
  | .confirm =>
    if res == 1 then d.setSweep s { w with since := d.clk, reps := [], heard := true }
    else match w.unconfirmed with
      | f :: _ => d.sweepJob s 64 f.eui 2 (euiDst f.eui)
      | [] => d
  | _ => d

/-- A reply reaches the sweep engine in WAIT or CONFIRM (R152, R153); one from a meter already quieted is ignored in WAIT. -/
def Dev.sweepTake (d : Dev) (s : Nat) (r : SweepReply) : Dev :=
  let w := d.sweep s
  if !r.answers w.id then d
  else
    match w.st with
    | .wait =>
      if w.found.any (fun f => f.eui == r.src && f.quiet) || w.reps.any (fun q => q.src == r.src) then d
      else d.setSweep s { w with reps := w.reps ++ [r] }
    | .confirm => d.setSweep s { w with reps := w.reps ++ [r] }
    | _ => d

/-- A replier becomes a found meter; one already in the directory is known (R153). -/
def Dev.foundOf (d : Dev) (r : SweepReply) : Found :=
  { eui := r.src, typ := ofBE ((r.octets.drop 3).take 2), mods := ofBE ((r.octets.drop 5).take 1), lq := r.lq,
    known := (d.lookup r.src).isSome, quiet := false, tries := 0, done := false }

/-- A query's window ends (R153): each replier is recorded, once, and sent QUIET. -/
def Dev.sweepWindow (d : Dev) (s : Nat) : Dev :=
  let w := d.sweep s
  if w.reps.isEmpty then if w.heard then d.sweepCollided s else d.sweepQuery s
  else
    let fs := w.reps.map d.foundOf
    let new := fs.filter fun f => !(w.found.any fun g => g.eui == f.eui)
    let d1 := d.countN (fDiscKnown s) (fs.filter Found.known).length
    let d2 := d1.setSweep s { w with st := .quiet, found := w.found ++ new, todo := fs.map Found.eui, fail := false, reps := [] }
    fs.foldl (fun x f => x.sweepJob s 64 f.eui 1 (euiDst f.eui)) d2

/-- A confirmation window ends (R155). -/
def Dev.confirmWindow (d : Dev) (s : Nat) : Dev :=
  let w := d.sweep s
  match w.unconfirmed with
  | [] => d.sweepEnd s
  | f :: _ =>
    let upd (g : Found → Found) : List Found := w.found.map fun x => if x.eui == f.eui then g x else x
    if w.reps.any fun r => r.src == f.eui then
      (d.setSweep s { w with heard := false, found := upd fun x => { x with done := true } }).sweepConfirm s
    else if f.tries + 1 < d.confTries then
      (d.setSweep s { w with heard := false, found := upd fun x => { x with tries := x.tries + 1 } }).sweepConfirm s
    else
      ((d.setSweep s { w with heard := false, found := w.found.filter fun x => x.eui != f.eui }).count (fDiscDropped s)).sweepConfirm s

/-- SWEEP_H hours of device time have passed since the stream's last period (R151); the first falls when it will (notes/assumptions/3.md). -/
def Dev.sweepDue (d : Dev) (s : Nat) : Bool :=
  decide (0 < d.sweepH) && ((d.sweep s).last == 0 || decide ((d.sweep s).last + d.sweepH * 3600 ≤ d.nowS))

/-- SWEEP_PERIOD (R151): a stream that sweeps already goes on with its sweep. -/
def execSweepPeriod (t stream : Nat) (s : State) : Result := run t s fun d =>
  if d.sweepDue stream then
    let d1 := d.setSweep stream { d.sweep stream with last := d.nowS }
    if d1.plUp stream && (d1.sweep stream).st == .idle then d1.sweepBegin stream else d1
  else d

/-- SWEEP_REPLY (R152, R153, R155). -/
def execSweepReply (t stream : Nat) (r : SweepReply) (s : State) : Result := run t s fun d => d.sweepTake stream r

/-- SWEEP_WINDOW_END (R153, R155): DISC_WIN_MS after the query was sent. In CONFIRM the window stands open once its
query has been sent. -/
def execSweepWindowEnd (t stream : Nat) (s : State) : Result := run t s fun d =>
  let w := d.sweep stream
  if !d.passedMs w.since d.discWinMs then d
  else match w.st with
    | .wait => d.sweepWindow stream
    | .confirm => if w.heard then d.confirmWindow stream else d
    | _ => d

end Sys2Proof.Machine
end

