-- ==== Sys2Proof/Machine/Commands.lean ====
section
/-!
DEFINITION. COMMAND messages: how one is judged and answered, the meter commands and the device commands (spec 06, R161,
R195; 07, R202–R222; 12, R345–R348; 19, R484).
-/

namespace Sys2Proof.Machine

/-! Judging a command (R202). -/

/-- Entries of the command table (R203). -/
def cmdTableSize : Nat := 1024

/-- Entries of the transaction table (R206). -/
def txnTableSize : Nat := 262144

/-- The table entry of a command accepted now. -/
def Dev.newCmd (d : Dev) (m : CmdMsg) : Cmd :=
  { id := m.id, kind := m.kind, atS := m.atS, accepted := d.clk, deadline := d.clk + secT m.deadline, ord := d.cmd.ord,
    ended := false, targets := 0, ok := 0, notOk := 0, reason := 0, csn := 0, finalBno := 0, args := m.args, waiting := [],
    late := false, phase := 0, cancelled := false, freed := false }

/-- A command takes its place in the table. -/
def Dev.putCmd (d : Dev) (c : Cmd) : Dev :=
  let d1 := d.setCmd c
  { d1 with cmd := { d1.cmd with ord := d1.cmd.ord + 1 } }

/-- The campaign a CAMPAIGN command is of, as its summary says (R211): the one it creates, or the one it names, 0 where there is none. -/
def Dev.campNamed (d : Dev) (m : CmdMsg) : Option Nat :=
  if m.kind != 6 then none
  else if m.campOp == 0 then some (fld (m.args.getD 2 0) 35 30)
  else some ((d.campOf (m.args.getD 1 0).toNat).getD 0)

/-- A refused command commits a summary and changes nothing else (R202, R348). -/
def Dev.refuse (d : Dev) (m : CmdMsg) (code : Nat) : Dev :=
  let r := d.summary m.id m.kind code false 0 0 0 (d.campNamed m)
  r.2.cmdAck m.ref m.id 3 code r.1

/-- A device command, or one that commits only its own summary, has had its effect (R209, R210). -/
def Dev.done (d : Dev) (m : CmdMsg) : Dev :=
  let bno := d.led.bno
  let r := d.summary m.id m.kind rcComplete false 0 0 0 (d.campNamed m)
  (r.2.putCmd { d.newCmd m with ended := true, reason := rcComplete, csn := r.1, finalBno := bno }).cmdAck m.ref m.id 2 rcComplete r.1

/-- A COMMAND is judged in the order of R202: discarded after mains loss (R359), BUSY in recovery (R443), unanswered where
no ledger runs, a repeat answered (R203), then BAD_ARG, TABLE_FULL and the kind's own refusals. What it commits goes through the arbiter as
class C1 (R27). -/
def Dev.command (d0 : Dev) (m : CmdMsg) (kind : Nat) (fits : Bool) (own : Dev → Option Nat) (go : Dev → Dev) : Dev :=
  if d0.pw.hu.isSome then d0.count fHoldupDrop
  else if d0.boot.recovery != 0 then d0.cmdAck m.ref m.id 3 rcBusy 0
  else if !d0.ledgerRuns then d0
  else match d0.listed m.id with
    | some c => d0.cmdAck m.ref m.id (if c.ended then 2 else 1) c.reason c.csn
    | none =>
      let d := d0.letPass 1
      if !(m.sound kind && fits) then d.refuse m rcBadArg
      else if cmdTableSize ≤ d.cmdCount then d.refuse m rcTableFull
      else match own d with
        | some code => d.refuse m code
        | none => go d

/-! Targets (R205). -/

/-- The assigned slots that pass `p`, ascending. -/
def Dev.assigned (d : Dev) (p : Nat → MeterRec → Bool) : List Nat :=
  (d.led.recs.filter fun e => e.2.inUse && p e.1 e.2).map fun e => e.1

/-- The slots a target names, ascending, each once; a LIST's unassigned ones among them (R205). -/
def Dev.targets (d : Dev) (m : CmdMsg) : List Nat :=
  let w (i : Nat) : Word := m.tgts.getD i 0
  match m.form with
  | 0 => ((m.tgts.map fun x => fld x 35 15).foldr (insertOn id) []).eraseDups
  | 1 => d.assigned fun n _ => decide (fld (w 0) 35 15 ≤ n) && decide (n ≤ fld (w 1) 35 15)
  | 2 => d.assigned fun _ r => r.mtype == fld (w 0) 35 20
  | 3 => d.assigned fun n _ => memZv (d.memWord n) && memZone (d.memWord n) == fld (w 0) 35 20
  | _ => d.assigned fun _ _ => true

/-- A target's own refusal (R205). -/
def Dev.targetRefusal (d : Dev) (m : CmdMsg) : Option Nat :=
  let w (i : Nat) : Word := m.tgts.getD i 0
  if m.form == 1 && decide (fld (w 1) 35 15 < fld (w 0) 35 15) then some rcBadArg
  else if m.form == 3 && decide (4095 < fld (w 0) 35 20) then some rcBadArg
  else if (d.targets m).all fun n => (d.rec? n).isNone then some rcEmpty
  else none

/-! Meter commands (R206–R209). -/

/-- A meter command is accepted: its entry, its place in the table, its answer (R202, R348, R392). -/
def Dev.accept (d : Dev) (m : CmdMsg) (n : Nat) : Dev :=
  let r := d.summary m.id m.kind rcAccepted false n 0 0 none
  ((r.2.journal r.1 m.words).putCmd { d.newCmd m with targets := n, reason := rcAccepted, csn := r.1 }).cmdAck m.ref m.id 1 rcAccepted
    r.1

def Dev.setWaiting (d : Dev) (id : Nat) (l : List Nat) : Dev :=
  match d.cmd? id with
  | some c => d.setCmd { c with waiting := l }
  | none => d

/-- Transactions open in slot order while the table has room; the others wait (R206). -/
def Dev.openMore (d : Dev) (c : Cmd) (mcmd deadline : Nat) : List Nat → Dev
  | [] => (d.setWaiting c.id []).cmdFinish c.id
  | n :: r =>
    if txnTableSize ≤ d.openTxns then d.setWaiting c.id (n :: r)
    else (d.openTxn c n mcmd deadline).openMore c mcmd deadline r

/-- A meter command of a kind with nothing else to do at acceptance. -/
def Dev.meterCommand (d : Dev) (m : CmdMsg) (mcmd : Nat) (deadline : Nat) : Dev :=
  let ts := d.targets m
  (d.accept m ts.length).openMore (d.newCmd m) mcmd deadline ts

/-- READ (R215). -/
def execRead (t : Nat) (m : CmdMsg) (s : State) : Result := run t s fun d =>
  d.command m 0x01 (m.tgtsFit && m.argWords == 2) (fun d => d.targetRefusal m) fun d =>
    d.meterCommand m 1 (d.clk + secT m.deadline)

/-- DISCONNECT (R216). -/
def execDisconnect (t : Nat) (m : CmdMsg) (s : State) : Result := run t s fun d =>
  d.command m 0x02 (m.tgtsFit && m.argWords == 0) (fun d => d.targetRefusal m) fun d =>
    d.meterCommand m 2 (d.clk + secT m.deadline)

/-- RECONNECT (R216). -/
def execReconnect (t : Nat) (m : CmdMsg) (s : State) : Result := run t s fun d =>
  d.command m 0x03 (m.tgtsFit && m.argWords == 0) (fun d => d.targetRefusal m) fun d =>
    d.meterCommand m 3 (d.clk + secT m.deadline)

/-- TARIFF_PUSH's own refusals: of its target, PAST, then BAD_ARG for an ACT_S not later than CUT_S (R205, R221). -/
def Dev.pushRefusal (d : Dev) (m : CmdMsg) : Option Nat :=
  let cut := (m.args.getD 1 0).toNat
  match d.targetRefusal m with
  | some c => some c
  | none => if cut * 2 ^ 36 ≤ d.now then some rcPast else if (m.args.getD 2 0).toNat ≤ cut then some rcBadArg else none

/-- TARIFF_PUSH (R221). -/
def execTariffPush (t : Nat) (m : CmdMsg) (s : State) : Result := run t s fun d =>
  let len := fld (m.args.getD 0 0) 27 17
  d.command m 0x04 (m.tgtsFit && decide (1 ≤ len) && decide (len ≤ 1536) && m.argWords == 3 + cdiv len 4) (fun d => d.pushRefusal m) fun d =>
    d.meterCommand m 4 (d.atSecond (m.args.getD 1 0).toNat)

/-! Key rotation (R217, R484). -/

def fUnwrapFail : Fld := ⟨0x04D4, 17, 0⟩

/-- A key delivered for a slot in eight words, and whether its GCM tag passes (R484). -/
def Dev.deliveredTo (d : Dev) (cmd slot idx : Nat) (eui : Eui) (g : List Word) : List Octet × Bool :=
  d.delivered cmd slot idx eui d.pairId (g.drop 1)

/-- A listed slot's key (R484), under the EUI-64 of its record. -/
def Dev.rotateKey (d : Dev) (cmd slot : Nat) (g : List Word) : List Octet × Bool :=
  d.deliveredTo cmd slot (fld (g.getD 0 0) 35 28) (((d.rec? slot).map MeterRec.eui).getD 0) g

/-- One listed meter of a KEY_ROTATE (R217). -/
def Dev.rotateOne (d : Dev) (c : Cmd) (slot : Nat) (g : List Word) : Dev :=
  let idx := fld (g.getD 0 0) 35 28
  let key := d.rotateKey c.id slot g
  let bad (x : Dev) : Dev := (x.meterResult c.id 5 slot rcBadArg 15 0 0 (keyDetail idx false) 0 0 false).tally c.id false
  match d.rec? slot with
  | none => (d.meterResult c.id 5 slot rcUnassigned 15 0 0 (keyDetail idx false) 0 0 false).tally c.id false
  | some r =>
    if idx == r.keyCur then bad d
    else if !key.2 then bad (d.count fUnwrapFail)
    else if 7 ≤ r.openTx then (d.meterResult c.id 5 slot rcBusySlot 15 0 0 (keyDetail idx false) 0 0 false).tally c.id false
    else
      let k := { d.keyBlock slot with next := d.wrap keyNextP idx slot key.1 }
      let d1 := (d.setKeys slot k).setRec slot ({ r with keyNext := idx, keyNextV := true }.setBit sbKeyRot true)
      let csn := d1.led.csn
      (d1.meterResult c.id 5 slot rcProgress 15 0 0 (keyDetail idx (r.ctrEndEv || r.txCtr == 0xFFFFFFFF)) 0 0 false).journal csn
        (W idx :: k.words)

/-- The groups of a KEY_ROTATE that end their meter at once: an unassigned slot, the same index, a tag that fails, or an
eighth open transaction. -/
def Dev.rotateBad (d : Dev) (cmd slot : Nat) (g : List Word) : Bool :=
  match d.rec? slot with
  | some r => fld (g.getD 0 0) 35 28 == r.keyCur || !(d.rotateKey cmd slot g).2 || decide (7 ≤ r.openTx)
  | none => true

/-- The slots a KEY_ROTATE lists, each with its eight words, in ascending order (R217). -/
def listedSlots (m : CmdMsg) : List (Nat × List Word) :=
  (m.tgts.mapIdx fun i w => (fld w 35 15, (m.args.drop (8 * i)).take 8)).foldr (insertOn fun x => x.1) []

/-- A KEY_ROTATE is accepted: each listed slot is told apart or given its next key, and the transactions of the latter open (R217). -/
def Dev.rotate (d : Dev) (m : CmdMsg) : Dev :=
  let c := d.newCmd m
  let good := ((listedSlots m).filter fun x => !d.rotateBad c.id x.1 x.2).map fun x => x.1
  ((listedSlots m).foldl (fun (x : Dev) e => x.rotateOne c e.1 e.2) (d.accept m (listedSlots m).length)).openMore c 6 c.deadline good

/-- KEY_ROTATE's own refusals: of its target, and a slot listed twice (R205, R217). -/
def Dev.rotateRefusal (d : Dev) (m : CmdMsg) : Option Nat :=
  match d.targetRefusal m with
  | some c => some c
  | none => if m.tgts.length != (d.targets m).length then some rcBadArg else none

/-- KEY_ROTATE (R217, R218, R484), the listed slots in ascending order. -/
def execKeyRotate (t : Nat) (m : CmdMsg) (s : State) : Result := run t s fun d =>
  d.command m 0x05 (m.tgtsFit && m.form == 0 && m.argWords == 8 * m.tgtWords) (fun d => d.rotateRefusal m) fun d => d.rotate m

/-! Transactions (R206, R207). -/

/-- An earlier command has a transaction of the slot that is open or waits (R206). -/
def Dev.earlierTxn (d : Dev) (c : Cmd) (slot : Nat) : Bool :=
  (d.cmd.txns.any fun p => p.2.slot == slot && p.2.isOpen && ((d.cmd? p.2.cmd).map fun k => decide (k.ord < c.ord)).getD false)
    || d.cmd.tab.any fun p => decide (p.2.ord < c.ord) && p.2.waiting.contains slot

/-- The meter command octet of a kind's first transaction (R213). -/
def firstMcmd (kind : Nat) : Nat := [0, 1, 2, 3, 4, 6].getD kind 0

/-- When a command's transactions end at the latest (R207, R221). -/
def Dev.txnDeadlineOf (d : Dev) (c : Cmd) : Nat := if c.kind == 4 then d.atSecond (c.args.getD 1 0).toNat else c.deadline

/-- TRANSACTION_OPEN (R206, R207, R219): a waiting slot's transaction opens once the table has room, and starts once the
slot's earlier transactions have ended; a tariff member staged by another push meanwhile ends BUSY_SLOT (R222). -/
def execTransactionOpen (t cmd slot : Nat) (s : State) : Result := run t s fun d0 =>
  match d0.cmd? cmd with
  | none => d0
  | some c0 =>
    if !d0.ledgerRuns then d0
    else
      let d := d0.letPass 1
      let c := (d.cmd? cmd).getD c0
      let d1 := if c.waiting.head? == some slot && decide (d.openTxns < txnTableSize) then
          ((d.setWaiting cmd (c.waiting.drop 1)).openTxn c slot (firstMcmd c.kind) (d.txnDeadlineOf c)).cmdFinish cmd
        else d
      match d1.txn? cmd slot with
      | some x =>
        if x.st != .opened || d1.earlierTxn c slot then d1
        else if c.kind == 4 && x.mcmd == 4 && ((d1.rec? slot).map MeterRec.stagedV).getD false then d1.endTxn x rcBusySlot 0 (d1.plainDetail cmd c.kind slot) 0 0
        else d1.tryAny x
      | none => d1

/-- A job of a transaction has a lane: its attempt finishes first (R207). -/
def Dev.txnOnAir (d : Dev) (x : Txn) : Bool :=
  let mine (pl : Bool) (j : Job) : Bool := j.who == .txn x.cmd x.slot && d.jobOnAir pl j
  d.air.jobs.any (fun p => mine false p.2) || d.pl.jobs.any fun p => mine true p.2

/-- The transaction's response is in validation or on its way to its commit: it has arrived (R208, R215). -/
def Dev.txnReading (d : Dev) (x : Txn) : Bool :=
  (match NMap.find d.led.inVal x.slot with
    | some v => (v.resp.map (·.1)) == some x.cmd
    | none => false) ||
  (d.items 2).any fun i => match i with
    | .commit ⟨_, _, _, _, some n, .response _ os⟩ =>
      n == x.slot && ((parseResponse os).map fun r => r.txid == x.cmd && r.cmd == x.mcmd).getD false
    | _ => false

/-- RESP_WAIT_EXPIRY (R207); a KEY_SWITCH that was acknowledged while the ledger did not run swaps the keys first (R218). -/
def execRespWaitExpiry (t cmd slot : Nat) (s : State) : Result := run t s fun d =>
  match d.txn? cmd slot with
  | some x =>
    if !d.ledgerRuns || x.st != .resp || d.txnReading x then d
    else if x.switched then d.keySwitchAcked x
    else if !d.passedMs x.wait (d.respWaitS * 1000) then d
    else if x.deadline ≤ d.clk then d.txnDeadline x
    else
      let e := d.letPass 1
      match (e.txn? cmd slot).filter fun y => y.st == .resp with
      | some y => e.tryAny y
      | none => e
  | none => d

/-- TRANSACTION_DEADLINE (R207, R208): a transaction never opened ends JOB_FAIL, no job having been sent. -/
def execTransactionDeadline (t cmd slot : Nat) (s : State) : Result := run t s fun d =>
  match d.cmd? cmd with
  | none => d
  | some c =>
    if c.waiting.contains slot then
      if !d.ledgerRuns || d.clk < d.txnDeadlineOf c || c.kind == 4 then d
      else
        let d1 := (d.letPass 1).setWaiting cmd (c.waiting.filter fun n => n != slot)
        ((d1.meterResult cmd c.kind slot rcJobFail 15 0 0 (d1.plainDetail cmd c.kind slot) 0 0 false).tally cmd false).cmdFinish cmd
    else
      match d.txn? cmd slot with
      | some x =>
        if !d.ledgerRuns || !x.isOpen || d.clk < x.deadline || d.txnOnAir x || d.txnReading x then d
        else if x.switched then d.keySwitchAcked x else d.txnDeadline x
      | none => d

/-! Tariff pushes (R221). -/

/-- Transactions of a command in slot order. -/
def Dev.txnsOf (d : Dev) (cmd : Nat) : List Txn := (d.cmd.txns.filter fun p => p.2.cmd == cmd).map fun p => p.2

/-- A member is staged by this push. -/
def Dev.isStaged (d : Dev) (x : Txn) : Bool := x.staged && !x.over' && ((d.rec? x.slot).map MeterRec.stagedV).getD false

/-- At CUT_S: members not staged end EXCLUDED, those never opened too; a member acknowledged and silent is sent
TARIFF_CANCEL (R221). -/
def Dev.tariffCut (d : Dev) (c : Cmd) : Dev :=
  let act := d.atSecond (c.args.getD 2 0).toNat
  let never := c.waiting
  let d1 := (d.txnsOf c.id).foldl (fun x e =>
    if e.over' || x.isStaged e then x
    else
      let silent := e.last == 0 && e.isOpen
      let y := x.tariffEnd e rcExcluded id
      if silent then y.tariffCancel e act else y) (d.setWaiting c.id [])
  let d2 := never.foldl (fun x n => (x.meterResult c.id 4 n rcExcluded 15 0 0 (x.plainDetail c.id 4 n) 0 0 false).tally c.id false) d1
  match d2.cmd? c.id with
  | some k => d2.setCmd { k with phase := 1 }
  | none => d2

/-- TARIFF_CUT (R221). -/
def execTariffCut (t cmd : Nat) (s : State) : Result := run t s fun d =>
  match d.cmd? cmd with
  | some c =>
    if d.ledgerRuns && c.kind == 4 && !c.ended && !c.cancelled && c.phase == 0 && decide ((c.args.getD 1 0).toNat ≤ d.nowS) then
      (d.letPass 1).tariffCut c
    else d
  | none => d

/-- TARIFF_SWITCH (R221, R222): each staged member in slot order, then the summary. -/
def execTariffSwitch (t cmd : Nat) (s : State) : Result := run t s fun d =>
  match d.cmd? cmd with
  | some c =>
    if !d.ledgerRuns || c.kind != 4 || c.ended || c.cancelled || c.phase != 1
        || decide (d.nowS < (c.args.getD 2 0).toNat + d.actGraceMin * 60) then d
    else
      let p := d.letPass 1
      let d1 := (p.txnsOf cmd).foldl (fun x e =>
        if x.isStaged e then
          x.tariffEnd e rcOk fun r => { r with ttActive := r.ttStaged, stagedV := false }
        else x) p
      match d1.cmd? cmd with
      | some k => d1.finalSummary { k with phase := 3 } none
      | none => d1
  | none => d

/-- A push is cancelled (R209, R221): staged members are sent TARIFF_CANCEL and end CANCELLED; of the others a job on air finishes and a
response awaited still ends its transaction, and the rest end CANCELLED. The summary follows the last of them. -/
def Dev.tariffStop (d : Dev) (c : Cmd) : Dev :=
  let act := d.atSecond (c.args.getD 2 0).toNat
  let d1 := (d.txnsOf c.id).foldl (fun x e =>
    if e.over' then x
    else if x.isStaged e then x.tariffUndo e act
    else if e.st == .resp || (e.st == .job && x.txnOnAir e) then x
    else x.tariffEnd e rcCancelled id) (d.setCmd { c with cancelled := true, phase := 3, waiting := [] })
  (c.waiting.foldl (fun x n =>
    (x.meterResult c.id 4 n rcCancelled 15 0 0 (x.plainDetail c.id 4 n) 0 0 false).tally c.id false) d1).cmdFinish c.id

/-! Cancelling (R209). -/

/-- A transaction whose job is on air runs on; one whose job is withdrawn unstarted ends (R209). -/
def Dev.cancelTxn (d : Dev) (x : Txn) : Dev :=
  let det := d.plainDetail x.cmd (((d.cmd? x.cmd).map Cmd.kind).getD 0) x.slot
  match x.st with
  | .opened => d.endTxn x rcCancelled 0 det 0 0
  | .job => if d.txnOnAir x then d else d.endTxn x rcCancelled 0 det 0 0
  | _ => d

/-- A meter command is cancelled (R209): transactions not started end at once, those waiting for their answer run on. -/
def Dev.cancelMeters (d : Dev) (c : Cmd) : Dev :=
  let d0 := d.setCmd { c with cancelled := true, waiting := [] }
  let d1 := c.waiting.foldl (fun x n => (x.meterResult c.id c.kind n rcCancelled 15 0 0 (x.plainDetail c.id c.kind n) 0 0 false).tally c.id false) d0
  ((d1.txnsOf c.id).foldl (fun x e => if e.isOpen then x.cancelTxn e else x) d1).cmdFinish c.id

/-- States 1 to 7 of a campaign's members (R228). -/
def campRunning (st : Nat) : Bool := decide (1 ≤ st) && decide (st ≤ 7)

/-- Every member that is not terminal ends with a code in a state; those `tell` picks by state are sent FW_CANCEL, and the
slots not yet armed end too (R228, R229). -/
def Dev.campClear (d : Dev) (id : Nat) (c : Camp) (pick tell : Nat → Bool) (st code : Nat) : Dev :=
  let d1 := c.members.foldl (fun x p =>
    let old := x.stateIn id p.1
    if campTerminal old || !pick old then x
    else
      let y := (x.withdraw (fun j => j.who == .camp id p.1) (some p.1)).memberTo id p.1 st code 0 0
      if tell old then y.sendCancel id p.1 else y) d
  c.toArm.foldl (fun x n =>
    (x.updCamp id fun k => { k with toArm := k.toArm.drop 1, members := NMap.put k.members n Member.none }).memberTo id n st code
      0 0) d1

/-- A campaign is cancelled (R228): before ACT_S its members end CANCELLED and are sent FW_CANCEL; after it only traffic
that has not started stops. -/
def Dev.cancelCamp (d : Dev) (id : Nat) (c : Camp) : Dev :=
  if c.actS != 0 && decide (c.actS ≤ d.nowS) then
    (d.txnsOf c.cmd).foldl (fun x e =>
      if e.isOpen && (e.mcmd == 8 || e.mcmd == 10) && (e.st == .opened || (e.st == .job && !x.txnOnAir e)) then x.closeTxn e
      else x) d
  else d.campClear id c (fun _ => true) campRunning 13 rcCancelled

/-- What a CANCEL stops of a command, by its kind (R196, R209, R221, R228). -/
def Dev.cancelCmd (d : Dev) (c : Cmd) : Dev :=
  if c.kind == 4 then d.tariffStop c
  else if c.kind == 6 then
    match d.campOf c.id with
    | some id => match d.camp? id with | some k => d.cancelCamp id k | none => d
    | none => d
  else if c.kind == 0x0B then if d.led.rebuild.st == .build then d.abortRebuild 2 else d
  else d.cancelMeters c

/-- CANCEL (R209): a command that has ended or is unknown gives BAD_ARG. -/
def execCancel (t : Nat) (m : CmdMsg) (s : State) : Result := run t s fun d =>
  let own (d : Dev) : Option Nat := match d.listed (m.args.getD 0 0).toNat with
    | some c => if c.ended then some rcBadArg else none
    | none => some rcBadArg
  d.command m 0x07 (m.noTgts && m.argWords == 1) own fun d =>
    match d.listed (m.args.getD 0 0).toNat with
    | none => d
    | some c => (d.cancelCmd c).done m

/-! Device commands (R161, R195, R210). -/

/-- The record words 0 to 31 that ENROL's arguments give (R347): A0–A1 words 1–2, A2 word 0, A3 word 14, A4–A9 words
21–26. -/
def enrolWords (a : List Word) : List Word :=
  let w (i : Nat) : Word := a.getD i 0
  [w 2, w 0, w 1] ++ List.replicate 11 0 ++ [w 3] ++ List.replicate 6 0 ++ (List.range 6).map (fun i => w (4 + i)) ++ List.replicate 5 0

/-- SLOT_OFFSET_MS lies within its period, where the meter has one (R123). -/
def MeterRec.offsetOk (r : MeterRec) : Bool := r.pl || r.period == 0 || decide (r.offset < r.period * 1000)

/-- No field but SLOT_OFFSET_MS holds a value that R162 refuses (R97, R161, R353): IVL_MIN 0, ROLL_EXP 1–4 or 11–15, a battery meter on
powerline, or a DL_MODE whose MCS its option lacks. -/
def MeterRec.valuesOk (r : MeterRec) : Bool :=
  let y := phyOfMode r.dlMode
  r.ivlMin != 0 && (r.rollExp == 0 || (decide (5 ≤ r.rollExp) && decide (r.rollExp ≤ 10))) && !(r.pl && r.batt)
    && (r.pl || !y.ofdm || ofdmMcsOk y.n y.mcs)

/-- The record of a slot assigned now (R161, R162). -/
def Dev.enrolRec (d : Dev) (m : CmdMsg) : MeterRec :=
  let a := m.args
  let r := MeterRec.ofWords (enrolWords a)
  { r with
    inUse := true, state := 0, mail := false, openTx := 0
    keyCur := fld (a.getD 11 0) 35 28
    key := 0
    lastEnd := d.nowS / max 1 r.ivlS * r.ivlS
    route := none, cands := [], syncT := 0, syncOff := 0, horns := 0 }

/-- The lowest free slot (R161). -/
def Dev.freeSlot? (d : Dev) : Option Nat :=
  match NMap.freeFrom d.led.recs 0 (d.led.recs.length + 1) with
  | some n => if n < d.variant.slots then some n else none
  | none => none

/-- The membership word of an ENROL can stand for the new record. -/
def Dev.enrolMemberOk (d : Dev) (w : Word) (r : MeterRec) (slot : Nat) : Bool :=
  !memZv w || (d.zoneV (memZone w) && r.ivlMin == d.balIvlMin && !(d.zRefKind (memZone w) == 2 && d.zRefSlot (memZone w) == slot))

/-- The frame key an ENROL delivers (R484): its nonce holds 0xFFFFFF for the slot. -/
def Dev.enrolKey (d : Dev) (m : CmdMsg) : List Octet × Bool :=
  d.deliveredTo m.id 0xFFFFFF (fld (m.args.getD 11 0) 35 28) (d.enrolRec m).eui (m.args.drop 20)

/-- ENROL's own refusals in the order of R161, then R484 and R160. -/
def Dev.enrolRefusal (d : Dev) (m : CmdMsg) : Option Nat :=
  let r := d.enrolRec m
  let a := m.args
  match d.freeSlot? with
  | none => some rcSlotsFull
  | some n =>
    if (d.lookup r.eui).isSome then some rcExists
    else if !r.valuesOk || !r.offsetOk || (r.pl && (List.range 6).any fun i => a.getD (4 + i) 0 != 0) || !d.enrolMemberOk (a.getD 10 0) r n then
      some rcBadArg
    else if !(d.enrolKey m).2 then some rcBadArg
    else if (d.led.dir.insert (r.eui, n) d.draws).isNone then some rcDirFull
    else none

/-- The two EUI words and the third word of an ENROL or REMOVE body (R183). -/
def MeterRec.idBody (r : MeterRec) : List Word :=
  [pk [(r.eui.toNat / 2 ^ 32, 35, 4)], pk [(r.eui.toNat, 35, 4)], pk [(b2n r.pl, 35, 35), (b2n r.batt, 34, 34), (r.mtype, 33, 18)]]

/-- An insertion into the set in force, and into the new one while both are kept; a full new stash aborts the rebuild
(R160, R196, R197). -/
def Dev.dirInsert (d : Dev) (x : Eui × Nat) : Dev :=
  match d.led.dir.insert x d.draws with
  | none => d
  | some (s, n) =>
    let d1 : Dev := { d with draws := n, led := { d.led with dir := s } }
    if !d1.bothSets then d1
    else
      match d1.led.rebuild.new.insert x d1.draws with
      | some (s', n') => { d1 with draws := n', led := { d1.led with rebuild := { d1.led.rebuild with new := s' } } }
      | none => d1.abortRebuild 0

/-- A slot is assigned: record, keys, membership and directory entry in one commit, with its journal words (R161, R183,
R392). -/
def Dev.enrol (d : Dev) (m : CmdMsg) (n : Nat) : Dev :=
  let r0 := d.enrolRec m
  let r : MeterRec := { r0 with key := d.wrap keyCurrent r0.keyCur n (d.enrolKey m).1 }
  let k := { KeyBlock.ofWords ((m.args.drop 12).take 8) with next := 0 }
  let mw := W ((m.args.getD 10 0).toNat / 2 ^ 20 * 2 ^ 20)
  let d1 := ((d.setRec n r).setKeys n k).dirInsert (r.eui, n)
  let d2 := if memZv mw then (d1.memberMoves 0 mw).setMem n mw else d1.setMem n mw
  let d3 := if mw == 0 then d2 else d2.setBal { d2.bal with corr := NMap.put d2.bal.corr n (Corr.fresh d2.nowS) }
  let c := d3.append (mkEntry 0x04 1 d3.now (some n) r.nonet r.idBody)
  (c.2.journal c.1 (r.words ++ k.words ++ [mw])).dirEvents

/-- What a refused ENROL counts (R160, R484): a full directory or no free slot, or a key whose tag failed. -/
def Dev.enrolCount (d : Dev) (m : CmdMsg) (code : Nat) : Dev :=
  if code == rcDirFull || code == rcSlotsFull then d.count fDirFull
  else if code == rcBadArg && !(d.enrolKey m).2 then d.count fUnwrapFail else d

/-- ENROL (R161, R484). -/
def execEnrol (t : Nat) (m : CmdMsg) (s : State) : Result := run t s fun d =>
  d.command m 0x08 (m.noTgts && m.argWords == 28) (fun _ => none) fun d =>
    match d.enrolRefusal m, d.freeSlot? with
    | some code, _ => (d.enrolCount m code).refuse m code
    | none, some n => (d.enrol m n).done m
    | none, none => d

/-- A slot is removed: its REMOVE entry, membership, directory entry, jobs and windows; every open transaction and campaign
membership of it ends REMOVED (R161, R183, R210, R230, R240). -/
def Dev.removeSlot (d : Dev) (n : Nat) (r : MeterRec) : Dev :=
  let d0 := d.memberGone n
  let d1 := { d0 with led := { d0.led with
    dir := d0.led.dir.remove r.eui
    rebuild := { d0.led.rebuild with new := d0.led.rebuild.new.remove r.eui }
    recs := NMap.put d0.led.recs n MeterRec.blank
    keys := NMap.del d0.led.keys n
    heldS := NMap.put d0.led.heldS n d0.led.bno } }
  let d2 := (d1.commit (mkEntry 0x05 1 d1.now (some n) 0 r.idBody)).dirEvents
  let d3 := (d2.cmd.camps.filter fun p => (NMap.find p.2.members n).isSome || p.2.toArm.contains n).foldl (fun x p =>
    let over' := campTerminal r.campState && r.campId == p.1
    let e := x.campTxn p.2 n
    let y := x.setCamp p.1 { p.2 with members := NMap.del p.2.members n, toArm := p.2.toArm.filter fun k => k != n }
    let z := match e with
      | some u => y.setTxn { u with st := .ended, over' := true }
      | none => y
    if over' && !((e.map Txn.isOpen).getD false) then z
    else
      let w := z.meterResult p.2.cmd 6 n rcRemoved ((e.map Txn.last).getD 15) ((e.map Txn.jobs).getD 0) 0 (p.1 * 2 ^ 18) 0 0
        ((e.map Txn.late).getD false)
      if over' then w else (w.tally p.2.cmd false).campEnd p.1) d2
  let d4 := (d3.cmd.txns.filter fun p => p.2.slot == n && (p.2.isOpen || !p.2.over')).foldl (fun x p =>
    let e := p.2
    match x.cmd? e.cmd with
    | none => x
    | some c =>
      if c.kind == 6 then x.setTxn { e with st := .ended, over' := true }
      else if c.kind == 4 then
        let y := (x.setTxn { e with st := .ended, over' := true }).meterResult e.cmd 4 n rcRemoved e.last e.jobs 0 (d.plainDetail e.cmd 4 n)
          0 0 e.late
        if e.over' then y else (y.tally e.cmd false).cmdFinish e.cmd
      else x.endTxn e rcRemoved 0 (d.plainDetail e.cmd c.kind n) 0 0) d3
  let d5 := (d4.withdraw (fun j => j.slot == some n) none)
  { d5 with air := { d5.air with mail := NMap.del d5.air.mail n, horn := NMap.del d5.air.horn n } }

/-- REMOVE (R161, R347): a mismatch with the slot gives BAD_ARG. -/
def execRemove (t : Nat) (m : CmdMsg) (s : State) : Result := run t s fun d =>
  let a (i : Nat) : Word := m.args.getD i 0
  let n := fld (a 0) 35 15
  let eui : Eui := BitVec.ofNat 64 (fld (a 1) 35 4 * 2 ^ 32 + fld (a 2) 35 4)
  let own (d : Dev) : Option Nat := match d.rec? n with
    | some r => if r.eui == eui then none else some rcBadArg
    | none => some rcBadArg
  d.command m 0x09 (m.noTgts && m.argWords == 3) own fun d =>
    match d.rec? n with
    | some r => (d.removeSlot n r).done m
    | none => d

/-- A slot leaves quarantine, with a STATE entry of CAUSE 3 (R182, R210). -/
def Dev.clearQuar (d : Dev) (n : Nat) : Dev :=
  match d.rec? n with
  | some r => if r.has sbQuarantined then ((d.setRec n (r.setBit sbQuarantined false)).stateByCommand n r.nonet).2 else d
  | none => d

/-- CLEAR_QUAR (R210): any form. -/
def execClearQuar (t : Nat) (m : CmdMsg) (s : State) : Result := run t s fun d =>
  d.command m 0x0A (m.tgtsFit && m.argWords == 0) (fun d => d.targetRefusal m) fun d =>
    ((d.targets m).foldl (fun (x : Dev) n => x.clearQuar n) d).done m

/-- Words of DRAM that one set of tables of size `k`, the Mire, records and keys take (R3, R158, R162, R195). -/
def Dev.dramWords (d : Dev) (k : Nat) : Nat := 2 ^ (k + 4) + d.mirePages * 1024 + 48 * d.variant.slots

/-- REBUILD's own refusals (R195). -/
def Dev.rebuildRefusal (d : Dev) (k : Nat) : Option Nat :=
  if d.led.rebuild.st != .idle then some rcBusy
  else if 85 * 4 * 2 ^ k < 100 * d.led.dir.count then some rcDirSmall
  else if d.boot.dramGiw * 2 ^ 30 < d.dramWords k + 2 ^ (d.led.dir.log2 + 4) then some rcNoDram
  else none

/-- REBUILD (R195, R196): accepted, new seeds drawn, new tables zeroed. -/
def execRebuild (t : Nat) (m : CmdMsg) (s : State) : Result := run t s fun d =>
  let k := fld (m.args.getD 0 0) 35 31
  d.command m 0x0B (m.noTgts && m.argWords == 1 && decide (17 ≤ k) && decide (k ≤ 21)) (fun d => d.rebuildRefusal k) fun d =>
    let gen := nextGen d.led.dir.gen
    let d1 := d.accept m 0
    { d1 with
      draws := d1.draws + 4
      led := { d1.led with rebuild := ⟨.build, d1.clk, m.id, 0, DirSet.fresh k gen d1.draws⟩ } }

/-- SWEEP_START (R151, R154): BUSY while the stream sweeps, or while it is not up (R359). -/
def execSweepStart (t : Nat) (m : CmdMsg) (s : State) : Result := run t s fun d =>
  let n := m.sweepArg.1
  let own (d : Dev) : Option Nat := if (d.sweep n).st != .idle || !d.plUp n then some rcBusy else none
  d.command m 0x0C (m.noTgts && m.argWords == 1 && !m.sweepArg.2) own fun d => (d.sweepBegin n).done m

/-- SWEEP_STOP (R154): the sweep ends with nothing committed. -/
def execSweepStop (t : Nat) (m : CmdMsg) (s : State) : Result := run t s fun d =>
  d.command m 0x0C (m.noTgts && m.argWords == 1 && m.sweepArg.2) (fun _ => none) fun d => (d.abortSweep m.sweepArg.1).done m

end Sys2Proof.Machine
end

