-- ==== Sys2Proof/Machine/CampExec.lean ====
section
/-!
DEFINITION. Firmware campaign commands and events: creation, arming, rounds, cut-off and confirmation (spec 07, R219,
R223–R231; 12, R347).
-/

namespace Sys2Proof.Machine

/-! The descriptor (R223). -/

/-- A target of the descriptor. -/
def Target.ofWords (w : List Word) : Target :=
  { Target.none with
    pl := bitOf (w.getD 0 0) 35, stream := fld (w.getD 0 0) 34 30, sub := fld (w.getD 0 0) 29 22
    mode := fld (w.getD 0 0) 21 14, gwake := fld (w.getD 1 0) 35 12, group := fld (w.getD 2 0) 35 20
    keyIdx := fld (w.getD 2 0) 19 12 }

/-- The campaign a descriptor of 17 words and its targets describe. -/
def Camp.ofWords (cmd : Nat) (w : List Word) (image : Memory) : Camp :=
  let a (i : Nat) : Word := w.getD i 0
  { cmd := cmd, st := 1, nb := fld (a 0) 29 14, quads := fld (a 0) 13 5, fromVer := fld (a 1) 35 4,
    toVer := fld (a 2) 35 4, octets := (a 3).toNat, startS := (a 4).toNat, actS := (a 5).toNat,
    later := (a 5).toNat == 0, image := image, rate := fld (a 6) 35 24, rounds := fld (a 6) 23 16,
    duty := fld (a 6) 15 9, uniMax := fld (a 6) 8 0, rptWin := fld (a 7) 35 24, armMin := fld (a 7) 23 12,
    confMin := fld (a 7) 11 0, cutMin := fld (a 8) 35 24, hash := (w.drop 9).take 8,
    targets := (List.range (fld (a 8) 23 15)).map fun i => Target.ofWords ((w.drop (17 + 3 * i)).take 3),
    gkey := 0, mcCtr := 1, members := [], toArm := [], armAt := 0, deadline := 0 }

/-- A target's fields are in range (R223). -/
def Dev.targetOk (d : Dev) (g : Target) : Bool :=
  let y := phyOfMode g.mode
  g.group != 0xFFFE && g.group != 0xFFFF && g.group != d.netShort
    && (if g.pl then g.sub == 0
      else decide (g.stream < d.variant.streams) && spanInBand g.sub y && (!y.ofdm || ofdmMcsOk y.n y.mcs))

/-- Every field of a descriptor is in range (R223). -/
def Dev.campOk (d : Dev) (c : Camp) : Bool :=
  let blk := c.quads * 4
  c.nb != 0 && decide (16 ≤ c.quads) && decide (c.quads ≤ 384) && decide (1 ≤ c.octets) && decide (c.octets ≤ 16777216)
    && decide ((c.nb - 1) * blk < c.octets) && decide (c.octets ≤ c.nb * blk) && c.rate != 0 && c.rounds != 0
    && c.duty != 0 && decide (c.duty ≤ 100) && c.rptWin != 0 && c.armMin != 0 && c.confMin != 0 && c.cutMin != 0
    && c.targets.length != 0 && decide (c.targets.length ≤ 256) && c.targets.all d.targetOk

/-- A campaign start is late when it begins more than 1 s after START_S; whether it may still run (R219). -/
def Dev.startLate (d : Dev) (c : Camp) : Option Bool :=
  if d.now ≤ (c.startS + 1) * 2 ^ 36 then none else some (d.polCampStart.runs (d.nowS - c.startS))

/-- A campaign starts: its arming begins (R228). -/
def Dev.startCamp (d : Dev) (id : Nat) : Dev := d.updCamp id fun c => { c with st := 2, armAt := d.clk }

/-- A campaign that may not start late ends FAILED with no per-meter entry, and an event (R219). -/
def Dev.skipCamp (d : Dev) (id : Nat) : Dev :=
  match d.camp? id with
  | none => d
  | some c =>
    match d.cmd? c.cmd with
    | none => d
    | some k =>
      (((d.setCamp id { c with st := 6, toArm := [] }).count fLateSkip).raise 0x040 [c.cmd, 1]).finalSummary
        { k with targets := c.toArm.length } (some id)

/-- A campaign that is late starts at once, late, or is skipped; nothing where it is not late. -/
def Dev.lateStart (d : Dev) (id : Nat) (c : Camp) : Dev :=
  match d.startLate c with
  | none => d
  | some true => (match d.cmd? c.cmd with
      | some k => (d.count fLateRun).setCmd { k with late := true }
      | none => d).startCamp id
  | some false => d.skipCamp id

/-- The SHA-256 of the staged image is IMG_HASH (R223). -/
def Camp.hashOk (c : Camp) : Bool :=
  sha256 ((unpackOctets (Memory.readAll c.image 0 (cdiv c.octets 4))).take c.octets) == ofWords32 c.hash

/-- CAMPAIGN_CREATE's own refusals (R205, R223). -/
def Dev.createRefusal (d : Dev) (m : CmdMsg) (c : Camp) : Option Nat :=
  let id := fld (m.args.getD 2 0) 35 30
  match d.targetRefusal m with
  | some code => some code
  | none =>
    if !c.hashOk then some rcNoImage
    else if ((d.camp? id).bind fun k => d.listed k.cmd).isSome then some rcNoCampaign
    else if !d.campOk c then some rcBadArg
    else none

/-- What still runs of an ended campaign whose place in the table is free gives way to a new one with its CAMP_ID (R203; DESIGN CHOICE,
notes/assumptions/24.md). -/
def Dev.clearCamp (d : Dev) (id : Nat) : Dev :=
  match d.camp? id with
  | none => d
  | some c => (d.cmd.txns.filter fun p => p.2.cmd == c.cmd && p.2.isOpen).foldl (fun x p => x.closeTxn p.2) d

/-- A campaign is accepted (R202, R223): its summary, its group key, its members to be armed in slot order; a slot of a
LIST that is not assigned ends UNASSIGNED. -/
def Dev.createCamp (d : Dev) (m : CmdMsg) (c : Camp) : Dev :=
  let id := fld (m.args.getD 2 0) 35 30
  let late := d.startLate c == some true
  let ts := d.targets m
  let r := (d.clearCamp id).summary m.id 6 rcAccepted late 0 0 0 (some id)
  let d1 := (r.2.journal r.1 m.words).putCmd { d.newCmd m with reason := rcAccepted, csn := r.1, late := late }
  let k := d1.drawGroupKey id c.wrapIdx
  let d2 := k.2.setCamp id { c with
    gkey := k.1
    toArm := ts.filter fun n => (d.rec? n).isSome
    deadline := d.clk + secT m.deadline }
  let d3 := (d2.cmdAck m.ref m.id 1 rcAccepted r.1)
  let d4 := (ts.filter fun n => (d.rec? n).isNone).foldl (fun x n =>
    (x.meterResult m.id 6 n rcUnassigned 15 0 0 (id * 2 ^ 18) 0 0 false).tally m.id false) d3
  d4.lateStart id c

/-- CAMPAIGN_CREATE (R223). -/
def execCampaignCreate (t : Nat) (m : CmdMsg) (s : State) : Result := runS t s fun st d =>
  let c := Camp.ofWords m.id (m.args.drop 2) st.campStage
  (st, d.command m 6 (m.tgtsFit && decide (19 ≤ m.argWords) && m.campOp == 0 && m.args.getD 1 0 == 0
      && m.argWords == 19 + 3 * fld (m.args.getD 10 0) 23 15) (fun d => d.createRefusal m c) fun d => d.createCamp m c)

/-- The campaign that a CAMPAIGN operation names by its CMD_ID (R223, R347), as long as its command stands in the table. -/
def Dev.namedCamp (d : Dev) (m : CmdMsg) : Option (Nat × Camp) :=
  if (d.listed (m.args.getD 1 0).toNat).isNone then none else
  match d.campOf (m.args.getD 1 0).toNat with
  | some id => (d.camp? id).map fun c => (id, c)
  | none => none

/-- CAMPAIGN_START (R223): only a campaign not started yet can be. -/
def execCampaignStart (t : Nat) (m : CmdMsg) (s : State) : Result := run t s fun d =>
  let own (d : Dev) : Option Nat := match d.namedCamp m with
    | none => some rcNoCampaign
    | some p => if p.2.st == 1 then none else some rcBadArg
  d.command m 6 (m.campFits 1 2) own fun d =>
    match d.namedCamp m with
    | some p => (d.startCamp p.1).done m
    | none => d

/-- CAMPAIGN_ACTIVATE (R229): ACT_S is fixed, and members already VERIFIED are sent it. -/
def execCampaignActivate (t : Nat) (m : CmdMsg) (s : State) : Result := run t s fun d =>
  let act := (m.args.getD 2 0).toNat
  let own (d : Dev) : Option Nat := match d.namedCamp m with
    | none => some rcNoCampaign
    | some p =>
      if p.2.actS != 0 || p.2.st == 6 then some rcBadArg
      else if act ≤ d.nowS + p.2.cutMin * 60 then some rcPast else none
  d.command m 6 (m.campFits 2 3) own fun d =>
    match d.namedCamp m with
    | none => d
    | some p =>
      let d1 := d.setCamp p.1 { p.2 with actS := act }
      (p.2.members.foldl (fun x e => if x.stateIn p.1 e.1 == 6 then x.sendActivate p.1 e.1 else x) d1).done m

/-- CAMPAIGN_CANCEL (R228). -/
def execCampaignCancel (t : Nat) (m : CmdMsg) (s : State) : Result := run t s fun d =>
  let own (d : Dev) : Option Nat := match d.namedCamp m with
    | none => some rcNoCampaign
    | some p => if p.2.st == 6 then some rcBadArg else none
  d.command m 6 (m.campFits 3 2) own fun d =>
    match d.namedCamp m with
    | some p => (d.cancelCamp p.1 p.2).done m
    | none => d

/-! Arming (R223, R228). -/

/-- Whether a meter's route is relayed. -/
def MeterRec.relayed (r : MeterRec) (slot : Nat) : Bool := (r.route.map fun a => a.next != slot).getD false

/-- The targets that serve a meter: RF ones on its STREAM_1, powerline ones on its RT_STREAM (R223). -/
def Camp.fits (c : Camp) (r : MeterRec) : List Nat :=
  (List.range c.targets.length).filter fun i =>
    let g := c.targets.getD i Target.none
    if r.pl then g.pl && (r.route.map Route.stream) == some g.stream else !g.pl && g.stream == r.stream1

/-- A meter's place in a campaign: its target in turn among those that serve it. -/
def Camp.place (c : Camp) (slot : Nat) (r : MeterRec) : Member :=
  let is := c.fits r
  let k := (c.members.filter fun p => is.contains p.2.tgt).length
  { Member.none with
    tgt := is.getD (k % max 1 is.length) 0
    relayed := is.isEmpty || (r.pl && r.relayed slot) }

/-- A member is armed: it leaves any other campaign it is in, goes to ARMING with no round tried, and its FW_ARM transaction
opens (R162, R228). -/
def Dev.armSlot (d : Dev) (id slot : Nat) (r : MeterRec) : Dev :=
  let d0 := match d.camp? r.campId with
    | some k =>
      if r.campId != id && campRunning r.campState && (NMap.find k.members slot).isSome then
        d.memberTo r.campId slot 13 rcCancelled 0 0
      else d
    | none => d
  match d0.camp? id with
  | none => d0
  | some c =>
    let d1 := (d0.setCamp id { c with toArm := c.toArm.drop 1, members := NMap.put c.members slot (c.place slot r) }).updRec slot
      fun x => { x with campTries := 0 }
    if 7 ≤ r.openTx then d1.memberTo id slot 10 rcBusySlot 0 0
    else (d1.memberTo id slot 1 rcProgress 0 0).openCampTxn id slot 7 (d.clk + secT (c.armMin * 60))

/-- The time between two meters armed (R223): from shedding step 2 on ARM_RATE is lowered (R29, R230), by a free value. -/
def Dev.armEvery (d : Dev) (c : Camp) : Nat :=
  2 ^ 36 / (10 * c.rate) * (if d.up.shed < 2 then 1 else 2 + Config.armSlow)

/-- ARMING (R206, R219, R228, R230): from START_S, at ARM_RATE, the next slot is armed while the transaction table has room. -/
def execArming (t camp : Nat) (s : State) : Result := run t s fun dd =>
  match dd.camp? camp with
  | none => dd
  | some cc =>
    if !dd.ledgerRuns || !(cc.st == 1 || cc.st == 2) || (cc.st == 1 && decide (dd.nowS < cc.startS)) then dd
    else
      let d0 := dd.letPass 1
      let c0 := (d0.camp? camp).getD cc
      let d := if c0.st == 2 then d0 else if (d0.startLate c0).isSome then d0.lateStart camp c0 else d0.startCamp camp
      match d.camp? camp with
      | none => d
      | some c =>
        if c.st != 2 || d.clk < c.armAt || txnTableSize ≤ d.openTxns then d
        else
          let d1 := d.setCamp camp { c with armAt := d.clk + d.armEvery c }
          match c.toArm with
          | [] => d
          | n :: _ =>
            match d.rec? n with
            | some r => d1.armSlot camp n r
            | none => (d1.updCamp camp fun k => { k with toArm := k.toArm.drop 1 }).campEnd camp

/-! Rounds (R224–R227). -/

/-- Slots of a campaign's members on a target. -/
def Camp.onTarget (c : Camp) (ti : Nat) : List Nat := (c.members.filter fun p => p.2.tgt == ti).map fun p => p.1

/-- Every member has left ARMING, and rounds may start. -/
def Dev.armed (d : Dev) (id : Nat) (c : Camp) : Bool :=
  (c.st == 2 || c.st == 3) && c.toArm.isEmpty && c.members.all fun p => d.stateIn id p.1 != 1

/-- Relayed members receive every block by unicast (R223). -/
def Dev.relayAll (d : Dev) (id ti : Nat) (c : Camp) : Dev :=
  (c.members.filter fun p => p.2.tgt == ti && p.2.relayed && d.stateIn id p.1 == 2).foldl (fun x p =>
    let y := x.memberTo id p.1 4 rcProgress 0 0
    match y.camp? id with
    | some k => y.sendUnicast id p.1 k (List.range k.nb)
    | none => y) d

/-- A round starts (R226): round 0 with every block, round r with what its meters have reported missing. -/
def Dev.startRound (d : Dev) (id ti : Nat) : Dev :=
  match d.camp? id with
  | none => d
  | some c =>
    let g := c.targets.getD ti Target.none
    let first := g.round == 0
    let d1 := d.setCamp id { c with
      st := 3
      targets := c.targets.modify ti fun x =>
        { x with list := if first then List.range c.nb else x.next, next := [], phase := 1, since := d.clk }
      members := NMap.mapAll c.members fun _ m => if m.tgt == ti then { m with report := false } else m }
    (if first then d1.relayAll id ti c else d1).roundNext id ti

/-- ROUND_START (R224, R226, R230): from shedding step 2 on a round start waits. A group horn call goes first where the target has a group
wake code, and the round HORN_WAKE_MS after it; on a stream whose HORN_SUBCH names no subchannel none goes (DESIGN CHOICE,
notes/assumptions/24.md). -/
def execRoundStart (t camp tgt : Nat) (s : State) : Result := run t s fun d =>
  match d.camp? camp with
  | none => d
  | some c =>
    let g := c.targets.getD tgt Target.none
    if !d.ledgerRuns || !d.armed camp c || c.targets.length ≤ tgt || decide (2 ≤ d.up.shed) then d
    else if g.phase == 5 then if d.passedMs g.since d.hornWakeMs then d.startRound camp tgt else d
    else if g.phase != 0 then d
    else if g.pl || g.gwake == 0 || decide (200 ≤ d.hornSub g.stream) then d.startRound camp tgt
    else
      (d.updTarget camp tgt fun x => { x with phase := 4 }).queueJob
        { Job.base (.group camp tgt) none 3 d.clk (d.cutoffAt c) [] with
          via := some (g.stream, d.hornSub g.stream, hornPhy), ar := false, secured := false, dst := g.gwake }

/-- CAMP_TRIES of a member that reported missing blocks or stayed silent in the round (R227). -/
def Dev.countTry (d : Dev) (slot : Nat) (m : Member) : Dev :=
  if m.report && m.missing.isEmpty then d else d.updRec slot fun r => { r with campTries := sat 8 (r.campTries + 1) }

/-- What a member's FW_QUERY still asks is void: its window is over. -/
def Dev.endQuery (d : Dev) (c : Camp) (slot : Nat) : Dev :=
  match d.campTxn c slot with
  | some x => if x.isOpen && x.mcmd == 9 then d.closeTxn x else d
  | none => d

/-- A member's FW_QUERY asks for the report of a round, or no longer does (R227). -/
def Dev.noteQuery (d : Dev) (id slot : Nat) (q : Bool) : Dev :=
  d.updCamp id fun c => { c with members := NMap.upd c.members slot Member.none fun m => { m with query := q } }

/-- A target's rounds are over (R227): few blocks missing go by unicast, else the member ends DOWNLOAD_FAIL. -/
def Dev.lastRound (d : Dev) (id slot : Nat) (m : Member) : Dev :=
  match d.camp? id with
  | none => d
  | some c =>
    if m.report && decide (m.missing.length ≤ c.uniMax) then
      let y := d.memberTo id slot 4 rcProgress 0 0
      match y.camp? id with
      | some k => y.sendUnicast id slot k m.missing
      | none => y
    else d.memberTo id slot 10 rcDownloadFail 0 0

/-- A report window ends (R226, R227): queries of this round are over, its tries counted, and another round follows, silent members being
queried, or the target's rounds are over; with the last of them the campaign waits for its cut-off. -/
def Dev.windowOver (d : Dev) (camp tgt : Nat) (c : Camp) : Dev :=
  let g := c.targets.getD tgt Target.none
  let asked := c.members.filter fun p => p.2.tgt == tgt && p.2.query
  let mine := c.members.filter fun p =>
    p.2.tgt == tgt && !p.2.relayed && (d.stateIn camp p.1 == 2 || d.stateIn camp p.1 == 3)
  let over' := g.next.isEmpty || decide (c.rounds ≤ g.round + 1)
  let d0 := asked.foldl (fun (x : Dev) p => (x.endQuery c p.1).noteQuery camp p.1 false) d
  let d1 := mine.foldl (fun (x : Dev) p => x.countTry p.1 p.2) d0
  let d2 := d1.updTarget camp tgt fun x =>
    if over' then { x with phase := 3, since := d.clk } else { x with phase := 0, round := x.round + 1, since := d.clk }
  let d3 := mine.foldl (fun (x : Dev) p =>
    if over' then x.lastRound camp p.1 p.2
    else if p.2.report then x
    else (x.openCampTxn camp p.1 9 (d.cutoffAt c)).noteQuery camp p.1 true) d2
  match d3.camp? camp with
  | some k => if k.st == 3 && k.targets.all (fun x => x.phase == 3) then d3.setCamp camp { k with st := 4 } else d3
  | none => d3

/-- REPORT_WINDOW_END (R226, R227). -/
def execReportWindowEnd (t camp tgt : Nat) (s : State) : Result := run t s fun d =>
  match d.camp? camp with
  | none => d
  | some c =>
    let g := c.targets.getD tgt Target.none
    if !d.ledgerRuns || c.st != 3 || g.phase != 2 || !d.passedMs g.since (c.rptWin * 1000) then d
    else
      let e := d.letPass 1
      e.windowOver camp tgt ((e.camp? camp).getD c)

/-! Cut-off and confirmation (R228, R229). -/

/-- ACT_CUTOFF (R228): members not verified, or verified and without ACT_S, end EXCLUDED and are sent FW_CANCEL. -/
def execActCutoff (t camp : Nat) (s : State) : Result := run t s fun d =>
  match d.camp? camp with
  | none => d
  | some c =>
    if !d.ledgerRuns || c.st == 6 || c.actS == 0 || decide (d.nowS + c.cutMin * 60 < c.actS) then d
    else
      let p := d.letPass 1
      p.campClear camp ((p.camp? camp).getD c) (fun st => decide (st ≤ 5) || (st == 6 && c.later)) campRunning 11 rcExcluded

/-- CONFIRM_QUERY (R228, R231): one FW_QUERY, answered by ACT_S + 2 × CONFIRM_MIN, or within RESP_WAIT_S where that falls
later. -/
def execConfirmQuery (t camp slot : Nat) (s : State) : Result := run t s fun d =>
  match d.camp? camp with
  | none => d
  | some c =>
    let m := NMap.look c.members slot Member.none
    if !d.ledgerRuns || (NMap.find c.members slot).isNone || c.actS == 0 || !c.hasAct (d.stateIn camp slot) || m.asked
        || decide (d.nowS < c.actS + c.confMin * 60) then d
    else
      (d.setCamp camp { c with members := NMap.put c.members slot { m with asked := true } }).openCampTxn camp slot 9
        (max (d.atSecond (c.actS + 2 * c.confMin * 60)) (d.clk + secT d.respWaitS))

/-- NO_CONFIRM (R228): the member has been queried, and the query is over. -/
def execNoConfirm (t camp slot : Nat) (s : State) : Result := run t s fun d =>
  match d.camp? camp with
  | none => d
  | some c =>
    let m := NMap.look c.members slot Member.none
    let asking := match d.campTxn c slot with
      | some x => x.isOpen && x.mcmd == 9 && decide (d.clk < x.deadline)
      | none => false
    if !d.ledgerRuns || (NMap.find c.members slot).isNone || c.actS == 0 || !c.hasAct (d.stateIn camp slot) || !m.asked || asking
        || decide (d.nowS < c.actS + 2 * c.confMin * 60) then d
    else (((d.letPass 1).endQuery c slot).memberTo camp slot 10 rcNoConfirm 0 0)

/-- CAMPAIGN_DEADLINE (R229): no ACT_S has been given, and every member that is not terminal ends EXCLUDED. -/
def execCampaignDeadline (t camp : Nat) (s : State) : Result := run t s fun d =>
  match d.camp? camp with
  | none => d
  | some c =>
    if !d.ledgerRuns || c.st == 6 || c.actS != 0 || d.clk < c.deadline then d
    else
      let p := d.letPass 1
      p.campClear camp ((p.camp? camp).getD c) (fun _ => true) (fun st => decide (1 ≤ st) && decide (st ≤ 6)) 11 rcExcluded

/-- What a start leaves of a campaign (R231): a round in progress is abandoned, and each target sends FW_END for a round of
no blocks one above it; members in HELD are queried, VERIFIED ones sent
FW_ACTIVATE, unicast blocks not yet acknowledged go again, and a member whose last confirmation
time has passed in the stop is to be queried once more. -/
def Dev.campAfterStart (d : Dev) (id : Nat) : Dev :=
  match d.camp? id with
  | none => d
  | some c =>
    if c.st == 6 then d
    else
      let going (g : Target) : Bool := g.phase == 1 || g.phase == 2 || g.phase == 4 || g.phase == 5
      let d1 := (List.range c.targets.length).foldl (fun x ti =>
        let g := c.targets.getD ti Target.none
        if g.phase == 4 || g.phase == 5 then x.updTarget id ti fun y => { y with phase := 0 }
        else if going g then
          (x.updTarget id ti fun y => { y with round := y.round + 1, list := [], next := [], phase := 1 }).roundNext id ti
        else x) d
      let again := c.actS != 0 && decide (c.actS + 2 * c.confMin * 60 ≤ d.nowS)
      let d2 := if again then
          d1.updCamp id fun k => { k with members := NMap.mapAll k.members fun _ m => { m with asked := false } }
        else d1
      c.members.foldl (fun x p =>
        if x.stateIn id p.1 == 5 then x.openCampTxn id p.1 9 (d.cutoffAt c)
        else if x.stateIn id p.1 == 6 && c.later && !((x.campTxn c p.1).map Txn.isOpen).getD false then x.sendActivate id p.1
        else if x.stateIn id p.1 == 4 && !p.2.uni.isEmpty then
          (match x.camp? id with
            | some k => x.sendUnicast id p.1 k p.2.uni
            | none => x)
        else x) d2

end Sys2Proof.Machine
end

