-- ==== Sys2Proof/Machine/Civil.lean ====
section
/-!
DEFINITION. Civil time (spec 11, R322, R323; 10, R282–R284). Device time counts from 2000-01-01 00:00 TAI, which the PTP
epoch offset of R310 gives.
-/

namespace Sys2Proof.Machine

/-- A date. -/
structure Date where
  year  : Nat
  month : Nat
  day   : Nat
deriving DecidableEq, Repr

def leapYear (y : Nat) : Bool := (y % 4 == 0 && y % 100 != 0) || y % 400 == 0

/-- Days of a month. -/
def monthDays (y m : Nat) : Nat :=
  if m == 2 then (if leapYear y then 29 else 28) else if m == 4 || m == 6 || m == 9 || m == 11 then 30 else 31

/-- Days from 2000-01-01 to the first of January of a year. -/
def yearStart (y : Nat) : Nat :=
  let n := y - 2000
  n * 365 + cdiv n 4 - cdiv n 100 + cdiv n 400

/-- Days from 2000-01-01 to a date. -/
def daysOf (x : Date) : Nat := yearStart x.year + ((List.range (x.month - 1)).map fun i => monthDays x.year (i + 1)).sum + (x.day - 1)

/-- The date a number of days after 2000-01-01. -/
def dateOf (n : Nat) : Date :=
  let y0 := 2000 + n / 366
  let y := ((List.range (n / 366 / 1000 * 2 + n / 366 / 4 + 3)).map (y0 + ·)).filter (fun y => decide (yearStart y ≤ n)) |>.foldl max y0
  let r := n - yearStart y
  let before (m : Nat) : Nat := ((List.range (m - 1)).map fun i => monthDays y (i + 1)).sum
  let m := (((List.range 12).map (· + 1)).filter fun m => decide (before m ≤ r)).foldl max 1
  ⟨y, m, r - before m + 1⟩

/-- Weekday of a day number: 0 Monday to 6 Sunday (R328); 2000-01-01 was a Saturday. -/
def weekdayOf (n : Nat) : Nat := (n + 5) % 7

/-- Local standard time in seconds from 2000-01-01 00:00 (R322). -/
def Dev.stdTime (d : Dev) (devS : Nat) : Nat := ((devS : Int) - d.tb.taiUtc + d.stdOffMin * 60).toNat

/-- The day number of a DST rule in a year (R323). -/
def ruleDay (w : Word) (y : Nat) : Nat :=
  let m := fld w 35 32
  let first := daysOf ⟨y, m, 1⟩
  let d0 := first + (fld w 28 26 + 7 - weekdayOf first) % 7
  let k := fld w 31 29 - 1
  if d0 + 7 * k < first + monthDays y m then d0 + 7 * k else d0 + 7 * (k - 1)

/-- The instant of a DST rule in a year, in local standard time. -/
def ruleTime (w : Word) (y : Nat) : Nat := ruleDay w y * 86400 + fld w 25 15 * 60

/-- Daylight saving is in force at an instant of local standard time (R322, R323). -/
def Dev.dstAt (d : Dev) (std : Nat) : Bool :=
  if d.dstOffMin == 0 then false
  else
    let y := (dateOf (std / 86400)).year
    let a := ruleTime (d.tmW 4) y
    let b := ruleTime (d.tmW 5) y
    if a < b then decide (a ≤ std) && decide (std < b) else decide (a ≤ std) || decide (std < b)

/-- Local time of an instant of local standard time. -/
def Dev.localOf (d : Dev) (std : Nat) : Nat := if d.dstAt std then std + d.dstOffMin * 60 else std

/-- The local time by which tariff switch points are judged (R284): in the hour repeated after daylight saving ends, the
last minute already passed, so that a switch point acts at its first occurrence only. -/
def Dev.switchTime (d : Dev) (std : Nat) : Nat :=
  let off := d.dstOffMin * 60
  let e := ruleTime (d.tmW 5) (dateOf (std / 86400)).year
  if d.dstOffMin != 0 && decide (e ≤ std) && decide (std < e + off) && !d.dstAt std then e + off - 1 else d.localOf std

/-- The present offset of local time from UTC in minutes (R324). -/
def Dev.localOff (d : Dev) : Int :=
  d.stdOffMin + if d.dstAt (d.stdTime d.nowS) then (d.dstOffMin : Int) else 0

end Sys2Proof.Machine
end

