-- ==== Sys2Proof/Machine/Decimate.lean ====
section
/-!
DEFINITION. The decimation chain's arithmetic: the three stages over a modulator's bit stream (spec 09, R258–R264). What a modulator
delivers is free (notes/assumptions/11.md); everything after it is computed.
-/

namespace Sys2Proof.Machine

/-! The time grid in units of 1/8,192,000 s, half a modulator period (R259–R264). -/

/-- L2 of a preset (R261). -/
def presetL2 (p : Nat) : Nat := [1, 4, 16, 64, 256].getD p 1

/-- Output period of a preset. -/
def periodU (p : Nat) : Nat := 32 * presetL2 p

/-- Group delay of a preset: 22.5 modulator periods, L2 − 1 periods of 256 kHz and 16 output periods (R260, R261). -/
def delayU (p : Nat) : Nat := 45 + 32 * (presetL2 p - 1) + 16 * periodU p

/-- Device time in these units. -/
def Dev.nowU (d : Dev) : Nat := d.now * 8192000 / 2 ^ 36

/-- A tick, and the distance of change boundaries. -/
def tickU : Nat := 81920
def boundaryU : Nat := 327680

/-- Full scale of the samples. -/
def fullScale : Nat := 2 ^ 35 - 1

/-- What every stage ends with (R260): convergent rounding and the clamp to full scale. -/
def stageOut (num : Int) (den : Nat) : Int := max (-(fullScale : Int)) (min fullScale (roundHE num den))

/-- The sum of a filter's terms. -/
def sumZ (n : Nat) (f : Nat → Int) : Int := ((List.range n).map f).foldl (· + ·) 0

/-- Weight of the sample `n` periods back in three cascaded moving sums of 16: the ways to write `n` as three numbers below 16. -/
def sincCubed (n : Nat) : Nat :=
  ((List.range 16).map fun a => ((List.range 16).filter fun b => decide (a + b ≤ n) && decide (n - a - b < 16)).length).sum

/-- Output of stage 1 whose last modulator sample is number `16 m` (R260). -/
def stage1 (c gain source m : Nat) : Int :=
  stageOut (sumZ 46 fun n =>
    (sincCubed n : Int) * (if Config.modulator c gain source (16 * m - n) then (Config.bitCode : Int) else -(Config.bitCode : Int))) 4096

/-- Output of stage 2 whose last input is stage 1's number `L2 n` (R260): two cascaded moving averages of length L2. -/
def stage2 (c gain source l2 n : Nat) : Int :=
  stageOut (sumZ (2 * l2 - 1) fun j => (min (j + 1) (2 * l2 - 1 - j) : Nat) * stage1 c gain source (n * l2 - j)) (l2 * l2)

/-- Coefficient `j` of stage 3 in 2⁻³², symmetric about 16; the centre makes the sum 1 (R260). -/
def firTap (p j : Nat) : Int :=
  if j == 16 then 2 ^ 32 - 2 * sumZ 16 (Config.firTap p) else Config.firTap p (min j (32 - j))

/-- The raw output of a channel that ends at `e`, with one gain and source throughout (R260, R262). An output that is not marked draws on no
sample from before the last boundary or, in SCS, the window's start, so that clearing the stages there changes none. -/
def rawOut (c gain source p e : Nat) : Int :=
  stageOut (sumZ 33 fun j => firTap p j * stage2 c gain source (presetL2 p) (e / periodU p - j)) (2 ^ 32)

end Sys2Proof.Machine
end

