-- ==== Sys2Proof/Machine/Metro.lean ====
section
/-!
DEFINITION. The decimation chain's changes, settling, calibration, ticks and derived quantities
(spec 09, R257–R277), over the outputs that Machine/Decimate.lean computes.
-/

namespace Sys2Proof.Machine

/-! The metrology counters (R277). -/

def fResetBall : Fld := ⟨0x0458, 35, 18⟩
def fResetCxp : Fld := ⟨0x0458, 17, 0⟩
def fChanges : Fld := ⟨0x0459, 35, 18⟩
def fTimeResets : Fld := ⟨0x0459, 17, 0⟩
def fSettleOut : Fld := ⟨0x045A, 35, 0⟩
def fSyncIgnored : Fld := ⟨0x045B, 35, 18⟩
def fFreqOut : Fld := ⟨0x045B, 17, 0⟩

def Dev.setMet (d : Dev) (m : Metro) : Dev := { d with met := m }

def Chan.none : Chan := ⟨0, 0, 0, 0, [], [], false, 0⟩
def Group.none : Group := ⟨0, false, 0, false, 0, 0, [], [[], [], []]⟩
def FeedPhase.none : FeedPhase := ⟨0, 0, 0, []⟩
def FeedIvl.none : FeedIvl := ⟨0, 0, 0⟩
def TickSum.none : TickSum := ⟨0, 0, 0, 0⟩

def Dev.chan (d : Dev) (c : Nat) : Chan := NMap.look d.met.chans c Chan.none
def Dev.setChan (d : Dev) (c : Nat) (x : Chan) : Dev := d.setMet { d.met with chans := NMap.put d.met.chans c x }
def Dev.group (d : Dev) (g : Nat) : Group := NMap.look d.met.groups g Group.none
def Dev.setGroup (d : Dev) (g : Nat) (x : Group) : Dev := d.setMet { d.met with groups := NMap.put d.met.groups g x }
def Dev.feedPhase (d : Dev) (i : Nat) : FeedPhase := NMap.look d.met.phs i FeedPhase.none

/-- The number of the change boundary at which a change accepted now takes effect: one accepted less than 1 µs before a
boundary takes the following one (R265). -/
def Dev.nextBoundary (d : Dev) : Nat := (d.now + usT 1) * 25 / 2 ^ 36 + 1

/-- The first change boundary at or after the present device time (R326). -/
def Dev.firstBoundary (d : Dev) : Nat := cdiv (d.now * 25) (2 ^ 36)

/-- The device time of a change boundary. -/
def boundaryTime (n : Nat) : Nat := cdiv (n * 2 ^ 36) 25

/-! Gains, selectors and calibration (R258, R270). -/

/-- A gain code a channel allows (R258). -/
def gainOk (c code : Nat) : Bool := if c < 32 then decide (code ≤ 5) else decide (code ≤ 1)

/-- A group has an enabled feeder (R263). -/
def Dev.groupFed (d : Dev) (g : Nat) : Bool := (List.range 8).any fun f => d.feederEn f && d.feederBus f == g

/-- A preset and mode a group allows (R261, R263). -/
def Dev.presetOk (d : Dev) (g p : Nat) (scs : Bool) : Bool := decide (p ≤ 4) && (!d.groupFed g || (p != 4 && !scs))

/-- The calibrated sample of a raw output, clamped (R260, R270). -/
def Dev.calibrate (d : Dev) (c : Nat) (raw : Int) : Int :=
  let w (i : Nat) : Word := d.leg.img.getD (2 * c + i) 0
  let x := roundHE (raw * fld (w 0) 35 12) (2 ^ 22) - ofTwos 18 (fld (w 1) 35 18) * 2 ^ 17
  max (-(2 ^ 35 - 1)) (min (2 ^ 35 - 1) x)

/-- The preset and mode in force for an output that ends at `e` (R265): those before the group's last boundary until it. -/
def Group.presetAt (g : Group) (e : Nat) : Nat := if e ≤ g.since * boundaryU then g.wasP else g.preset
def Group.scsAt (g : Group) (e : Nat) : Bool := if e ≤ g.since * boundaryU then g.wasS else g.scs

/-- How long outputs stay marked after a boundary: 35 outputs, or in SCS the one window of 40 (R264, R266). -/
def Group.settleU (g : Group) : Nat := if g.scs then 40 * periodU g.preset else 35 * periodU g.preset

/-- An output that ends at `e` is marked (R266). -/
def Chan.marked (x : Chan) (g : Group) (e : Nat) : Bool :=
  x.marks.any fun b => decide (b < e) && decide (e ≤ b + g.settleU)

/-- The gain in force for an output that ends at `e`. -/
def Chan.gainAt (x : Chan) (g : Group) (e : Nat) : Nat :=
  match x.marks with
  | b :: _ => if e ≤ b then x.was else x.gain
  | [] => if e ≤ g.since * boundaryU then x.was else x.gain

/-- The source in force for an output that ends at `e`. -/
def Chan.sourceAt (x : Chan) (g : Group) (e : Nat) : Nat :=
  match x.marks with
  | b :: _ => if e ≤ b then x.wasSrc else x.source
  | [] => if e ≤ g.since * boundaryU then x.wasSrc else x.source

/-- SETTLE (R276): outputs still to be marked. -/
def Dev.settleLeft (d : Dev) (c : Nat) : Nat :=
  let g := d.group (d.chanGroup c)
  match (d.chan c).marks with
  | b :: _ => min 35 ((if g.scs then 1 else 35) - (d.nowU - b) / (if g.scs then g.settleU else periodU g.preset))
  | [] => 0

/-! Changes (R265–R269). -/

/-- Channels 0–35 as bits and channels 36–47 (R415). -/
def chanBits (cs : List Nat) : List Nat :=
  [(cs.map fun c => if c < 36 then 2 ^ c else 0).sum, (cs.map fun c => if c < 36 then 0 else 2 ^ (c - 36)).sum]

/-- The channels a change names (R265). -/
def Dev.changeChans (d : Dev) (x : Change) : List Nat :=
  match x.kind with
  | .gain | .source => [x.n]
  | .preset | .scs => (List.range 48).filter fun c => d.chanGroup c == x.n
  | _ => List.range 48

/-- The boundary as event arguments. -/
def boundaryArgs (n : Nat) : List Nat := [boundaryTime n / 2 ^ 36, boundaryTime n % 2 ^ 36]

/-- The event of a change or reset: its code and arguments (R265, R415). -/
def Dev.changeEvent (d : Dev) (x : Change) : Nat × List Nat :=
  let cause := match x.kind with
    | .gain => 0 | .source => 1 | .preset | .scs => 2 | .start => 3 | .timeStep => 4 | .resetBall => 0 | .resetCxp => 1
  match x.kind with
  | .resetBall | .resetCxp => (0x051, boundaryArgs x.at' ++ [cause])
  | _ => (0x050, boundaryArgs x.at' ++ chanBits (d.changeChans x) ++ [cause])

/-- A change waits for its boundary; of two to one field before one boundary the later decides (R269). -/
def Dev.queueChange (d : Dev) (x : Change) : Dev :=
  d.setMet { d.met with pend := d.met.pend.filter (fun y => !(y.kind == x.kind && y.n == x.n && y.at' == x.at')) ++ [x] }

/-- A start of the chain waits for the first change boundary of the present time (R265, R269), once PD52 and PD53 are ON
and device time is not provisional (R321). -/
def Dev.metroStart (d : Dev) : Dev :=
  if d.domOn 52 && d.domOn 53 && d.tb.set && !d.tb.prov && d.led.accepts && d.met.run.isNone
      && !(d.met.pend.any fun x => x.kind == .start || x.kind == .timeStep) then
    let x : Change := ⟨.start, d.firstBoundary, 0, 0⟩
    let e := d.changeEvent x
    (d.queueChange x).raise e.1 e.2
  else d

/-- Channels take the settings of the configuration in force (R271). -/
def Dev.metroLoad (d : Dev) : Dev :=
  let d1 := (List.range 4).foldl (fun x g => x.setGroup g
    ⟨x.groupPreset g, x.groupScs g, x.groupPreset g, x.groupScs g, 0, 0, [], [[], [], []]⟩) d
  (List.range 48).foldl (fun x c => x.setChan c ⟨x.chanGain c, 0, x.chanGain c, 0, [], [], false, 0⟩) d1

/-- The outputs of channels are marked from a boundary on, which is their groups' last change (R266, R276). -/
def Dev.markChans (d : Dev) (cs : List Nat) (n : Nat) : Dev :=
  cs.foldl (fun x c =>
    let ch := x.chan c
    let g := x.chanGroup c
    let gr := x.group g
    let ch' : Chan := if ch.marks.head? == some (n * boundaryU) then ch
      else { ch with marks := n * boundaryU :: ch.marks.take 1, was := ch.gain, wasSrc := ch.source }
    (x.setChan c ch').setGroup g
      (if gr.since == n then gr else { gr with since := n, wasP := gr.preset, wasS := gr.scs })) d

/-- One change takes effect (R265, R268). -/
def Dev.applyChange (d : Dev) (x : Change) : Dev :=
  match x.kind with
  | .gain => (d.setChan x.n { d.chan x.n with gain := x.val }).count fChanges
  | .source => (d.setChan x.n { d.chan x.n with source := x.val }).count fChanges
  | .preset => (d.setGroup x.n { d.group x.n with preset := x.val }).count fChanges
  | .scs => (d.setGroup x.n { d.group x.n with scs := x.val == 1 }).count fChanges
  | .resetBall => d.count fResetBall
  | .resetCxp => d.count fResetCxp
  | .start => d.setMet { d.met with run := some x.at', tick := x.at' * 4 }
  | .timeStep => (d.setMet { d.met with run := some x.at', tick := x.at' * 4 }).count fTimeResets

/-- CHANGE_BOUNDARY (R265–R269): every change due takes effect, with one settling run for those of one boundary. A
start or a restart after a step makes the check meter's commit of R297 due. -/
def Dev.changeBoundary (d : Dev) : Dev :=
  let k := d.now * 25 / 2 ^ 36
  let due := d.met.pend.filter fun x => decide (x.at' ≤ k)
  let d1 := d.setMet { d.met with pend := d.met.pend.filter fun x => !decide (x.at' ≤ k) }
  let d2 := due.foldl (fun y x => (y.markChans (y.changeChans x) x.at').applyChange x) d1
  if due.any fun x => x.kind == .resetBall || x.kind == .resetCxp then
    ((List.range 48).filter fun p => d.pinsRun && d.pinFunc p == 7).foldl (fun (y : Dev) p => y.pulse p 1) d2
  else d2

/-- The chain stops: PD52 or PD53 closes, or a time step clears all stages (R269). -/
def Dev.metroStop (d : Dev) : Dev := d.setMet { d.met with run := none, pend := d.met.pend.filter fun x =>
  x.kind != .start && x.kind != .timeStep }

/-! Ticks (R272–R275). -/

/-- The end instants of a group's outputs whose measurement instants lie in a tick (R262, R264, R272): on the grid of the settings in force,
in SCS one for each window, none from before the start of measurement, and none still to come. -/
def Dev.tickEnds (d : Dev) (g : Group) (tick : Nat) : List Nat :=
  let from' (p : Nat) (scs now : Bool) : List Nat :=
    let per := if scs then 40 * periodU p else periodU p
    let lo := cdiv (tick * tickU + delayU p) per
    ((List.range (tickU / per + 1)).map fun i => (lo + i) * per).filter fun e =>
      decide (e < (tick + 1) * tickU + delayU p) && decide (e ≤ d.nowU) && (now == decide (g.since * boundaryU < e))
        && (match d.met.run with | some b => decide (b * boundaryU < e) | none => false)
  from' g.wasP g.wasS false ++ from' g.preset g.scs true

/-- The raw output of a channel that ends at `e`; nothing where it carries the reserved code (R266, R269). -/
def Dev.rawAt (d : Dev) (c e : Nat) : Option Int :=
  let g := d.group (d.chanGroup c)
  let x := d.chan c
  if x.marked g e || !d.domOn 52 then none
  else some (rawOut c (x.gainAt g e) (x.sourceAt g e) (g.presetAt e) e)

/-- A valid output of a tick: its end instant and the calibrated sample brought to gain 32. -/
abbrev Valid := List (Nat × Int)

/-- The calibrated sample of a channel that ends at `e`, brought to the gain of code `top`; nothing where it is marked. -/
def Dev.sampleAt (d : Dev) (c top e : Nat) : Option Int :=
  (d.rawAt c e).map fun r => d.calibrate c r * 2 ^ (top - (d.chan c).gainAt (d.group (d.chanGroup c)) e)

/-- The outputs of a channel that belong to the tick: valid ones, and the end instants of marked ones (R266, R272). -/
def Dev.tickOutputs (d : Dev) (c tick : Nat) : Valid × List Nat :=
  let es := d.tickEnds (d.group (d.chanGroup c)) tick
  (es.filterMap fun e => (d.sampleAt c 5 e).map fun x => (e, x), es.filter fun e => (d.rawAt c e).isNone)

/-- The sums of one tick (R272). -/
def tickSum (v : Valid) (inv : Nat) : TickSum :=
  ⟨v.length, inv, (v.map (·.2)).foldl (· + ·) 0, (v.map fun o => o.2.natAbs * o.2.natAbs).sum⟩

/-- A channel takes its tick, with whether an output of it was overrange (R258). -/
def Dev.chanTick (d : Dev) (c tick : Nat) : Dev :=
  let o := d.tickOutputs c tick
  let x := d.chan c
  let over' := (d.tickEnds (d.group (d.chanGroup c)) tick).any fun e =>
    match d.rawAt c e with | some r => decide (2 ^ 35 - 2 ^ 29 ≤ r.natAbs) | none => false
  (d.setChan c { x with
    ticks := (tickSum o.1 o.2.length :: x.ticks).take 100
    ovr := over', ovrN := sat 36 (x.ovrN + b2n over') }).countN fSettleOut o.2.length

/-- A sample by its end instant. -/
def Valid.at' (v : Valid) (e : Nat) : Option Int := (v.find? fun o => o.1 == e).map (·.2)

/-- The voltage at gain 2 at the point `num ÷ den` of the grid's time, on the grid of period `per`: a sample, or the straight line between its
two neighbours (R274: the spec does not name the interpolation, notes/assumptions/66.md). Nothing where a sample used is marked. -/
def Dev.voltAt (d : Dev) (vc per : Nat) (num : Int) (den : Nat) : Option Int :=
  let k := num / ((per * den : Nat) : Int)
  let r := num % ((per * den : Nat) : Int)
  match d.sampleAt vc 1 (k.toNat * per) with
  | none => none
  | some a =>
    if r == 0 then some a
    else (d.sampleAt vc 1 ((k.toNat + 1) * per)).map fun b => a + roundHE ((b - a) * r) (per * den)

/-- The frequency that gives T₀, in mHz (R275). -/
def Dev.freqOf (d : Dev) (g : Nat) : Nat :=
  if (d.group g).freq == 0 then (if d.fnom60 then 60000 else 50000) else (d.group g).freq

/-- The voltages of the active and the reactive product of current channel `c` at end instant `e` (R274): DELAY_CAL is in ns, and a quarter of
the period is 2,048,000,000 ÷ mHz of the grid's units. -/
def Dev.prodVolts (d : Dev) (c vc gn e : Nat) : Option (Int × Int) :=
  let per := periodU ((d.group gn).presetAt e)
  let f := d.freqOf gn
  let p : Int := (e : Int) * 1000000000 - ofTwos 18 (fld (d.leg.img.getD (2 * c + 1) 0) 17 0) * 8192000
  let q : Int := p * f - 2048000000 * 1000000000
  match d.voltAt vc per p 1000000000, d.voltAt vc per q (f * 1000000000) with
  | some a, some b => some (a, b)
  | _, _ => none

/-- What a feeder phase's products of one tick sum to (R274): active and reactive in the units of `epUnit`, i² in those of `iUnit`, and end
instants without a valid product. -/
def Dev.products (d : Dev) (f k tick : Nat) : Int × Int × Nat × List Nat :=
  let c := 4 * f + k
  let vc := 32 + 4 * d.feederBus f + k
  let g := d.group (d.feederBus f)
  let o := d.tickOutputs c tick
  let sign : Int := if d.feederInv f then -1 else 1
  let one (q : Nat × Int) : Option (Int × Int) := (d.prodVolts c vc (d.feederBus f) q.1).map fun v =>
    let s := sign * q.2 * (d.chanFs c * d.chanFs vc * presetL2 (g.presetAt q.1) : Nat)
    (s * v.1, s * v.2)
  let good := o.1.filterMap one
  let bad := o.2 ++ (o.1.filter fun q => (one q).isNone).map (·.1)
  let i2 := (o.1.map fun q => q.2.natAbs * q.2.natAbs * (d.chanFs c * d.chanFs c * presetL2 (g.presetAt q.1))).sum
  ((good.map (·.1)).foldl (· + ·) 0, (good.map (·.2)).foldl (· + ·) 0, i2, bad)

/-- The sums of products that make 1 µWh: full scales, gains 32 and 2, 256,000 outputs a second and 3,600 s. -/
def epUnit : Nat := fullScale * fullScale * 64 * 256000 * 3600

/-- The sums of squares that make 1 mA²s. -/
def iUnit : Nat := fullScale * fullScale * 1024 * 256000

/-- The zone interval a tick belongs to, by its end (R243). -/
def Dev.feedEnd (d : Dev) (tick : Nat) : Nat := (tick / 100 / max 1 d.balIvlS + 1) * d.balIvlS

def Dev.addFeed (d : Dev) (key : Nat) (ep : Int) (i2t gap : Nat) : Dev :=
  let v := NMap.look d.met.feed key FeedIvl.none
  d.setMet { d.met with feed := NMap.put d.met.feed key ⟨v.ep + ep, v.i2t + i2t, v.gap + gap⟩ }

/-- A feeder phase takes its tick (R272, R274): the energies, their remainders, and the zone interval's share. Answers
EP, EQ, and the end instants without a valid product. -/
def Dev.phaseTick (d : Dev) (f k tick : Nat) : Int × Int × List Nat × Dev :=
  let s := d.products f k tick
  let i := 4 * f + k
  let x := d.feedPhase i
  let p := s.1 + x.epRem
  let q := s.2.1 + x.eqRem
  let h : Int := (s.2.2.1 : Int) + x.iRem
  let ep := p.fdiv epUnit
  let eq := q.fdiv epUnit
  let i2 := (h.fdiv iUnit).toNat
  let x' : FeedPhase := ⟨p.fmod epUnit, q.fmod epUnit, h.fmod iUnit, ((ep, eq) :: x.ticks).take 100⟩
  let d1 := d.setMet { d.met with phs := NMap.put d.met.phs i x' }
  (ep, eq, s.2.2.2, d1.addFeed (d.feedEnd tick * 32 + i) ep i2 (s.2.2.2.length * periodU (d.group (d.feederBus f)).preset))

/-- Distinct numbers of a list. -/
def distinct : List Nat → List Nat
  | [] => []
  | a :: r => if r.contains a then distinct r else a :: distinct r

/-- Pairs of two channels' samples at one instant, and the sum of their squared differences in units of one part in
2 × full scale of a millivolt (R272). -/
def Dev.lineSum (d : Dev) (ca cb : Nat) (a b : Valid) : Nat × Nat :=
  let ds := a.filterMap fun p => (Valid.at' b p.1).map fun y => (p.2 * d.chanFs ca - y * d.chanFs cb : Int)
  (ds.length, (ds.map fun x => x.natAbs * x.natAbs).sum)

/-- RMS in mA or mV of `n` samples whose squares at gain 32 sum to `s`, times the square of FS_PRIMARY (R275). -/
def rmsOf (s n : Nat) : Nat := if n == 0 then 0 else isqrt (s / (n * (fullScale * fullScale * 1024))) 36 0

/-- The busbar means of R251 take a tick: the RMS of each phase and line pair in mV over it. -/
def Dev.busTick (d : Dev) (g tick : Nat) : Dev :=
  let key := d.feedEnd tick * 4 + g
  let b := NMap.look d.bal.bus key ⟨0, [0, 0, 0, 0, 0, 0], false⟩
  let t (p : Nat) : TickSum := ((d.chan (32 + 4 * g + p)).ticks.head?).getD TickSum.none
  let fs (p : Nat) : Nat := d.chanFs (32 + 4 * g + p)
  let ll := (d.group g).ll.headD []
  let vals := (List.range 3).map (fun p => rmsOf ((t p).sx2 * (fs p * fs p)) (t p).n)
    ++ (List.range 3).map fun p => let q := ll.getD p (0, 0); rmsOf q.2 q.1
  let bad := (List.range 3).any fun p => (t p).inv != 0
  let old := NMap.keep d.bal.bus fun k _ => decide (d.feedEnd tick ≤ k / 4 + 64 * d.balIvlS)
  let sums := (List.range 6).map fun i => b.sums.getD i 0 + vals.getD i 0
  d.setBal { d.bal with bus := NMap.put old key ⟨b.n + 1, sums, b.bad || bad⟩ }

/-- Rising zero crossings (R275: what a zero crossing is, notes/assumptions/66.md) between neighbouring valid samples, as measurement instants
in 1/1,024 of the grid's unit on the straight line between the two, after those held, newest first; an instant without a valid sample drops
those held, so that ten cycles are ten in a row. `es` are the end instants in order. -/
def crossings (per del : Nat) (v : Valid) : Option (Nat × Int) → List Nat → List Nat → List Nat
  | _, [], held => held
  | last, e :: r, held =>
    match v.at' e with
    | none => crossings per del v none r []
    | some x =>
      let new := match last with
        | some (e0, x0) => if e0 + per == e && decide (x0 < 0) && decide (0 ≤ x)
            then ((e0 - del) * 1024 + 1024 * per * x0.natAbs / (x - x0).toNat) :: held else held
        | none => held
      crossings per del v (some (e, x)) r (new.take 11)

/-- The frequency in mHz of ten whole cycles in a row, the latest no more than 100 ms old at the instant `u` (R275). -/
def freqOfCrossings (u : Nat) (held : List Nat) : Option Nat :=
  match held with
  | a :: _ => if 11 ≤ held.length && decide (u * 1024 ≤ a + 819200 * 1024)
      then some (10 * 8192000 * 1024 * 1000 / max 1 (a - held.getD 10 0)) else none
  | [] => none

/-- A group takes its tick: line-to-line sums and frequency (R272, R275). The first sample of a tick has the last of the tick before as its
neighbour. -/
def Dev.groupTick (d : Dev) (g tick : Nat) : Dev :=
  let c (p : Nat) : Nat := 32 + 4 * g + p
  let v (p : Nat) : Valid := (d.tickOutputs (c p) tick).1
  let ll := [d.lineSum (c 0) (c 1) (v 0) (v 1), d.lineSum (c 1) (c 2) (v 1) (v 2), d.lineSum (c 2) (c 0) (v 2) (v 0)]
  let x := d.group g
  let es := d.tickEnds x tick
  let per (e : Nat) : Nat := if x.scsAt e then 40 * periodU (x.presetAt e) else periodU (x.presetAt e)
  let e0 := es.headD 0
  let before' (p : Nat) : Option (Nat × Int) :=
    if ((d.met.run.getD 0) * boundaryU + per e0 < e0) then (d.sampleAt (c p) 5 (e0 - per e0)).map fun y => (e0 - per e0, y) else none
  let cross := (List.range 3).map fun p =>
    if d.chanEn (c p) then crossings (per e0) (delayU (x.presetAt e0)) (v p) (before' p) es (x.cross.getD p []) else []
  let f0 := (((List.range 3).filterMap fun p => freqOfCrossings ((tick + 1) * tickU) (cross.getD p [])).head?).getD 0
  let f := if decide (40000 ≤ f0) && decide (f0 ≤ 70000) then f0 else 0
  let d1 := (d.setGroup g { x with ll := (ll :: x.ll).take 100, freq := f, cross := cross }).busTick g tick
  if f == 0 then d1.count fFreqOut else d1

/-- When a tick is complete (R273): its last output is available, and so are the voltages that negative DELAY_CALs ask for (R274). -/
def Dev.tickReadyU (d : Dev) (tick : Nat) : Nat :=
  let dels := ((List.range 48).filter d.chanEn).map fun c => max (delayU (d.group (d.chanGroup c)).preset) (delayU (d.group (d.chanGroup c)).wasP)
  let negs := ((List.range 32).filter d.chanEn).map fun c => cdiv ((-ofTwos 18 (fld (d.leg.img.getD (2 * c + 1) 0) 17 0)).toNat * 8192) 1000000
  (tick + 1) * tickU + dels.foldl max 0 + negs.foldl max 0

/-! The window's values (R275, R276). -/

/-- The sums of a channel over the last RMS_TICKS ticks. -/
def Dev.window (d : Dev) (c : Nat) : TickSum :=
  ((d.chan c).ticks.take d.rmsTicks).foldl (fun a b => ⟨a.n + b.n, a.inv + b.inv, a.sx + b.sx, a.sx2 + b.sx2⟩) TickSum.none

/-- Half a window's outputs at least are valid (R275). -/
def TickSum.enough (w : TickSum) : Bool := decide (w.inv ≤ w.n) && decide (0 < w.n)

def Dev.rms (d : Dev) (c : Nat) : Nat :=
  let w := d.window c
  if w.enough then rmsOf (w.sx2 * (d.chanFs c * d.chanFs c)) w.n else 0

/-- Mean in mA or mV, rounded convergently. -/
def Dev.meanOf (d : Dev) (c : Nat) : Int :=
  let w := d.window c
  if w.enough then roundHE (w.sx * d.chanFs c) (w.n * fullScale * 32) else 0

/-- P and Q of a feeder phase in W and var over the window, and S in VA (R275). -/
def Dev.power (d : Dev) (f k : Nat) : Int × Int × Nat :=
  let ci := 4 * f + k
  let cv := 32 + 4 * d.feederBus f + k
  let ts := (d.feedPhase ci).ticks.take d.rmsTicks
  if (d.window ci).enough && (d.window cv).enough && !ts.isEmpty then
    (roundHE ((ts.map (·.1)).foldl (· + ·) 0 * 36) (100 * ts.length), roundHE ((ts.map (·.2)).foldl (· + ·) 0 * 36) (100 * ts.length),
      d.rms ci * d.rms cv / 1000000)
  else (0, 0, 0)

/-- PF in 0.0001, 0 where S is 0 (R276). -/
def pfOf (p : Int) (s : Nat) : Int := if s == 0 then 0 else max (-10000) (min 10000 (roundHE (p * 10000) s))

end Sys2Proof.Machine
end

