-- ==== Sys2Proof/Machine/Legal.lean ====
section
/-!
DEFINITION. The check-meter registers: ticks, calendar, demand, billing closes and boundaries (spec 10, R278–R302).
-/

namespace Sys2Proof.Machine

def Dev.setLeg (d : Dev) (x : Legal) : Dev := { d with leg := { d.leg with st := x } }

/-- The state goes to the PD1 copy with the lower sequence number (R299). A step of the machine is whole, so no copy's CRC-32C is ever found
wrong. -/
def Dev.legSave (d : Dev) : Dev :=
  { d with leg := { d.leg with copies := (sat 36 ((d.leg.copies.head?.map (·.1)).getD 0 + 1), d.leg.st) :: d.leg.copies.take 1 } }

/-- The valid copy with the higher sequence number (R299). -/
def LegalPart.kept (x : LegalPart) : Option Legal := x.copies.head?.map (·.2)

/-- Word `i` of the settings in the active legal image: the calibration block comes first (R285). -/
def Dev.legW (d : Dev) (i : Nat) : Word := d.leg.img.getD (96 + i) 0

def Dev.demMin (d : Dev) : Nat := fld (d.legW 0) 35 30
def Dev.billMode (d : Dev) : Nat := fld (d.legW 0) 29 28
def Dev.billDay (d : Dev) : Nat := fld (d.legW 0) 27 23
def Dev.billMin (d : Dev) : Nat := fld (d.legW 0) 22 12
def Dev.calDst (d : Dev) : Bool := bitOf (d.legW 0) 11

/-- Day-profile entry `k` (R285). -/
def Dev.dayEntry (d : Dev) (k : Nat) : Nat := fld (d.legW (49 + k / 2)) (18 * (k % 2) + 17) (18 * (k % 2))

/-- The day profile of a date (R283). -/
def Dev.profileOf (d : Dev) (x : Date) : Nat :=
  let sp (dated : Bool) := (List.range 32).find? fun i =>
    let w := d.legW (17 + i)
    bitOf w 35 && fld w 34 23 == (if dated then x.year else 0) && fld w 22 19 == x.month && fld w 18 14 == x.day
  match (sp true).or (sp false) with
  | some i => fld (d.legW (17 + i)) 13 10
  | none =>
    let start (i : Nat) : Nat := fld (d.legW (9 + i)) 34 31 * 32 + fld (d.legW (9 + i)) 30 26
    let valid := (List.range 8).filter fun i => bitOf (d.legW (9 + i)) 35
    let later (a b : Nat) : Bool := decide (start b < start a)
    let s := ((bestBy later (valid.filter fun i => decide (start i ≤ x.month * 32 + x.day))).or (bestBy later valid)).getD 0
    let wd := weekdayOf (daysOf x)
    fld (d.legW (1 + fld (d.legW (9 + s)) 25 23)) (35 - 4 * wd) (32 - 4 * wd)

/-- The tariff the calendar gives at a device-time second (R282–R284). -/
def Dev.calTariff (d : Dev) (devS : Nat) : Nat :=
  let std := d.stdTime devS
  let l := if d.calDst then d.switchTime std else std
  let p := d.profileOf (dateOf (l / 86400))
  let mins := l % 86400 / 60
  let es := ((List.range 8).map fun j => d.dayEntry (8 * p + j)).filter fun e => e / 2 ^ 17 == 1 && decide (e / 64 % 2048 ≤ mins)
  match bestBy (fun (a b : Nat) => decide (b / 64 % 2048 < a / 64 % 2048)) es with
  | some e => e / 8 % 8
  | none => d.leg.st.tariff

/-! The demand grid and billing instants (R286, R289). -/

/-- Seconds of a demand interval. -/
def Dev.demS (d : Dev) : Nat := max 1 (d.demMin * 60)

/-- A device time stands on the demand grid. -/
def Dev.onGrid (d : Dev) (t : Nat) : Bool := t % 2 ^ 36 == 0 && d.stdTime (t / 2 ^ 36) % d.demS == 0

/-- The first grid instant after a device time. -/
def Dev.nextGrid (d : Dev) (t : Nat) : Nat :=
  let s := t / 2 ^ 36 + 1
  (s + (d.demS - d.stdTime s % d.demS) % d.demS) * 2 ^ 36

/-- A scheduled billing close falls at a device-time second (R289). -/
def Dev.billsAt (d : Dev) (devS : Nat) : Bool :=
  let l := d.stdTime devS
  d.billMode == 1 && (dateOf (l / 86400)).day == d.billDay && l % 86400 == d.billMin * 60

/-- A scheduled billing instant lies above device time `a` and not after `b` (R292, R297, R298): one that falls on the T of a
restart or a step is part of that commit. -/
def Dev.billsBetween (d : Dev) (a b : Nat) : Bool :=
  if d.billMode != 1 then false
  else
    let l := d.stdTime (a / 2 ^ 36)
    let x := dateOf (l / 86400)
    let here := daysOf ⟨x.year, x.month, d.billDay⟩ * 86400 + d.billMin * 60
    let next := if x.month == 12 then daysOf ⟨x.year + 1, 1, d.billDay⟩ else daysOf ⟨x.year, x.month + 1, d.billDay⟩
    let due := if l < here then here else next * 86400 + d.billMin * 60
    decide (due ≤ d.stdTime (b / 2 ^ 36))

/-! Register sets (R278–R281, R295). -/

/-- Register q of a tariff row; row 8 is the sum of the others (R278). -/
def RegSet.reg (s : RegSet) (t q : Nat) : Nat :=
  if t < 8 then s.regs.getD (6 * t + q) 0 else ((List.range 8).map fun i => s.regs.getD (6 * i + q) 0).sum % 2 ^ 72

/-- A register takes µWh or µvarh: whole thousands count, the rest is carried; it wraps at 2⁷² (R279, R280). -/
def RegSet.add (s : RegSet) (t q e : Nat) : RegSet :=
  let i := 6 * t + q
  let sum := s.rems.getD i 0 + e
  { s with regs := s.regs.set i ((s.regs.getD i 0 + sum / 1000) % 2 ^ 72), rems := s.rems.set i (sum % 1000) }

/-- The quadrant register of R279. -/
def quadrant (p q : Int) : Nat := if 0 ≤ p then (if 0 ≤ q then 2 else 5) else (if 0 ≤ q then 3 else 4)

/-- A set takes a tick (R279, R281). -/
def RegSet.tick (s : RegSet) (tariff : Nat) (p q : Int) (gap : Bool) : RegSet :=
  let a := s.add tariff (if 0 ≤ p then 0 else 1) p.natAbs
  let b := a.add tariff (quadrant p q) q.natAbs
  { b with gap := sat 36 (b.gap + b2n gap) }

/-- The 108 words of a set (R295). -/
def RegSet.words (s : RegSet) : List Word :=
  (List.range 9).flatMap fun t => (List.range 6).flatMap fun q => dw (s.reg t q)

/-- The 32 words of maximum demands (R295). -/
def RegSet.demandWords (s : RegSet) : List Word :=
  (List.range 8).flatMap fun t =>
    let a := s.mdi.getD t (0, 0)
    let b := s.mde.getD t (0, 0)
    [W a.1, W a.2, W b.1, W b.2]

def Legal.set (x : Legal) (s : Nat) : RegSet := x.sets.getD s RegSet.zero

/-! Boundaries (R287–R294). -/

/-- What a boundary commit does beside closing the interval. -/
structure BoundaryPlan where
  t      : Nat
  reason : Nat
  bill   : Bool
  tariff : Nat
  outage : Bool
  step   : Bool
  start  : Nat
deriving DecidableEq, Repr

/-- A snapshot's words (R291). -/
def Dev.snapWords (d : Dev) (x : Legal) (p : BoundaryPlan) (flags : Nat) : List Word :=
  [W x.snapNo] ++ dw p.t ++ [W x.bnum, pk [(p.reason, 35, 28), (flags, 27, 20)], W d.leg.check, pk [(d.leg.ver, 35, 28)], 0]
  ++ (List.range 9).flatMap (fun s => (x.set s).words) ++ (List.range 9).flatMap fun s => (x.set s).demandWords

/-- Demand in W of an energy in mWh (R287). -/
def demandW (full : Bool) (demMin ms e : Nat) : Nat :=
  if full then (roundHE (e * 60) (demMin * 1000)).toNat
  else if ms == 0 then 0 else (roundHE (e * 3600) ms).toNat

/-- A maximum demand keeps the larger value, the earlier of equal ones (R288). -/
def maxDemand (l : List (Nat × Nat)) (t w endS : Nat) : List (Nat × Nat) :=
  if (l.getD t (0, 0)).1 < w then l.set t (w, endS) else l

/-- A BOUNDARY commit (R292–R294): the interval closes under the old tariff, the billing close takes its snapshot, the
tariff switches. A BILL_REQ pending at a restart or a step waits for the first scheduled boundary after it (R298). The PD1 copies take
what it leaves, so that BNUM and HIGH_T pass through a stop before the next tick end too (R293; DEDUCED, notes/assumptions/67.md). -/
def Dev.commitBoundary (d : Dev) (p : BoundaryPlan) : Dev :=
  let x := d.leg.st
  let had := x.start != 0
  let ms := x.ticks * 10
  let nominal : Int := (d.demMin * 60000 : Nat) + x.leapIn * 1000
  let full := had && x.grid && d.onGrid p.t && !x.broken && !x.stepIn && !p.outage && !p.step
  let energy (s : Nat) : Nat × Nat :=
    ((((x.set s).reg 8 0 + 2 ^ 72 - (x.at0.getD s (0, 0)).1) % 2 ^ 72), (((x.set s).reg 8 1 + 2 ^ 72 - (x.at0.getD s (0, 0)).2) % 2 ^ 72))
  let dem := (List.range 9).map fun s =>
    if had then (demandW full d.demMin ms (energy s).1, demandW full d.demMin ms (energy s).2) else (0, 0)
  let sets1 := if full then (List.range 9).map fun s =>
      let r := x.set s
      { r with mdi := maxDemand r.mdi x.tariff (dem.getD s (0, 0)).1 (p.t / 2 ^ 36)
               mde := maxDemand r.mde x.tariff (dem.getD s (0, 0)).2 (p.t / 2 ^ 36) }
    else x.sets
  let short := had && (p.outage || decide ((ms : Int) < nominal))
  let long := had && !p.outage && decide (nominal < (ms : Int))
  let flags := b2n had + 2 * b2n (p.tariff != x.tariff) + 4 * b2n p.bill + 8 * b2n short + 16 * b2n (p.outage || x.broken)
    + 32 * b2n p.step + 64 * b2n long + 128 * b2n d.pw.hu.isSome
  let x1 : Legal := { x with sets := sets1, bnum := x.bnum + 1, snapNo := x.snapNo + b2n p.bill, dem := dem }
  let snap := d.snapWords x1 p flags
  let sets2 := if p.bill then x1.sets.map fun r => { r with mdi := List.replicate 8 (0, 0), mde := List.replicate 8 (0, 0) }
    else x1.sets
  let x2 : Legal := { x1 with
    sets := sets2, tariff := p.tariff, highT := max x.highT p.t, bill := x.bill && !(p.bill && (p.reason == 0 || p.reason == 3)), start := p.start
    at0 := (List.range 9).map fun s => ((x1.set s).reg 8 0, (x1.set s).reg 8 1)
    ticks := 0, grid := d.onGrid p.start, broken := false, stepIn := false, leapIn := 0 }
  let hash := if p.bill then words32 (sha256 (wordsOctets snap)) 8 else List.replicate 8 0
  let body : List Word := [W x1.bnum] ++ dw p.t ++ [pk [(x.tariff, 35, 33), (p.tariff, 32, 30), (d.demMin, 29, 24)]]
    ++ dw (if had then x.start else 0) ++ [W (if had then ms else 0)] ++ dem.flatMap (fun q => [W q.1, W q.2])
    ++ [W (if p.bill then x1.snapNo else 0)] ++ hash ++ (List.range 6).flatMap (fun q => dw ((x1.set 8).reg 8 q))
    ++ [W d.leg.check, pk [(d.leg.ver, 35, 28)]]
  let d1 := { d with leg := { d.leg with
    st := x2
    snaps := if p.bill then NMap.put d.leg.snaps (x1.snapNo % 24) ⟨x1.snapNo, p.t, x1.bnum, snap⟩ else d.leg.snaps } }
  let d2 := if p.bill then d1.storeItem 6 x1.snapNo snap else d1
  d2.legSave.commit { mkEntry 0x0A 1 p.t none 0 body with reason := p.reason, flags := flags }

/-- The next scheduled boundary (R286, R293): the first demand boundary above HIGH_T. -/
def Dev.nextT (d : Dev) : Nat := d.nextGrid d.leg.st.highT

/-- The boundary that is due now: one a restart or step calls for, or a scheduled one whose ticks are complete; after mains
loss only one at or before t_L (R273, R293, R296). -/
def Dev.boundaryPlan (d : Dev) : Option BoundaryPlan :=
  let x := d.leg.st
  if !d.ledgerRuns then none
  else match d.leg.due with
  | some (t, reason, start) =>
    if d.now < t && d.now < start then none
    else if reason == 2 && start < t then some ⟨t, 2, false, x.tariff, false, true, start⟩
    else
      let bill := d.billsBetween x.highT t || reason == 6
      some ⟨t, reason, bill, d.calTariff (t / 2 ^ 36), reason != 2, reason == 2, start⟩
  | none =>
    let t := d.nextT
    let inTime := match d.pw.hu with | some h => decide (t ≤ h.tL) | none => true
    if d.met.run.isNone || d.now < t || d.met.tick < t / 2 ^ 36 * 100 || !inTime then none
    else
      let sched := d.billsAt (t / 2 ^ 36)
      some ⟨t, if sched || !x.bill then 0 else 3, sched || x.bill, d.calTariff (t / 2 ^ 36), false, false, t⟩

/-- A boundary that is due is committed (R292). -/
def Dev.takeBoundary (d : Dev) : Dev :=
  match d.boundaryPlan with
  | some p => ({ d with leg := { d.leg with due := none } }).commitBoundary p
  | none => d

/-- BOUNDARY (R292). -/
def execBoundary (t : Nat) (s : State) : Result := run t s Dev.takeBoundary

/-! Ticks (R273, R279). -/

/-- The channels of a feeder: its currents and the phase voltages of its group (R271, R281). -/
def Dev.feederChans (d : Dev) (f : Nat) : List Nat :=
  (List.range 4).map (4 * f + ·) ++ (List.range 3).map (32 + 4 * d.feederBus f + ·)

/-- A feeder takes its tick: P, Q and whether a channel delivered a marked output. -/
def Dev.feederTick (d : Dev) (f tick : Nat) : Int × Int × Bool × Dev :=
  let r := (List.range 3).foldl (fun (a : Int × Int × List Nat × Dev) p =>
    let q := a.2.2.2.phaseTick f p tick
    (a.1 + q.1, a.2.1 + q.2.1, a.2.2.1 ++ q.2.2.1, q.2.2.2)) ((0 : Int), (0 : Int), [], d)
  let d1 := r.2.2.2
  let gap := (d1.feederChans f).any fun c => (((d1.chan c).ticks.head?).getD TickSum.none).inv != 0
  let per := periodU (d1.group (d1.feederBus f)).preset
  (r.1, r.2.1, gap, d1.addFeed (d1.feedEnd tick * 32 + 4 * f + 3) 1 0 ((distinct r.2.2.1).length * per))

/-- The next tick in order is taken (R272–R281): channels and groups form their quantities, enabled feeders and the total take their
energies. -/
def Dev.takeTick (d : Dev) : Dev :=
  let tick := d.met.tick
  let d0 := if d.nextT ≤ cdiv (tick * 2 ^ 36) 100 then d.takeBoundary else d
  let d1 := ((List.range 48).filter d0.chanEn).foldl (fun x c => x.chanTick c tick) d0
  let busy (g : Nat) : Bool := (List.range 48).any fun c => d1.chanEn c && d1.chanGroup c == g
  let d2 := ((List.range 4).filter busy).foldl (fun x g => x.groupTick g tick) d1
  let fs := (List.range 8).filter d2.feederEn
  let r := fs.foldl (fun (a : List (Nat × Int × Int × Bool) × Dev) f =>
    let q := a.2.feederTick f tick
    (a.1 ++ [(f, q.1, q.2.1, q.2.2.1)], q.2.2.2)) ([], d2)
  let d3 := r.2
  let x := d3.leg.st
  let one (s : List RegSet) (i : Nat) (p q : Int) (gap : Bool) : List RegSet :=
    s.set i ((s.getD i RegSet.zero).tick x.tariff p q gap)
  let sets1 := r.1.foldl (fun s f => one s f.1 f.2.1 f.2.2.1 f.2.2.2) x.sets
  let tot (g : Nat × Int × Int × Bool → Int) : Int := (r.1.map g).foldl (· + ·) 0
  let sets2 := if fs.isEmpty then sets1
    else one sets1 8 (tot (·.2.1)) (tot (·.2.2.1)) (r.1.any (·.2.2.2))
  let d4 := d3.setLeg { x with sets := sets2, ticks := x.ticks + 1, tickT := cdiv ((tick + 1) * 2 ^ 36) 100 }
  d4.legSave.setMet { d4.met with
    tick := tick + 1
    feed := NMap.keep d4.met.feed fun key _ => decide (tick / 100 ≤ key / 32 + 64 * d4.balIvlS) }

/-- TICK_END (R273): the next tick in order, once it is complete. -/
def Dev.tickEnd (d : Dev) : Dev :=
  if d.met.run.isNone || !d.domOn 53 || d.nowU < d.tickReadyU d.met.tick then d else d.takeTick

def execTickEnd (t : Nat) (s : State) : Result := run t s Dev.tickEnd

/-- The check meter's first commit after a start of measurement is due at t_R (R297), with the REASON that how the device
started calls for. -/
def Dev.startLegal (d : Dev) (t : Nat) : Dev :=
  { d with leg := { d.leg with due := some (t, max 1 d.leg.why, t), why := 0, st := { d.leg.st with broken := true } } }

/-- CHANGE_BOUNDARY (R265–R269, R297): where measurement starts after a stop, the commit at t_R comes due; the restart
after a time step has had its commit at the step. -/
def execChangeBoundary (t : Nat) (s : State) : Result := run t s fun d =>
  let k := d.now * 25 / 2 ^ 36
  match d.met.pend.find? fun x => x.kind == .start && decide (x.at' ≤ k) with
  | some x => (d.changeBoundary).startLegal (boundaryTime x.at')
  | none => d.changeBoundary

end Sys2Proof.Machine
end

