-- ==== Sys2Proof/Machine/Panel.lean ====
section
/-!
DEFINITION. The panel's settings, and what the controller puts on the panel's signals: drive codes, the lines of a frame, and the
level of every signal at an instant (spec 20, R492–R498, R507).
-/

namespace Sys2Proof.Machine

/-! Settings (R507). -/

def blkDisplay : Nat := 18268

def Dev.dispW (d : Dev) (i : Nat) : Word := d.cfgW (blkDisplay + i)
def Dev.dispEn (d : Dev) : Bool := bitOf (d.dispW 0) 35
def Dev.dispH16 (d : Dev) : Nat := fld (d.dispW 0) 34 28
def Dev.dispLines (d : Dev) : Nat := fld (d.dispW 0) 27 18
def Dev.frameUs (d : Dev) : Nat := fld (d.dispW 1) 35 22
def Dev.clkDiv (d : Dev) : Nat := fld (d.dispW 0) 16 9
def Dev.lineClks (d : Dev) : Nat := fld (d.dispW 1) 21 10
def Dev.leClks (d : Dev) : Nat := fld (d.dispW 2) 35 28
def Dev.oeClks (d : Dev) : Nat := fld (d.dispW 2) 27 20
def Dev.vcomMv (d : Dev) : Nat := fld (d.dispW 3) 35 24
def Dev.railDlyUs (d : Dev) : Nat := fld (d.dispW 3) 23 16 * 100
def Dev.clearMode (d : Dev) : Nat := fld (d.dispW 3) 15 12
def Dev.tempOff (d : Dev) : Int := ofTwos 8 (fld (d.dispW 3) 11 4)
def Dev.railHoldMs (d : Dev) : Nat := fld (d.dispW 5) 35 24
def Dev.dispTmax (d : Dev) : Int := ofTwos 8 (fld (d.dispW 5) 19 12)

/-- The lowest temperature of range `k`, where it is valid. -/
def Dev.tLow (d : Dev) (k : Nat) : Option Int :=
  let e := fld (d.dispW (6 + k / 4)) (9 * (k % 4) + 8) (9 * (k % 4))
  if 256 ≤ e then some (ofTwos 8 (e % 256)) else none

/-- Frames of a mode at a range. -/
def Dev.waveFrames (d : Dev) (m r : Nat) : Nat :=
  let i := m * 16 + r
  fld (d.dispW (10 + i / 4)) (9 * (i % 4) + 6) (9 * (i % 4))

/-- The code a frame of a waveform gives a transition (R496). -/
def Dev.waveCode (d : Dev) (m r f t : Nat) : Nat := fld (d.dispW (74 + (m * 16 + r) * 64 + f)) (2 * t + 1) (2 * t)

/-- The range of a panel temperature, where an update may start (R497). -/
def Dev.rangeOf (d : Dev) (temp : Int) : Option Nat :=
  if d.dispTmax < temp then none
  else (((List.range 16).filter fun k => (d.tLow k).any fun x => decide (x ≤ temp))).getLast?

/-- The thresholds of ageing (R504). -/
def Dev.ageT (d : Dev) : List Nat := [fld (d.dispW 4) 35 24, fld (d.dispW 4) 23 12, fld (d.dispW 4) 11 0]

/-! Drive codes (R493, R494, R496, R505). -/

/-- Blocks of 16 × 16 pixels. -/
def Dev.dispBlocks (d : Dev) : Nat := d.dispH16 * cdiv d.dispLines 16

/-- The transitions of the 16 pixels of a word (R494, R496). -/
def transitions (old new : Word) : List Nat :=
  (List.range 16).map fun i => fld old (2 * i + 1) (2 * i) * 4 + fld new (2 * i + 1) (2 * i)

/-- The mode an update runs in, and the transitions of the pixels of word `i`: a clearing refresh drives transition 0 (R503). -/
def Dev.runMode (d : Dev) (u : DispRun) : Nat := if u.clear then d.clearMode else u.what.mode
def Dev.runTransitions (d : Dev) (u : DispRun) (i : Nat) : List Nat :=
  if u.clear then List.replicate 16 0 else transitions (d.disp.curImg.getD i 0) (u.what.image.getD i 0)

/-- The codes that line `y` is driven with in frame `f` of an update, by pixel: neutral for a block whose waveform has ended (R496,
R505). -/
def Dev.runCodes (d : Dev) (u : DispRun) (f y : Nat) : List Nat :=
  (List.range d.dispH16).flatMap fun k =>
    let r := u.ranges.getD (y / 16 * d.dispH16 + k) 0
    (d.runTransitions u (y * d.dispH16 + k)).map fun t => if f < d.waveFrames (d.runMode u) r then d.waveCode (d.runMode u) r f t else 0

/-- The codes of line `y` of the frame being scanned: those of the update in progress, else neutral (R501). -/
def Dev.lineCodes (d : Dev) (y : Nat) : List Nat :=
  match d.disp.run with
  | some u => d.runCodes u d.disp.frame y
  | none => List.replicate (16 * d.dispH16) 0

/-- Pixels a clock carries, and clocks with data in a line (R493). -/
def Dev.busPixels (d : Dev) : Nat := if bitOf (d.dispW 0) 17 then 4 else 8
def Dev.dataClks (d : Dev) : Nat := 16 * d.dispH16 / d.busPixels

/-- EPD_SD at each clock of line `y`: the earliest pixel in the lowest bits (R493). -/
def Dev.lineBus (d : Dev) (y : Nat) : List Nat :=
  let cs := d.lineCodes y
  (List.range d.dataClks).map fun k => ((List.range d.busPixels).map fun j => cs.getD (d.busPixels * k + j) 0 * 4 ^ j).sum

/-- A frame is scanned: one of an update, or one of the four neutral frames (R496, R501); the frame timer runs. -/
def Dev.scans (d : Dev) : Bool :=
  d.disp.tick.isSome && ((d.disp.st == 2 && d.disp.run.isSome) || (d.disp.st == 4 && (d.disp.run.isSome || d.disp.left.isSome)))

/-! Signals (R492, R493, R498). -/

/-- The outputs of the panel interface: clocks and enables by level, EPD_SD as a number, EPD_POS_G and EPD_NEG_G as whether their
converters are switched, EPD_VCOM in mV below ground. -/
structure Epd where
  sdclk : Bool
  sd    : Nat
  sdceN : Bool
  sdle  : Bool
  sdoe  : Bool
  gdclk : Bool
  gdsp  : Bool
  gdoe  : Bool
  posG  : Bool
  negG  : Bool
  vcom  : Nat
  disN  : Bool
deriving DecidableEq, Repr

/-- Every output while PD54 is not ON (R492). -/
def Epd.off : Epd := ⟨false, 0, false, false, false, false, false, false, false, false, 0, false⟩

/-- How many rails are on, in the order VNEG, VGL, VPOS, VGH, VCOM (R498). While they rise that is a free value: it hangs on when each
reaches 90 % (notes/assumptions/69.md). -/
def Dev.railsOn (d : Dev) : Nat :=
  match d.disp.st with
  | 1 => 1 + min 4 (Config.railsRisen (d.clk - d.disp.since))
  | 2 | 3 | 4 => 5
  | 5 =>
    if d.disp.atOnce then 0
    else ((List.range 5).filter fun k => k != 0 && !d.passedUs d.disp.since ((5 - k) * d.railDlyUs)).length
  | _ => 0

/-- The rails are discharged: the controller rests, or the off sequence is over, or it was left out (R498). -/
def Dev.discharges (d : Dev) : Bool :=
  match d.disp.st with
  | 1 | 2 | 3 | 4 => false
  | 5 => d.disp.atOnce || d.passedUs d.disp.since (4 * d.railDlyUs)
  | _ => true

/-- The line being scanned at this instant and the time into it, in units of 1/(2^36 × 800) µs: the lines end FRAME_US after the tick
(R493). -/
def Dev.scanAt (d : Dev) : Option (Nat × Nat) :=
  match d.disp.tick with
  | some k =>
    let line := d.lineClks * d.clkDiv * 2 ^ 36
    let at' := (d.clk - k) * 800000000
    let start := d.frameUs * 800 * 2 ^ 36 - d.dispLines * line
    if d.scans && start ≤ at' && at' < start + d.dispLines * line then some ((at' - start) / line, (at' - start) % line) else none
  | none => none

/-- The level of every output at this instant (R492, R493, R498). EPD_SDLE rises one clock after the data, EPD_GDCLK rises and falls with
it, EPD_SDOE goes low as it rises, EPD_GDSP is high for the whole first line, and EPD_SDCLK runs with a half duty cycle in active lines:
DESIGN CHOICE, notes/assumptions/69.md. -/
def Dev.epd (d : Dev) : Epd :=
  if !d.domOn 54 then Epd.off
  else
    let rails : Epd := { Epd.off with
      sdceN := true, posG := decide (3 ≤ d.railsOn), negG := decide (1 ≤ d.railsOn)
      vcom := if d.railsOn == 5 then d.vcomMv else 0, disN := !d.discharges }
    match d.scanAt with
    | none => rails
    | some (y, u) =>
      let clk := d.clkDiv * 2 ^ 36
      let c := u / clk
      let n := d.dataClks
      let le := decide (n + 1 ≤ c) && decide (c < n + 1 + d.leClks)
      { rails with
        sdclk := decide (clk ≤ 2 * (u % clk)), sd := (d.lineBus y).getD c 0, sdceN := decide (n ≤ c), sdle := le, gdclk := le
        sdoe := decide (n + 1 + d.leClks + d.oeClks ≤ c) || (decide (c ≤ n) && y != 0), gdsp := y == 0, gdoe := true }

end Sys2Proof.Machine
end

