-- ==== Sys2Proof/Machine/Display.lean ====
section
/-!
DEFINITION. The panel controller and the legal display scroll (spec 10, R303, R304; 20, R493–R508).
-/

namespace Sys2Proof.Machine

/-! Counters (R508). -/

def fUpdates : Fld := ⟨0x04E3, 35, 0⟩
def fSuperseded : Fld := ⟨0x04E4, 35, 18⟩
def fTempOut : Fld := ⟨0x04E4, 17, 0⟩
def fNoWave : Fld := ⟨0x04E5, 35, 18⟩
def fRailFault : Fld := ⟨0x04E5, 17, 0⟩
def fCuts : Fld := ⟨0x04E6, 35, 18⟩
def fClears : Fld := ⟨0x04E6, 17, 0⟩

def Dev.setDisp (d : Dev) (x : Display) : Dev := { d with disp := x }

/-- The controller enters a state (R499). -/
def Dev.dispTo (d : Dev) (st : Nat) : Dev := d.setDisp { d.disp with st := st, since := d.clk, atOnce := false }

/-! Ageing (R504, R505). -/

/-- The age class of a block: none while AGE_T1 is 0. -/
def Dev.ageClass (d : Dev) (b : Nat) : Nat :=
  if d.ageT.getD 0 0 == 0 then 0
  else (d.ageT.filter fun t => t != 0 && decide (t ≤ NMap.look d.disp.stress b 0 / 2 ^ 20)).length

/-- The range a block uses at a latch in range `r`. -/
def Dev.blockRange (d : Dev) (m r b : Nat) : Nat :=
  let q := r - d.ageClass b
  if d.waveFrames m q == 0 then r else q

/-- Frames in which a transition is driven with code 1 or 2. -/
def Dev.drivenFrames (d : Dev) (m r t : Nat) : Nat :=
  ((List.range (d.waveFrames m r)).filter fun f => let c := d.waveCode m r f t; c == 1 || c == 2).length

/-- Pixel-frames that an update drives in a block. -/
def Dev.blockDriven (d : Dev) (u : DispRun) (b : Nat) : Nat :=
  let h := d.dispH16
  let r := u.ranges.getD b 0
  let m := d.runMode u
  let per := (List.range 16).map fun t => d.drivenFrames m r t
  let lines := (List.range 16).filter fun k => decide (b / h * 16 + k < d.dispLines)
  (lines.map fun k =>
    let i := (b / h * 16 + k) * h + b % h
    ((d.runTransitions u i).map fun t => per.getD t 0).sum).sum

/-- The stress counters after an update (R504). -/
def Dev.stressAfter (d : Dev) (u : DispRun) : NMap Nat :=
  (List.range d.dispBlocks).foldl (fun m b => NMap.upd m b 0 fun v => sat 36 (v + d.blockDriven u b)) d.disp.stress

/-! Updates (R495–R503). -/

/-- The latch (R495, R497, R503, R505): a clearing refresh goes first; a temperature in no range starts nothing, and a mode
without a waveform is refused. -/
def Dev.dispLatch (d0 : Dev) (temp : Int) : Dev :=
  let c := temp + d0.tempOff
  let d := d0.setDisp { d0.disp with temp := c }
  match d.disp.next with
  | none => d
  | some n =>
    match d.rangeOf c with
    | none => d.dispTo 5
    | some r =>
      let m := if d.disp.clear then d.clearMode else n.mode
      if d.waveFrames m r == 0 then
        (d.setDisp { d.disp with next := none, st := 3, since := d.clk }).count fNoWave
      else
        let rs := (List.range d.dispBlocks).map (d.blockRange m r)
        let u : DispRun := ⟨n, d.disp.clear, (rs.map (d.waveFrames m)).foldl max 0, rs⟩
        d.setDisp { d.disp with
          st := 2, mode := m, range := r, frame := 0, isOpen := true, done := 0, run := some u
          next := if d.disp.clear then d.disp.next else none }

/-- An update's last frame has ended: NEXT becomes CUR, or the panel is white (R495, R503); a press held meanwhile moves the
scroll on (R304). -/
def Dev.dispEnd (d : Dev) (u : DispRun) : Dev :=
  let x := { d.disp with stress := d.stressAfter u, isOpen := false, run := none }
  let d1 := if u.clear then
      (d.setDisp { x with cur := 0, curImg := List.replicate (d.dispH16 * d.dispLines) 0, clear := false, cutP := false }).count
        fClears
    else d.setDisp { x with cur := u.what.addr, curImg := u.what.image }
  d1.count fUpdates

/-! The scroll (R303, R304). -/

def Dev.scrollS (d : Dev) : Nat := fld (d.legW 113) 35 30
def Dev.scrollHoldS (d : Dev) : Nat := fld (d.legW 113) 29 22

/-- Scroll item `k` is valid. -/
def Dev.itemV (d : Dev) (k : Nat) : Bool := bitOf (d.legW (114 + k / 2)) (18 * (k % 2) + 17)

/-- The next valid item, which is item 0 after the last. -/
def Dev.nextItem (d : Dev) : Nat :=
  (((List.range 64).find? fun k => decide (d.leg.item < k) && d.itemV k)).getD 0

/-- The scroll moves to the next item. -/
def Dev.scrollOn (d : Dev) : Dev := { d with leg := { d.leg with item := d.nextItem, shown := d.clk } }

/-- A press moves the scroll to the next item and pauses it (R304). -/
def Dev.scrollPress (d : Dev) : Dev :=
  let d1 := d.scrollOn
  { d1 with leg := { d1.leg with pause := some (d.clk + secT d.scrollHoldS), press := false } }

/-- BUTTON_PRESS (R304): a press during a panel update is held until it ends. -/
def execButtonPress (t : Nat) (s : State) : Result := run t s fun d =>
  if d.disp.run.isSome then { d with leg := { d.leg with press := true } } else d.scrollPress

/-- SCROLL_ADVANCE (R304). -/
def execScrollAdvance (t : Nat) (s : State) : Result := run t s fun d =>
  if d.leg.pause.isNone && d.passedMs d.leg.shown (d.scrollS * 1000) then d.scrollOn else d

/-- SCROLL_RESUME (R304). -/
def execScrollResume (t : Nat) (s : State) : Result := run t s fun d =>
  match d.leg.pause with
  | some e =>
    if e ≤ d.clk then
      let d1 := d.scrollOn
      { d1 with leg := { d1.leg with pause := none } }
    else d
  | none => d

/-! The controller (R499). -/

/-- A commit finds the controller OFF: the rails rise, or it waits for the temperature. -/
def Dev.dispWake (d : Dev) (temp : Int) : Dev :=
  let c := temp + d.tempOff
  let d1 := d.setDisp { d.disp with temp := c }
  if (d.rangeOf c).isSome then (d1.dispTo 1).wakeFor 54 else (d1.dispTo 6).count fTempOut

/-- DISPLAY_COMMIT (R495, R499): a second commit before its edge replaces the first. -/
def execDisplayCommit (t addr mode : Nat) (image : List Word) (temp : Int) (s : State) : Result := run t s fun d0 =>
  if !d0.dispEn || 16 ≤ mode || addr % 64 != 0 then d0
  else
    let d1 := if d0.disp.next.isSome then d0.count fSuperseded else d0
    let d := d1.setDisp { d1.disp with next := some ⟨addr, image, mode, d1.clk⟩ }
    if d.disp.st == 0 && !d.disp.stop then d.dispWake temp else d

/-- RAILS_READY (R498, R499): the frame timer starts. -/
def execRailsReady (t : Nat) (s : State) : Result := run t s fun d =>
  if d.disp.st == 1 && d.domOn 54 && d.passedUs d.disp.since (4 * d.railDlyUs) then
    (d.dispTo 2).setDisp { d.disp with st := 2, since := d.clk, tick := none }
  else d

/-- A commit made before this tick waits for it (R495). -/
def Dev.dispDue (d : Dev) : Bool := (d.disp.next.map fun n => decide (n.made < d.clk)).getD false

/-- A tick ends a waveform frame (R500): FRAMES_DONE is written, and the update ends with its last frame. -/
def Dev.dispFrame (d : Dev) : Dev :=
  match d.disp.run with
  | none => d
  | some u =>
    let f := d.disp.frame + 1
    let d1 := d.setDisp { d.disp with frame := f, done := f }
    if u.nf ≤ f then d1.dispEnd u else d1

/-- A press held during the update counts once it has ended (R304). -/
def Dev.dispPress (d : Dev) : Dev := if d.disp.run.isNone && d.leg.press then d.scrollPress else d

/-- A tick of the frame timer at the temperature read (R495, R499, R501). -/
def Dev.frameTick (d : Dev) (temp : Int) : Dev :=
  match d.disp.st with
  | 2 =>
    let d1 := d.dispFrame.dispPress
    if d1.disp.run.isSome then d1
    else if d1.dispDue then d1.dispLatch temp
    else if d1.disp.next.isSome then d1 else d1.dispTo 3
  | 3 => if d.dispDue then d.dispLatch temp else d
  | 4 =>
    match d.disp.left with
    | none =>
      let d1 := d.dispFrame.dispPress
      d1.setDisp { d1.disp with left := some 4 }
    | some n => if n ≤ 1 then (d.dispTo 5).setDisp { d.disp with st := 5, since := d.clk, left := none }
      else d.setDisp { d.disp with left := some (n - 1) }
  | _ => d

/-- FRAME_TICK (R493, R495, R499, R501): FRAME_US after the one before; a frame that begins here is scanned out. -/
def execFrameTick (t : Nat) (temp : Int) (s : State) : Result := run t s fun d0 =>
  if !((d0.disp.tick.map fun k => d0.passedUs k d0.frameUs).getD true) then d0
  else
    let d := ({ d0 with disp := { d0.disp with tick := some d0.clk } } : Dev).frameTick temp
    d.onlyIf d.scans fun x => x.emit (.epd ((List.range x.dispLines).map x.lineBus))

/-- A stop request (R499, R501). -/
def Dev.dispStop (d : Dev) : Dev :=
  let x := { d.disp with stop := true }
  match x.st with
  | 1 | 3 => (d.setDisp x).dispTo 5
  | 2 => d.setDisp { x with st := 4, since := d.clk, left := if x.run.isSome then none else some 4 }
  | 6 => (d.setDisp x).dispTo 0
  | _ => d.setDisp x

/-- HOLD_CRIT while stopping: the neutral frames are abandoned (R430, R506). -/
def Dev.dispCrit (d : Dev) : Dev :=
  if d.disp.st == 4 then d.setDisp { d.disp with st := 5, since := d.clk, left := none, run := none, atOnce := true } else d

/-- An update has been cut (R502, R503). -/
def Dev.dispCut (d : Dev) (frames : Nat) : Dev :=
  ((d.setDisp { d.disp with cutP := true, clear := true, run := none }).count fCuts).raise 0x0C0 [frames]

/-- RAIL_FAULT (R498, R499): EPD_DIS_N goes low at once, and an update that has begun is cut. -/
def execRailFault (t : Nat) (s : State) : Result := run t s fun d =>
  if d.disp.st == 0 || d.disp.st == 5 || d.disp.st == 6 then d
  else
    let d1 := d.count fRailFault
    let d2 := if d1.disp.run.isSome then d1.dispCut d1.disp.done else d1
    d2.setDisp { d2.disp with st := 5, since := d.clk, left := none, run := none, atOnce := true }

/-- RAIL_HOLD_EXPIRY (R499). -/
def execRailHoldExpiry (t : Nat) (s : State) : Result := run t s fun d =>
  if d.disp.st == 3 && d.disp.next.isNone && d.passedMs d.disp.since d.railHoldMs then d.dispTo 5 else d

/-- DISCHARGE_DONE (R498, R499): the off sequence is complete and every rail within 0.5 V: OFF, and PD54 closes; a commit that waits
starts again. -/
def execDischargeDone (t : Nat) (temp : Int) (s : State) : Result := run t s fun d =>
  if d.disp.st != 5 || !(d.disp.atOnce || d.passedUs d.disp.since (4 * d.railDlyUs)) then d
  else
    let d1 := (d.dispTo 0).setDisp { d.disp with st := 0, since := d.clk, tick := none, run := none }
    if d1.disp.next.isSome && !d1.disp.stop then d1.dispWake temp else d1.closeDom 54 0

/-- TEMP_RECHECK (R497): each second in TEMP_WAIT. -/
def execTempRecheck (t : Nat) (temp : Int) (s : State) : Result := run t s fun d =>
  if d.disp.st != 6 || !d.passedMs d.disp.since 1000 then d
  else
    let c := temp + d.tempOff
    let d1 := d.setDisp { d.disp with temp := c, since := d.clk }
    if (d.rangeOf c).isSome then (d1.dispTo 1).wakeFor 54 else d1

/-- The controller at a start (R500–R503, R505): a cold start and a cut ask for a clearing refresh; PD1's record gives the
cut. -/
def Dev.dispStart (d : Dev) (cold pd1 : Bool) : Dev :=
  let x := d.disp
  let cut := x.isOpen || !pd1
  let y := { x with
    st := 0, since := d.clk, tick := none, run := none, next := none, stop := false, left := none, frame := 0
    clear := x.clear || cold || cut, cutP := x.cutP || cut, cutDue := if cut then some (if pd1 then x.done else 0) else none
    cur := if cold then 0 else x.cur, curImg := if cold then [] else x.curImg
    stress := if pd1 then x.stress else [], lost := if !pd1 then true else if cold then false else x.lost }
  d.setDisp y

/-- The DISPLAY_CUT event of a start is raised, and the cut counted (R502). -/
def Dev.dispCutEvent (d : Dev) : Dev :=
  match d.disp.cutDue with
  | some f => ((d.setDisp { d.disp with cutDue := none }).count fCuts).raise 0x0C0 [f]
  | none => d

end Sys2Proof.Machine
end

