-- ==== Sys2Proof/Machine/CfgRules.lean ====
section
/-!
DEFINITION. What makes a configuration copy invalid: the rules of each chapter for the words of its block (spec 17, R438–R440,
and the chapters R439 names). Each check stands with the word of its block that fails it.
-/

namespace Sys2Proof.Machine

/-! Blocks beyond those of Settings. -/

def blkLocal : Nat := 34726
def cfgTrailer : Nat := 34835
def cfgLength : Nat := 34860

/-- The blocks of a copy as R439 lists them: BLOCK_ID, first word, words. -/
def cfgBlocks : List (Nat × Nat × Nat) :=
  [(0x01, blkQueues, 1), (0x02, blkRf, 832), (0x03, blkLinks, 16), (0x04, blkDet, 1), (0x05, blkClassOct, 6), (0x06, blkAir, 38),
    (0x07, blkDwell, 512), (0x08, blkPl, 160), (0x09, blkPlNet, 20), (0x0A, blkLedger, 3), (0x0B, blkCommands, 2),
    (0x0C, blkBalance, 66), (0x0D, blkZones, 16384), (0x0E, blkMetro, 61), (0x0F, blkTime, 39), (0x10, blkUplink, 42),
    (0x11, blkMirror, 1), (0x12, blkStore, 24), (0x13, blkRecorder, 1), (0x14, blkPower, 2), (0x15, blkPair, 1),
    (0x16, blkDisplay, 16458), (0x17, blkLocal, 53), (0x18, blkIdentity, 56)]

/-- A field lies in a range. -/
def inRange (v lo hi : Nat) : Bool := decide (lo ≤ v) && decide (v ≤ hi)

/-- One of the divisors of an hour that interval lengths may be (R254, R285). -/
def hourPart (v : Nat) : Bool := [1, 2, 3, 4, 5, 6, 10, 12, 15, 20, 30, 60].contains v

/-- No two elements are equal. -/
def allDifferent : List Nat → Bool
  | [] => true
  | a :: r => !r.contains a && allDifferent r

/-! Queues, streams and links (R51, R52, R60, R65, R67, R80). The device holds the copy judged as its configuration. -/

def Dev.chkQueues (d : Dev) : List (Nat × Bool) :=
  let k := if d.led.enrolled then d.led.dir.log2 else d.dirLog2Cfg
  [(0, d.staleUs != 0 && decide (fld (d.cfgW blkQueues) 19 9 ≤ 1024) && decide (d.dramWords k ≤ d.boot.dramGiw * 2 ^ 30))]

/-- The entries of a channel plan from subchannel `k` on, `left` of a group's span still to come (R80). -/
def Dev.planOk (d : Dev) (s k left : Nat) : Nat → Bool
  | 0 => left == 0
  | fuel + 1 =>
    let g := d.planGroup s k
    if left != 0 then g == 4 && Dev.planOk d s (k + 1) (left - 1) fuel
    else if g == 0 then Dev.planOk d s (k + 1) 0 fuel
    else if g ≤ 3 then Dev.planOk d s (k + 1) (2 * g - 1) fuel
    else false

/-- The source of an RF stream, for comparison (R60). -/
def Dev.rfSource (d : Dev) (s : Nat) : Nat := fld (d.rfW s 0) 34 28

def Dev.chkRf (d : Dev) (s : Nat) : List (Nat × Bool) :=
  let at' (w : Nat) (ok : Bool) : Nat × Bool := (26 * s + w, ok)
  if !bitOf (d.rfW s 0) 35 then []
  else
    let linkOk := d.linkEn (d.rfLink s) && !d.linkPl (d.rfLink s) && decide (d.rfPos s < d.linkCount (d.rfLink s))
    [at' 0 (decide (s < d.variant.streams) && d.rfCentreKhz s != 0 && (if d.rfSrcLink s then linkOk else d.rfLink s == 0)
        && (List.range s).all fun r => !(bitOf (d.rfW r 0) 35 && d.rfSource r == d.rfSource s)),
      at' 1 (decide (-100000 ≤ d.rfFineHz s) && decide (d.rfFineHz s ≤ 100000) && decide (fld (d.rfW s 1) 17 16 ≤ 1)
        && fld (d.rfW s 1) 7 0 != 0),
      at' 2 (d.rfSrcLink s || decide (d.rfGainCfg s ≤ 15)),
      at' 3 (d.planOk s 0 0 200), at' 25 (fld (d.rfW s 25) 35 8 == 0)]

def Dev.chkLink (d : Dev) (k : Nat) : List (Nat × Bool) :=
  [(k, decide (d.linkCount k ≤ if d.linkPl k then 16 else 4) && inRange (d.linkCtrlBlocks k) 2 16)]

/-! Detection, class octets, air access, dwell tables (R87, R107, R119, R120, R129). -/

def Dev.chkClassOct (d : Dev) : List (Nat × Bool) :=
  (List.range 18).map fun k =>
    let e := d.classEntry k
    (k / 3, if 16 ≤ k then e == 0
      else e / 2048 == 0 || (decide (e / 256 % 8 ≤ 4)
        && (List.range k).all fun j => !(d.classEntry j / 2048 == 1 && d.classEntry j % 256 == e % 256)))

def Dev.chkAir (d : Dev) : List (Nat × Bool) :=
  [(0, decide (d.txLanes ≤ d.variant.lanes) && decide (d.minBe ≤ d.maxBe) && d.maxCca != 0 && d.ccaUs != 0 && d.dlSec != 3),
    (1, decide (d.mailMs ≤ 1000) && fld (d.airW 1) 25 18 != 0), (2, decide (d.netShort < 0xFFFE)),
    (5, d.hornRepeat != 0 && d.hornWakeMs != 0 && d.hornListenMs != 0)]
  ++ (List.range 32).map fun s => (6 + s, decide (d.hornSub s ≤ 199) || d.hornSub s == 255)

def Dev.chkDwell (d : Dev) : List (Nat × Bool) :=
  (List.range 128).flatMap fun i =>
    let w (k : Nat) : Word := d.cfgW (blkDwell + 4 * i + k)
    let v := bitOf (w 0) 0
    [(4 * i, decide (fld (w 0) 7 1 ≤ 100) && (i % 32 != 0
        || decide (((d.dwellEntries (i / 32)).map fun e => if e.2.chKhz == 0 then 1 else cdiv (e.2.high - e.2.low) e.2.chKhz).sum
          ≤ 256))),
      (4 * i + 1, !v || decide (fld (w 0) 35 8 < fld (w 1) 35 8)), (4 * i + 2, !v || fld (w 2) 35 24 != 0)]

/-! Powerline (R132, R146, R150, R156). -/

def Dev.chkPl (d : Dev) (s : Nat) : List (Nat × Bool) :=
  let at' (w : Nat) (ok : Bool) : Nat × Bool := (5 * s + w, ok)
  let linkOk := d.linkEn (d.plLink s) && d.linkPl (d.plLink s) && decide (d.plPos s < d.linkCount (d.plLink s))
  let source (r : Nat) : Nat := fld (d.plW r 0) 34 26
  let mask := joinW (d.plW s 3) (d.plW s 4)
  let carriers := if d.plFcc s then 72 else 36
  let k := fld (d.plW s 1) 35 30
  if !d.plEn s then []
  else
    [at' 0 ((if d.plSrcLink s then linkOk else d.plLink s == 0 && decide (d.plPos s ≤ 5)) && fld (d.plW s 0) 20 13 != 0
        && (List.range s).all fun r => !(d.plEn r && source r == source s)),
      at' 1 ((k == 0 || decide (8 ≤ k)) && decide (fld (d.plW s 1) 29 14 ≤ 32767)), at' 2 (decide (100 ≤ d.plSlotUs s)),
      at' 3 (decide (8 ≤ ((List.range carriers).filter fun c => mask / 2 ^ c % 2 == 0).length)
        && (d.plFcc s || d.plW s 3 == 0))]

def Dev.chkPlNet (d : Dev) : List (Nat × Bool) :=
  [(0, decide (400 ≤ d.plAckUs) && d.plPcw != 0 && decide (d.plMinBe ≤ d.plMaxBe) && d.plMaxCsma != 0),
    (1, d.plRouteS != 0 && d.plMaxHops != 0), (2, d.plRouteAge != 0 && d.plRreqS != 0 && d.reasmS != 0),
    (3, d.discWinMs != 0 && d.confTries != 0 && d.sweepMax != 0)]
  ++ (List.range 8).map fun i => (5 + 2 * i, !bitOf (d.pnW (5 + 2 * i)) 29 || decide (fld (d.pnW (5 + 2 * i)) 35 30 ≤ 32))

/-! Ledger, commands, balance (R199, R234, R237, R238, R254). -/

def Dev.chkLedger (d : Dev) : List (Nat × Bool) :=
  [(0, decide (100 ≤ d.plausSoft) && decide (d.plausSoft ≤ d.plausHard) && inRange d.skewFlagMs 1 32767),
    (1, inRange d.skewQuarMs d.skewFlagMs 32767 && d.rcptDeadlineS != 0),
    (2, inRange d.dirLog2Cfg 17 21 && inRange d.rebuildRate 1 40 && d.annHoldS != 0)]

def Dev.chkRoles (d : Dev) (i : Nat) : Bool :=
  let w (k : Nat) : Word := d.cfgW (blkBalance + 2 + k)
  let rs := [fld (w i) 18 16, fld (w i) 15 13, fld (w i) 12 10, fld (w i) 9 7]
  rs.all (fun r => decide (r ≤ 3)) && decide ((rs.filter fun r => r == 3).length ≤ 1)
    && (!bitOf (w i) 19 || (List.range i).all fun j => !(bitOf (w j) 19 && fld (w j) 35 20 == fld (w i) 35 20))

def Dev.chkBalance (d : Dev) : List (Nat × Bool) :=
  [(0, hourPart d.balIvlMin && inRange d.balWaitMin 1 (63 * d.balIvlMin) && inRange d.phiMin 1 100 && inRange d.phiMargin 1 100),
    (1, d.phiMinN != 0)]
  ++ (List.range 64).map fun i => (2 + i, d.chkRoles i)

def Dev.chkZone (d : Dev) (z : Nat) : List (Nat × Bool) :=
  if !d.zoneV z then []
  else
    let k := d.zRefKind z
    [(4 * z, k != 3 && (k != 1 || d.zRefPhase z != 3) && decide (d.zRefSlot z < d.variant.slots)),
      (4 * z + 1, k != 2 || d.zVnom z != 0), (4 * z + 2, decide (d.zResPermil z ≤ 1000)),
      (4 * z + 3, inRange (d.zPersistN z) 1 (d.zPersistM z) && d.zClearN z != 0 && decide (d.zMissMax z ≤ 100))]

/-! Metrology and time (R258, R261, R263, R271, R328). -/

def Dev.chkMetro (d : Dev) : List (Nat × Bool) :=
  [(0, inRange d.rmsTicks 1 100)]
  ++ ((List.range 4).map fun g => (1 + g, d.presetOk g (d.groupPreset g) (d.groupScs g)))
  ++ ((List.range 48).map fun c => (5 + c, gainOk c (d.chanGain c) && (!d.chanEn c || d.chanFs c != 0)))
  ++ (List.range 8).map fun f => (53 + f, !d.feederEn f || ((List.range 4).all (fun p => d.chanEn (4 * f + p))
      && (List.range 3).all fun p => d.chanEn (32 + 4 * d.feederBus f + p)))

def Dev.chkTime (d : Dev) : List (Nat × Bool) :=
  let dst := d.dstOffMin != 0
  let rule (w : Word) : Bool :=
    fld w 28 26 != 7 && (!dst || (inRange (fld w 31 29) 1 5 && inRange (fld w 35 32) 1 12 && decide (fld w 25 15 ≤ 1439)))
  [(0, fld (d.tmW 0) 33 32 != 3 && decide (d.ptpDomain ≤ 127) && decide (d.logSync ≤ 4)),
    (1, d.lockNs != 0 && decide (d.lockNs ≤ d.unlockNs) && inRange (fld (d.tmW 1) 9 1) 1 500),
    (3, decide (-720 ≤ d.stdOffMin) && decide (d.stdOffMin ≤ 840) && decide (d.dstOffMin ≤ 120) && decide (d.timeWaitS ≤ 60)),
    (4, rule (d.tmW 4)), (5, rule (d.tmW 5)), (6, d.cycleMs == 0 || 60000 % d.cycleMs == 0)]
  ++ (List.range 32).map fun s => (7 + s, decide (d.beaconSub s ≤ 199) || d.beaconSub s == 255)

/-! Uplink, mirror, store, recorder, power, pair (R331, R332, R369, R379, R409, R422, R459). -/

def Dev.chkPort (d : Dev) (p : Nat) : List (Nat × Bool) :=
  let en := d.portEn p
  let pre := fld (d.portW p 7) 35 28
  [(20 * p, d.portMode p != 3 && (!bitOf (d.portW p 0) 31 || inRange (fld (d.portW p 0) 30 19) 1 4094) && inRange (d.portMtu p) 1280 9000),
    (20 * p + 3, !en || d.portAddr p 3 != 0), (20 * p + 7, !en || inRange pre 1 (if d.portIpv4 p then 32 else 128)),
    (20 * p + 12, !en || d.portAddr p 12 != 0)]

def Dev.chkCxp (d : Dev) : List (Nat × Bool) :=
  [(40, fld (d.cfgW (blkUplink + 40)) 35 20 != 0 && decide (100 ≤ d.resendMs) && d.txWindow != 0),
    (41, d.sessionToS != 0 && d.busyRetryMs != 0)]

def Dev.chkStore (d : Dev) : List (Nat × Bool) :=
  let intP := d.intPct
  [(0, inRange d.diesPerCh 1 8 && d.pageCode != 3 && decide (64 ≤ d.ppb) && decide (512 ≤ d.bpd) && fld (d.stW 0) 1 0 != 3),
    (1, decide (fld (d.stW 1) 35 33 ≤ 4) && d.tprogUs != 0 && inRange d.sparePct 2 30),
    (2, d.intDays != 0 && d.archDays != 0 && inRange intP 1 95 && inRange d.archPct 1 95 && decide (intP + d.archPct ≤ 95)),
    (3, d.rebuildMbs != 0 && fld (d.stW 3) 23 16 != 0 && inRange d.scrubBits 1 80 && decide (2 ≤ d.ckptKeep)),
    (7, fld (d.stW 7) 35 20 == 0), (8, fld (d.stW 8) 35 4 == 0)]

def Dev.chkPower (d : Dev) : List (Nat × Bool) :=
  [(0, inRange d.mainsFiltUs 100 2000 && inRange d.huMetroMs 20 900 && d.laneIdleUs != 0),
    (1, d.cryptoIdleUs != 0 && d.coreIdleMs != 0 && inRange d.coresMin 1 4)]

/-! Pair settings (R459). -/

def Dev.pairEn (d : Dev) : Bool := bitOf (d.cfgW blkPair) 35
def Dev.preferred (d : Dev) : Bool := bitOf (d.cfgW blkPair) 34
def Dev.autoReturn (d : Dev) : Bool := bitOf (d.cfgW blkPair) 33
def Dev.returnS (d : Dev) : Nat := fld (d.cfgW blkPair) 32 21
def Dev.peerWaitS (d : Dev) : Nat := fld (d.cfgW blkPair) 20 13

/-! Display (R507). -/

def Dev.chkDisplay (d : Dev) : List (Nat × Bool) :=
  let h := d.dispH16
  let le := fld (d.dispW 2) 35 28
  let lineClks := fld (d.dispW 1) 21 10
  let data := if bitOf (d.dispW 0) 17 then 4 * h else 2 * h
  let ks := (List.range 16).filter fun k => (d.tLow k).isSome
  let top := (ks.getLast?.bind d.tLow).getD 0
  let ages := d.ageT
  let a (i : Nat) : Nat := ages.getD i 0
  [(0, inRange h 1 64 && inRange d.dispLines 1 768 && decide (8 ≤ fld (d.dispW 0) 16 9)),
    (1, inRange d.frameUs 5000 16383 && decide (data + le + fld (d.dispW 2) 27 20 + 8 ≤ lineClks)
      && decide ((d.dispLines + 1) * lineClks * fld (d.dispW 0) 16 9 ≤ 800 * d.frameUs)), (2, le != 0),
    (3, inRange (fld (d.dispW 3) 35 24) 500 3000 && ks.all fun r => d.waveFrames d.clearMode r != 0),
    (4, (a 1 == 0 || decide (a 0 < a 1)) && (a 2 == 0 || decide (a 1 < a 2))), (5, decide (top < d.dispTmax)),
    (6, !ks.isEmpty && ks == List.range ks.length
      && (List.range (ks.length - 1)).all fun k => decide ((d.tLow k).getD 0 < (d.tLow (k + 1)).getD 0))]
  ++ ((List.range 256).map fun i => (10 + i / 4, decide (d.waveFrames (i / 16) (i % 16) ≤ 64)))
  ++ (List.range 256).flatMap fun i =>
    let nf := min 64 (d.waveFrames (i / 16) (i % 16))
    (List.range 64).map fun f =>
      let w := d.dispW (74 + i * 64 + f)
      (74 + i * 64 + f, if f < nf then (List.range 16).all fun t => fld w (2 * t + 1) (2 * t) != 3 else w == 0)

/-! Local pins, UARTs, card (R510, R511, R516). -/

def Dev.uartPins (d : Dev) (u f : Nat) : List Nat :=
  (List.range 48).filter fun p => d.pinFunc p == f && fld (d.pinW p) 30 29 == u

def Dev.chkPin (d : Dev) (p : Nat) : Bool :=
  let f := d.pinFunc p
  let o := fld (d.pinW p) 22 20
  decide (f ≤ 9) && decide (fld (d.pinW p) 28 25 ≤ 7) && decide (fld (d.pinW p) 24 23 ≤ 2)
    && (decide (o ≤ 3) || (o == 4 && decide (p ≤ 7))) && (f != 1 || decide (p ≤ 5))
    && (f != 7 || (List.range p).all fun q => d.pinFunc q != 7)
    && (!inRange f 4 6 || bitOf (d.uartW (fld (d.pinW p) 30 29)) 35)

def Dev.chkUart (d : Dev) (u : Nat) : Bool :=
  let w := d.uartW u
  decide (fld w 34 31 ≤ 7) && fld w 30 29 != 3 && (bitOf w 27 || !bitOf w 35 || inRange (fld w 26 19) 1 247)
    && (!bitOf w 35 || [4, 5, 6].all fun f => (d.uartPins u f).length == 1)

def Dev.chkLocal (d : Dev) : List (Nat × Bool) :=
  ((List.range 48).map fun p => (p, d.chkPin p)) ++ (List.range 4).map fun u => (48 + u, d.chkUart u)

/-! Identity (R479, R481). -/

def Dev.idW (d : Dev) (i : Nat) : Word := d.cfgW (blkIdentity + i)

/-- A 384-bit number that twelve words from word `i` of the IDENTITY block on hold. -/
def Dev.idNum (d : Dev) (i : Nat) : Nat := ofWords32 ((List.range 12).map fun k => d.idW (i + k))

/-- CFG_KEY: the operator's configuration key, a point of P-384. -/
def Dev.cfgKey (d : Dev) : Option Jac := p384.point (d.idNum 4) (bitOf (d.idW 0) 23)

/-- The key under which SECRET_CT was wrapped: ECDH of the identity key with EPH_X, then HKDF; none where EPH_X is no point. -/
def Dev.custodyKey (d : Dev) : Option (List Octet) :=
  (p384.point (d.idNum 28) (bitOf (d.idW 0) 22)).map fun q =>
    hkdf384 (octetsBE (d.idW 1).toNat 5) (octetsBE (p384.agree (Config.identityKey d.idn.fr) q) 48)
      ([0x41, 0x58, 0x2D, 0x45, 0x4E, 0x52] ++ octetsBE (d.idW 2).toNat 5) 16

/-- CK and TK that the IDENTITY block carries, and whether SECRET_TAG passes. -/
def Dev.custody (d : Dev) : List Octet × Bool :=
  match d.custodyKey with
  | none => ([], false)
  | some k =>
    gcmOpen k (List.replicate 12 0) (wordsOctets ((List.range 40).map d.idW))
      (octetsBE (ofWords32 ((List.range 12).map fun i => d.idW (40 + i))) 48)
      (octetsBE (ofWords32 ((List.range 4).map fun i => d.idW (52 + i))) 16)

def Dev.chkIdentity (d : Dev) : List (Nat × Bool) :=
  [(1, d.idW 1 != 0), (2, (d.idW 2).toNat == d.idn.serial % 2 ^ 36), (3, (d.idW 3 == 0) == !d.pairEn), (52, d.custody.2)]

/-- Every check of every block, with its BLOCK_ID and word (R440). -/
def Dev.cfgChecks (d : Dev) : List (Nat × List (Nat × Bool)) :=
  [(0x01, d.chkQueues), (0x02, (List.range 32).flatMap d.chkRf), (0x03, (List.range 16).flatMap d.chkLink),
    (0x04, [(0, decide (d.grantWaitUs ≤ 1000))]), (0x05, d.chkClassOct), (0x06, d.chkAir), (0x07, d.chkDwell),
    (0x08, (List.range 32).flatMap d.chkPl), (0x09, d.chkPlNet), (0x0A, d.chkLedger),
    (0x0B, [(0, d.respWaitS != 0 && d.actGraceMin != 0)]), (0x0C, d.chkBalance), (0x0D, (List.range 4096).flatMap d.chkZone),
    (0x0E, d.chkMetro), (0x0F, d.chkTime), (0x10, (List.range 2).flatMap d.chkPort ++ d.chkCxp),
    (0x11, [(0, inRange d.epochMs 10 10000 && d.holdAlarmMs != 0)]), (0x12, d.chkStore),
    (0x13, [(0, fld (d.cfgW blkRecorder) 34 25 != 0)]), (0x14, d.chkPower),
    (0x15, [(0, decide (60 ≤ d.returnS) && d.peerWaitS != 0)]), (0x16, if d.dispEn then d.chkDisplay else []),
    (0x17, d.chkLocal), (0x18, d.chkIdentity)]

/-- The first block and word that a rule finds bad. -/
def Dev.cfgBad (d : Dev) : Option (Nat × Nat) :=
  d.cfgChecks.findSome? fun b => (b.2.find? fun c => !c.2).map fun c => (b.1, c.1)

/-- The fields that formatting the store and enrolling fix (R199, R379, R409, R440): DIR_LOG2, the geometry words, the two
shares, MODE and EV_KI. -/
def Dev.cfgFixed (d : Dev) : List Nat :=
  [d.dirLog2Cfg, (d.stW 0).toNat, d.intPct, d.archPct, fld (d.cfgW blkRecorder) 35 25]

end Sys2Proof.Machine
end

