-- ==== Sys2Proof/Machine/LegalRules.lean ====
section
/-!
DEFINITION. Octet images in the NOR, and the rules for the settings of a legal image (spec 09, R270; 10, R285, R303; 17,
R446, R454).
-/

namespace Sys2Proof.Machine

/-! Octet images. -/

/-- The first `n` octets of an image. -/
def Image.octets (m : Image) (n : Nat) : List Octet := ((List.range (cdiv n 4096)).flatMap fun b => NMap.look m b []).take n

/-- A big-endian number in an image's header: `n` octets from octet `a`. -/
def Image.num (m : Image) (a n : Nat) : Nat := ofBE (((NMap.look m 0 []).drop a).take n)

/-- FW_VER of a firmware image's header (R446); the legal firmware's version stands in the same octets (R454). -/
def Image.ver (m : Image) : Nat := m.num 4 5 % 2 ^ 36
def Image.part (m : Image) : Nat := m.num 2 2
def Image.cfgMin (m : Image) : Nat := m.num 9 1
def Image.cfgMax (m : Image) : Nat := m.num 10 1
def Image.stateVer (m : Image) : Nat := m.num 11 1
def Image.coldOnly (m : Image) : Bool := m.num 12 1 % 2 == 1
def Image.len (m : Image) : Nat := m.num 16 4

/-- All octets of an image. -/
def Image.all (m : Image) : List Octet := m.octets m.len

/-- `n` octets, `a` octets into the trailer that ends before octet `e` of an image, as a number (R446). -/
def Image.trailer (m : Image) (e a n : Nat) : Nat := ofBE (((m.octets e).drop (e - 104 + a)).take n)

/-- KEY_ID of a trailer. -/
def Image.keyId (m : Image) (e : Nat) : Nat := m.trailer e 0 8

/-- The signature in a trailer verifies over every octet before the trailer (R446, R454). Of a legal image's own trailer that is
from the image's first octet on: DEDUCED, notes/assumptions/65.md. -/
def Image.signedBy (m : Image) (e : Nat) (key : Option Jac) : Bool :=
  p384.verify key (sha384 (m.octets (e - 104))) (m.trailer e 8 48) (m.trailer e 56 48)

/-- A KEY_ID names a firmware key slot that is not revoked (R480). -/
def Dev.fwKeyOk (d : Dev) (k : Nat) : Bool := decide (k < 4) && d.idn.fwRev / 2 ^ k % 2 == 0

/-- A Skovan firmware key of the identity OTP (R478). -/
def Dev.fwKey (d : Dev) (k : Nat) : Option Jac := d.idn.fwKeys[k]?.bind fun x => p384.point x.1 x.2

/-- The Skovan trailer that ends before octet `e` names a key slot that is not revoked, and its signature verifies under that key
(R446, R480). -/
def Dev.skovanOk (d : Dev) (m : Image) (e : Nat) : Bool := d.fwKeyOk (m.keyId e) && m.signedBy e (d.fwKey (m.keyId e))

/-! The settings of a legal image (R270, R285, R303), as its 242 words. -/

def lw (ws : List Word) (i : Nat) : Word := ws.getD i 0

/-- GAIN_CAL and DELAY_CAL of a channel are in range (R270). -/
def calOk (ws : List Word) (c : Nat) : Bool :=
  inRange (fld (lw ws (2 * c)) 35 12) 0x200000 0x5FFFFF && (decide (c < 32) || fld (lw ws (2 * c + 1)) 17 0 == 0)

/-- The general word (R285). -/
def calendarOk (g : Word) : Bool :=
  let dem := fld g 35 30
  let mode := fld g 29 28
  hourPart dem && decide (mode ≤ 1) && (mode == 0 || inRange (fld g 27 23) 1 28) && decide (fld g 22 12 ≤ 1439)
    && fld g 22 12 % dem == 0

/-- A season's start, if the season is valid (R285). -/
def seasonStart (ws : List Word) (i : Nat) : Option Nat :=
  let w := lw ws (105 + i)
  if bitOf w 35 then some (fld w 34 26) else none

def seasonOk (ws : List Word) (i : Nat) : Bool :=
  let w := lw ws (105 + i)
  !bitOf w 35 || (inRange (fld w 34 31) 1 12 && inRange (fld w 30 26) 1 (monthDays 2001 (fld w 34 31))
    && (List.range i).all fun j => seasonStart ws j != some (fld w 34 26))

/-- A special day (R285): the date exists; 29 February stands with YEAR 0 or a leap year. -/
def specialOk (ws : List Word) (i : Nat) : Bool :=
  let w := lw ws (113 + i)
  let y := fld w 34 23
  !bitOf w 35 || ((y == 0 || decide (2000 ≤ y)) && inRange (fld w 22 19) 1 12
    && inRange (fld w 18 14) 1 (monthDays (if y == 0 then 2000 else y) (fld w 22 19)))

/-- Day-profile entry `k`, and scroll item `k` (R285, R303). -/
def legEntry (ws : List Word) (base k : Nat) : Nat := fld (lw ws (base + k / 2)) (18 * (k % 2) + 17) (18 * (k % 2))

/-- The valid entries of a profile stand lowest, in rising MINUTE on the demand grid; one that is named begins at 0 (R285). -/
def profileOk (ws : List Word) (p : Nat) (named : Bool) : Bool :=
  let dem := fld (lw ws 96) 35 30
  let e (j : Nat) : Nat := legEntry ws 145 (8 * p + j)
  let v (j : Nat) : Bool := e j / 2 ^ 17 == 1
  let mins (j : Nat) : Nat := e j / 64 % 2048
  (List.range 8).all (fun j => !v j || (decide (mins j ≤ 1439) && mins j % dem == 0
    && (j == 0 || (v (j - 1) && decide (mins (j - 1) < mins j))))) && (!named || (v 0 && mins 0 == 0))

/-- A week or a special day names a profile (R285). -/
def profileNamed (ws : List Word) (p : Nat) : Bool :=
  ((List.range 8).any fun i => (List.range 7).any fun k => fld (lw ws (97 + i)) (35 - 4 * k) (32 - 4 * k) == p)
    || (List.range 32).any fun i => bitOf (lw ws (113 + i)) 35 && fld (lw ws (113 + i)) 13 10 == p

/-- A scroll item (R303). -/
def scrollOk (ws : List Word) (k : Nat) : Bool :=
  let e := legEntry ws 210 k
  let set := e / 2 ^ 13 % 16
  let row := e / 512 % 16
  let qty := e / 64 % 8
  e / 2 ^ 17 == 0 || (if set == 15 then decide (row ≤ 4) else decide (set ≤ 8) && decide (row ≤ 8) && !(row == 8 && decide (6 ≤ qty)))

/-- Every settings rule of R270, R285 and R303 holds. -/
def settingsOk (ws : List Word) : Bool :=
  let disp := lw ws 209
  let item0 := legEntry ws 210 0
  ((List.range 48).all (calOk ws)) && calendarOk (lw ws 96) && ((List.range 8).any fun i => (seasonStart ws i).isSome)
    && ((List.range 8).all (seasonOk ws)) && ((List.range 32).all (specialOk ws))
    && ((List.range 16).all fun p => profileOk ws p (profileNamed ws p))
    && fld disp 35 30 != 0 && fld disp 29 22 != 0 && item0 / 2 ^ 17 == 1 && item0 / 2 ^ 13 % 16 == 15 && item0 / 512 % 16 == 0
    && (List.range 64).all (scrollOk ws)

/-- The settings section of a legal image: 242 words as double words of 9 octets (R436, R454). -/
def Image.settings (m : Image) : List Word :=
  let os := m.all.drop (m.num 20 4)
  (List.range 121).flatMap fun i => dw (ofBE ((os.drop (9 * i)).take 9))

/-- LEGAL_CHECK of an image (R301). -/
def Image.check (m : Image) : Nat := sha256 m.all / 2 ^ 220

/-- A legal image is valid (R454): FORMAT, its length, the settings section inside it between the legal firmware's trailer and
the operator trailer, the settings rules, and both signatures. -/
def Dev.legalOk (d : Dev) (m : Image) : Bool :=
  let at' := m.num 20 4
  m.num 0 2 == 1 && decide (m.len ≤ 1048576) && decide (168 ≤ at') && at' + 1089 + 104 == m.len && m.all.length == m.len
    && settingsOk m.settings && d.skovanOk m at' && m.signedBy m.len d.cfgKey

end Sys2Proof.Machine
end

