-- ==== Sys2Proof/Machine/ObjWrites.lean ====
section
/-!
DEFINITION. An OBJ_WRITE from its arrival to its answer: which command a write is, the refusals of the whole write, and its
words one after the other (spec 12, R350, R352–R354, R359; 17, R443).
-/

namespace Sys2Proof

/-- Which row of the command table an OBJ_WRITE is (R353): by its region, and in regions 0x06, 0x0A and 0x0B by what it writes
to offset 0. -/
inductive WriteKind where
  | record | membership | metrology | billReq
  | cfgCheck | cfgInstall | cfgClear | fwApply | fwClear | fwAbort
  | other
deriving DecidableEq, Repr

/-- The row of an OBJ_WRITE. -/
def ObjWrite.kind (w : ObjWrite) : WriteKind :=
  let first := w.data.getD 0 0
  let op := if w.offset == 0 then fld first 35 32 else 0
  match w.region with
  | 0x03 => .record
  | 0x05 => .membership
  | 0x06 => if w.offset == 0 && bitOf first 35 then .billReq else .other
  | 0x09 => .metrology
  | 0x0A => if op == 1 then .cfgCheck else if op == 2 then .cfgInstall else if op == 3 then .cfgClear else .other
  | 0x0B => if op == 1 then .fwApply else if op == 2 then .fwClear else if op == 3 then .fwAbort else .other
  | _ => .other

end Sys2Proof

namespace Sys2Proof.Machine

/-! Object results (R352). -/

def orOk : Nat := 0
def orBusy : Nat := 1
def orBadAddr : Nat := 2
def orBadArg : Nat := 3
def orTooLong : Nat := 4
def orUnassigned : Nat := 5
def orDenied : Nat := 9

/-- Offsets of region 0x0B's staging words end here, and of region 0x0A's (R442, R448). -/
def cfgStageEnd : Nat := 932082
def fwStageEnd : Nat := 6304013

/-- An offset is defined in its region (R350), for the regions that are not the mirror's. Slots run over the whole field on both
variants (R3). -/
def offsetOk (region off : Nat) : Bool :=
  match region with
  | 0x00 => decide (off < 16)
  | 0x03 => decide (off < 32 * 2 ^ 21)
  | 0x04 => decide (off < 16 * 2 ^ 21)
  | 0x05 => decide (off < 2 ^ 21)
  | 0x06 => off == 0 || (decide (0x1000 ≤ off) && decide ((off - 0x1000) / 2048 < 24) && decide ((off - 0x1000) % 2048 < 1268))
  | 0x07 => decide (off < 512)
  | 0x08 => decide (off ≤ 4194303)
  | 0x09 => decide (off < 4) || (decide (0x10 ≤ off) && decide (off < 0x40))
  | 0x0A => decide (off < cfgStageEnd)
  | 0x0B => decide (off < fwStageEnd)
  | _ => false

/-- The regions an OBJ_WRITE may name (R350). -/
def regionWrites (r : Nat) : Bool := [0x03, 0x05, 0x06, 0x08, 0x09, 0x0A, 0x0B].contains r

/-- What refuses a whole OBJ_WRITE before its first word (R351–R353, R443). -/
def Dev.writeRefusal (d : Dev) (w : ObjWrite) : Option Nat :=
  if w.count == 0 then some orBadArg
  else if 4096 < w.count then some orTooLong
  else if w.data.length != w.count then some orBadArg
  else if 0x0C ≤ w.region || (d.boot.recovery != 0 && !([0x00, 0x0A, 0x0B].contains w.region)) then some orBadAddr
  else if !regionWrites w.region then some orDenied
  else if !(List.range w.count).all fun i => offsetOk w.region (w.offset + i) then some orBadAddr
  else none

/-- What a write has come to: RESULT, words applied, CSN of its last commit, memories and device. -/
structure Written where
  res     : Nat
  applied : Nat
  csn     : Nat
  st      : Stores
  dev     : Dev

/-- Words of a write are applied in ascending address; the first that is refused ends it (R353). `f` says what one word does:
RESULT, CSN of a commit or 0, memories and device. -/
def writeWords (f : Nat → Word → Stores → Dev → Nat × Nat × Stores × Dev) (off : Nat) (a : Written) : List Word → Written
  | [] => a
  | x :: r =>
    let q := f off x a.st a.dev
    if q.1 != 0 then { a with res := q.1, st := q.2.2.1, dev := q.2.2.2 }
    else writeWords f (off + 1) ⟨0, a.applied + 1, if q.2.1 == 0 then a.csn else q.2.1, q.2.2.1, q.2.2.2⟩ r

/-- An OBJ_WRITE (R353, R354, R359): after mains loss it is discarded, a repeat is answered as before, and any other is
answered with what `f` makes of it. One whose COUNT exceeds its data is counted too (R22), as BAD_SEG (DESIGN CHOICE,
notes/assumptions/68.md). -/
def objWrite (w : ObjWrite) (st : Stores) (d : Dev) (f : Written → Written) : Stores × Dev :=
  if d.pw.hu.isSome then (st, d.count fHoldupDrop)
  else match d.keptAnswer w.req with
    | some a => (st, d.send 0 a.1 w.ref a.2)
    | none =>
      match d.writeRefusal w with
      | some res =>
        let d1 := (d.writeResp w res 0 0).onlyIf (res == orBusy) fun x => x.count fBusySent
        (st, d1.onlyIf (w.data.length < w.count) fun x => x.count fBadSeg)
      | none =>
        let r := f ⟨0, 0, 0, st, d⟩
        (r.st, (r.dev.writeResp w r.res r.applied r.csn).onlyIf (r.res == orBusy) fun x => x.count fBusySent)

/-- A command that is an OBJ_WRITE of row `k`; one that belongs to another row does nothing here. -/
def runWrite (t : Nat) (w : ObjWrite) (k : WriteKind) (s : State) (f : Written → Written) : Result :=
  runS t s fun st d => if w.kind == k then objWrite w st d f else (st, d)

end Sys2Proof.Machine
end

