-- ==== Sys2Proof/Machine/CfgExec.lean ====
section
/-!
DEFINITION. Judging, choosing and installing configuration copies, and object region 0x0A (spec 17, R438–R442; 19, R481,
R482).
-/

namespace Sys2Proof.Machine

/-! A copy as words, by their index from H0 (R438). -/

def cpW (m : Memory) (i : Nat) : Word := Memory.read m i
def cpSeq (m : Memory) : Nat := (cpW m 1).toNat
def cpVer (m : Memory) : Nat := fld (cpW m 4) 19 12

/-- The CRC of a copy over the octets of every double word from the one holding H4 (R438). -/
def cpCrc (m : Memory) : Nat :=
  crc32c ((List.range ((cfgLength - 4) / 2)).flatMap fun i => octetsBE (joinW (cpW m (4 + 2 * i)) (cpW m (5 + 2 * i))) 9)

/-- The BLOCK_ID of the first directory entry that is not as R439 lists it. -/
def cpDirBad (m : Memory) : Option Nat :=
  if fld (cpW m 0) 27 20 != 24 then some 0
  else ((List.range 24).find? fun n =>
      let b := cfgBlocks.getD n (0, 0, 0)
      let w0 := cpW m (8 + 2 * n)
      !(fld w0 35 28 == b.1 && fld w0 27 8 == b.2.1 && fld (cpW m (9 + 2 * n)) 35 16 == b.2.2)).map
    fun n => fld (cpW m (8 + 2 * n)) 35 28

/-! Enrolment (R482). -/

/-- The device is ENROLLED (R482). -/
def Dev.isEnrolled (d : Dev) : Bool := d.idn.recs.any fun r => !r.revoked

/-- ENR_HASH of the copy `d` holds as its configuration (R482). CFG_KEY_X with its parity is X, then an octet holding the parity:
DESIGN CHOICE, notes/assumptions/65.md. -/
def Dev.enrHash (d : Dev) : Nat :=
  sha384 (octetsBE (fld (d.idW 0) 21 18) 1 ++ octetsBE (d.idW 1).toNat 5 ++ octetsBE (d.idNum 4) 48
    ++ octetsBE (b2n (bitOf (d.idW 0) 23)) 1 ++ octetsBE (d.idNum 16) 48 ++ d.custody.1.take 32)

/-- CK and TK of the copy brought into force are the device's (R481, R482). -/
def Dev.takeSecrets (d : Dev) : Dev :=
  let os := d.custody.1
  { d with idn := { d.idn with ck := some (ofBE (os.take 32)), tk := some (ofBE ((os.drop 32).take 16)) } }

/-- The copy's ENR_HASH suits the enrolment records (R482). -/
def Dev.enrOk (d : Dev) : Bool :=
  match d.idn.recs.find? fun r => !r.revoked with
  | some r => r.hash == d.enrHash
  | none => decide (d.idn.recs.length < 16) && d.idn.recs.all fun r => r.hash != d.enrHash

/-- The lowest unused record takes the copy's ENR_HASH where the device is UNENROLLED (R482). -/
def Dev.enrolWith (d : Dev) : Dev :=
  if d.isEnrolled then d else { d with idn := { d.idn with recs := d.idn.recs ++ [⟨d.enrHash, false⟩] } }

/-! Judging a copy (R440, R442). -/

/-- Words of a copy that its signature covers: from H0 to the last block word (R438). -/
def cfgSigned : Nat := (cfgBlocks.map fun b => b.2.2).sum + 56

/-- The copy's signature verifies under the CFG_KEY in its own IDENTITY block (R438, R481). -/
def Dev.cfgSigOk (d : Dev) (m : Memory) : Bool :=
  p384.verify ({ d with cfg := m } : Dev).cfgKey (sha384 (wordsOctets (Memory.readAll m 0 cfgSigned)))
    (ofWords32 (Memory.readAll m (cfgSigned + 1) 12)) (ofWords32 (Memory.readAll m (cfgSigned + 13) 12))

/-- The first finding against a copy, as REASON, BAD_BLOCK and BAD_WORD of R442. -/
def Dev.cfgFinding (d0 : Dev) (m : Memory) : Option (Nat × Nat × Nat) :=
  let d := { d0 with cfg := m }
  if fld (cpW m 0) 35 28 != 1 then some (1, 0, 0)
  else if cpSeq m == 0 then some (7, 0, 0)
  else if fld (cpW m 2) 35 16 != cfgLength then some (2, 0, 0)
  else if fld (cpW m 3) 35 4 != cpCrc m then some (3, 0, 0)
  else if !d.cfgSigOk m then some (4, 0, 0)
  else if fld (cpW m 4) 35 20 != d.variant.part then some (5, 0, 0)
  else if cpVer m != 1 || cpVer m < d.boot.cfgMin || d.boot.cfgMax < cpVer m then some (6, 0, 0)
  else match cpDirBad m with
    | some b => some (8, b, 0)
    | none =>
      match d.cfgBad with
      | some x => some (9, x.1, min x.2 131071)
      | none =>
        if (d.sto.fixed.any fun f => f != d.cfgFixed) || !d.enrOk then some (10, 0, 0) else none

/-- The two copies are judged and the one with the higher SEQ comes into force, copy A where they are equal (R440); SEQ_A and
SEQ_B read 0 for an invalid one. -/
def Dev.cfgChoose (d : Dev) (a b : Memory) : Dev :=
  let okA := (d.cfgFinding a).isNone
  let okB := (d.cfgFinding b).isNone
  let useB := okB && (!okA || decide (cpSeq a < cpSeq b))
  { d with
    cfg := if useB then b else if okA then a else []
    boot := { d.boot with
      cfgOn := okA || okB, copyB := useB, seqA := if okA then cpSeq a else 0, seqB := if okB then cpSeq b else 0 } }

/-! Object region 0x0A (R442). -/

/-- A copy is being judged or written. -/
def Dev.cfgBusy (d : Dev) : Bool := d.boot.cStage == 1 || d.boot.cStage == 2

/-- The service card is reading an object of a kind (1 firmware, 2 configuration) into its staging region (R525, R527). -/
def Dev.cardReads (d : Dev) (kind : Nat) : Bool :=
  d.loc.card.st == 3 && !d.loc.card.done && (d.loc.card.hdr.any fun h => h.kind == kind)

def Dev.cfgStage (d : Dev) (stage : Nat) (f : Nat × Nat × Nat) : Dev :=
  { d with boot := { d.boot with cStage := stage, cWhy := f.1, cBlock := f.2.1, cWord := f.2.2, cAt := d.clk } }

/-- INSTALL goes to the copy that is not in force; with none in force, to copy A. -/
def Dev.installsB (d : Dev) : Bool := d.boot.cfgOn && !d.boot.copyB

/-- SEQ of the copy in force, 0 with none. -/
def Dev.seqInForce (d : Dev) : Nat := if d.boot.cfgOn then d.cfgSeq else 0

/-- The copy region `b`, and its SEQ as the status shows it. -/
def Stores.setNor (st : Stores) (b : Bool) (m : Memory) : Stores := if b then { st with norB := m } else { st with norA := m }
def Dev.setSeq (d : Dev) (b : Bool) (n : Nat) : Dev :=
  if b then { d with boot := { d.boot with seqB := n } } else { d with boot := { d.boot with seqA := n } }

/-- INSTALL of a copy judged without finding: the other region is erased, and writing begins (R441). -/
def cfgInstall (st : Stores) (d : Dev) : Stores × Dev :=
  let b := d.installsB
  (st.setNor b [], (d.setSeq b 0).cfgStage 2 (0, 0, 0))

/-- What a word written to region 0x0A does (R442). -/
def cfgWord (off : Nat) (x : Word) (st : Stores) (d : Dev) : Nat × Nat × Stores × Dev :=
  let op := fld x 35 32
  if off == 0 then
    if op == 0 then (orOk, 0, st, d)
    else if 4 ≤ op then (orBadArg, 0, st, d)
    else if (d.cfgBusy || d.cardReads 2) then (orBusy, 0, st, d)
    else if op == 3 then (orOk, 0, { st with cfgStage := [] }, d)
    else match d.cfgFinding st.cfgStage with
      | some f => (orOk, 0, st, d.cfgStage 4 f)
      | none =>
        if op == 1 then (orOk, 0, st, d.cfgStage 3 (0, 0, 0))
        else if cpSeq st.cfgStage ≤ d.seqInForce then (orOk, 0, st, d.cfgStage 4 (7, 0, 0))
        else (orOk, 0, cfgInstall st d)
  else if off < 16 then (orDenied, 0, st, d)
  else if (d.cfgBusy || d.cardReads 2) then (orBusy, 0, st, d)
  else (orOk, 0, { st with cfgStage := Memory.write st.cfgStage (off - 16) x }, d)

/-- CONFIG_CHECK (R442). -/
def execConfigCheck (t : Nat) (w : ObjWrite) (s : State) : Result :=
  runWrite t w .cfgCheck s fun a => writeWords cfgWord w.offset a w.data

/-- CONFIG_INSTALL (R441, R442). -/
def execConfigInstall (t : Nat) (w : ObjWrite) (s : State) : Result :=
  runWrite t w .cfgInstall s fun a => writeWords cfgWord w.offset a w.data

/-- CONFIG_CLEAR (R442). -/
def execConfigClear (t : Nat) (w : ObjWrite) (s : State) : Result :=
  runWrite t w .cfgClear s fun a => writeWords cfgWord w.offset a w.data

end Sys2Proof.Machine
end

