-- ==== Sys2Proof/Machine/FwExec.lean ====
section
/-!
DEFINITION. Boot records, update packages, the slots' state machine, and object region 0x0B (spec 17, R437, R446–R450, R453,
R454; 19, R480).
-/

namespace Sys2Proof.Machine

/-! Slot states (R449). -/

def slotEmpty : Nat := 0
def slotWriting : Nat := 1
def slotWritten : Nat := 2
def slotVerified : Nat := 3
def slotTrial : Nat := 4
def slotActive : Nat := 5
def slotPrevious : Nat := 6
def slotFailed : Nat := 7

/-- State, version and state format of slot B or A in a boot record. -/
def BootRec.slot (r : BootRec) (b : Bool) : Nat := if b then r.stB else r.stA
def BootRec.setSlot (r : BootRec) (b : Bool) (st : Nat) : BootRec := if b then { r with stB := st } else { r with stA := st }
def BootRec.setVer (r : BootRec) (b : Bool) (ver sv : Nat) : BootRec :=
  if b then { r with verB := ver, svB := sv } else { r with verA := ver, svA := sv }
def BootRec.stateVer (r : BootRec) (b : Bool) : Nat := if b then r.svB else r.svA

/-- A slot becomes FAILED for a REASON (R450). -/
def BootRec.failSlot (r : BootRec) (b : Bool) (why : Nat) : BootRec := { r.setSlot b slotFailed with fail := why }

/-- The slot in a state, if one is. -/
def BootRec.inState (r : BootRec) (st : Nat) : Option Bool :=
  if r.stA == st then some false else if r.stB == st then some true else none

/-- Words B0 to B5 of a boot record (R437). -/
def BootRec.heads (r : BootRec) : List Word :=
  [pk [(1, 35, 28)], W r.bseq,
    pk [(b2n r.actB, 35, 35), (r.stA, 34, 32), (r.stB, 31, 29), (b2n r.started, 28, 28), (b2n r.legB, 27, 27), (b2n r.ruV, 26, 26),
      (r.fail, 25, 18)],
    W r.verA, W r.verB, pk [(r.svA, 35, 28), (r.svB, 27, 20), (r.svData, 19, 12)]]

/-- Octets of words held as double words of 9 octets, the high word first (R436). -/
def dwOctets : List Word → List Octet
  | h :: l :: r => octetsBE (joinW h l) 9 ++ dwOctets r
  | _ => []

/-- The CRC word of a boot record, over the octets of its first 48 words (R437). -/
def bootCrc (ws : List Word) : Nat := crc32c (dwOctets (ws.take 48))

/-- The 50 words of a boot record (R437). -/
def BootRec.words (r : BootRec) : List Word :=
  let ws := r.heads ++ (List.range 42).map fun i => r.ru.getD i 0
  ws ++ [pk [(bootCrc ws, 35, 4)], 0]

/-- The record that a copy in the NOR holds, none where its CRC fails (R437). -/
def BootRec.ofWords (ws : List Word) : Option BootRec :=
  let w (i : Nat) : Word := ws.getD i 0
  if ws.length == 50 && fld (w 48) 35 4 == bootCrc ws then
    some { bseq := (w 1).toNat, actB := bitOf (w 2) 35, stA := fld (w 2) 34 32, stB := fld (w 2) 31 29, started := bitOf (w 2) 28,
           legB := bitOf (w 2) 27, ruV := bitOf (w 2) 26, fail := fld (w 2) 25 18, verA := (w 3).toNat, verB := (w 4).toNat,
           svA := fld (w 5) 35 28, svB := fld (w 5) 27 20, svData := fld (w 5) 19 12, ru := (ws.drop 6).take 42 }
  else none

/-- A change of the boot record: a new record with the next BSEQ, written to the copy that does not hold the record in force (R437). -/
def Dev.bootTo (d : Dev) (f : BootRec → BootRec) : Dev :=
  let r := { f d.boot.br with bseq := d.boot.br.bseq + 1 }
  { d with boot := { d.boot with
      br := r, copyR := !d.boot.copyR
      rec0 := if d.boot.copyR then r.words else d.boot.rec0, rec1 := if d.boot.copyR then d.boot.rec1 else r.words } }

/-- The boot ROM takes the copy whose CRC passes and whose BSEQ is higher (R437). With neither, no slot can be started: the record is
one of empty slots. -/
def Dev.selectBoot (d : Dev) : Dev :=
  let to' (b : Bool) (r : BootRec) : Dev := { d with boot := { d.boot with br := r, copyR := b } }
  match BootRec.ofWords d.boot.rec0, BootRec.ofWords d.boot.rec1 with
  | some r0, some r1 => if r0.bseq < r1.bseq then to' true r1 else to' false r0
  | some r0, none => to' false r0
  | none, some r1 => to' true r1
  | none, none => to' false BootRec.reset

/-! The images. -/

def Stores.slot (st : Stores) (b : Bool) : Image := if b then st.slotB else st.slotA
def Stores.setSlot (st : Stores) (b : Bool) (m : Image) : Stores := if b then { st with slotB := m } else { st with slotA := m }
def Stores.legal (st : Stores) (b : Bool) : Image := if b then st.legB else st.legA
def Stores.setLegal (st : Stores) (b : Bool) (m : Image) : Stores := if b then { st with legB := m } else { st with legA := m }

/-- The running image; the boot ROM's recovery program stands in no slot (R443). -/
def Dev.running (d : Dev) (st : Stores) : Image := if d.boot.recovery == 5 then [] else st.slot d.boot.br.actB

/-- LEGAL_CHECK of the legal image not in force, 0 while it is invalid (R448). -/
def Dev.legalOther (d : Dev) (st : Stores) : Nat :=
  let b := !d.boot.br.legB
  if (if b then d.boot.legBok else d.boot.legAok) then (st.legal b).check else 0

/-! Packages (R447), as words by their index from P0. -/

def pgW (m : Memory) (i : Nat) : Word := Memory.read m i
def pgLegal (m : Memory) : Bool := fld (pgW m 0) 27 26 == 1
def pgBlocks (m : Memory) : Nat := fld (pgW m 3) 35 23
def pgOctets (m : Memory) : Nat := (pgW m 4).toNat

/-- Output blocks that the op records give, from block `n` at word `a` on, each with its BLK_CRC, and the word after the last;
none where an op is not one, a SRC lies beyond the running image or a LITERAL's words are not its octets. -/
def pgBuild (m : Memory) (img : Image) (n a : Nat) : Nat → Option (List (List Octet × Nat) × Nat)
  | 0 => some ([], a)
  | left + 1 =>
    let size := min 4096 (pgOctets m - n * 4096)
    let w := pgW m a
    let lit := Memory.readAll m (a + 2) (cdiv size 4)
    let src := (NMap.look img (fld w 33 21) []).take size
    let out : Option (List Octet × Nat) :=
      match fld w 35 34 with
      | 0 => if src.length == size then some (src, a + 2) else none
      | 1 => if marksOk lit && (unpackOctets lit).length == size then some (unpackOctets lit, a + 2 + cdiv size 4) else none
      | 2 => some (List.replicate size (BitVec.ofNat 8 (fld w 20 13)), a + 2)
      | _ => none
    match out with
    | none => none
    | some (os, b) => (pgBuild m img (n + 1) b left).map fun r => ((os, fld (pgW m (a + 1)) 35 4) :: r.1, r.2)

/-- What a package builds from the running image, where its words are as its ops say: no word is staged beyond them, and they
fit the staging area. -/
def pgOutput (m : Memory) (img : Image) : Option (List (List Octet × Nat)) :=
  match pgBuild m img 0 13 (pgBlocks m) with
  | none => none
  | some (bs, e) => if e ≤ fwStageEnd - 256 && m.all fun p => decide (p.1 < e) then some bs else none

/-- NBLK and OCTETS are within their limits (R447). -/
def pgSizeOk (m : Memory) : Bool :=
  let n := pgBlocks m
  decide (1 ≤ n) && decide (n ≤ if pgLegal m then 256 else 6144) && decide ((n - 1) * 4096 < pgOctets m)
    && decide (pgOctets m ≤ n * 4096)

/-- The first finding against a staged package at APPLY, as a REASON (R447, R448). -/
def Dev.pgFinding (d : Dev) (m : Memory) (img : Image) : Option Nat :=
  if (d.boot.br.inState slotTrial).isSome then some 12
  else if fld (pgW m 0) 35 28 != 1 || 2 ≤ fld (pgW m 0) 27 26 then some 1
  else if (pgW m 1).toNat != if pgLegal m then 0 else d.boot.fwVer then some 2
  else if ofWords32 ((List.range 8).map fun i => pgW m (5 + i)) != if pgLegal m then 0 else sha256 img.all then some 3
  else if !pgSizeOk m || (pgOutput m img).isNone then some 4
  else none

/-! Object region 0x0B (R448). -/

/-- A build or its verification runs. -/
def Dev.fwBusy (d : Dev) : Bool := d.boot.fStage == 1 || d.boot.fStage == 2 || d.boot.fStage == 3

def Dev.fwStage (d : Dev) (stage why blocks : Nat) : Dev :=
  { d with boot := { d.boot with fStage := stage, fWhy := why, fBlocks := blocks } }

/-- Which image of its kind a package builds: the one that is not in force (R447, R448). -/
def Dev.buildsB (d : Dev) (m : Memory) : Bool := if pgLegal m then !d.boot.br.legB else !d.boot.br.actB

/-- Whether a legal image is valid. -/
def Dev.setLegalOk (d : Dev) (b ok : Bool) : Dev :=
  if b then { d with boot := { d.boot with legBok := ok } } else { d with boot := { d.boot with legAok := ok } }

/-- An APPLY that passes its checks: the region's old image goes, and for firmware the slot is WRITING (R449). -/
def fwApply (st : Stores) (d : Dev) : Stores × Dev :=
  let m := st.fwStage
  let b := d.buildsB m
  if pgLegal m then (st.setLegal b [], (d.setLegalOk b false).fwStage 2 0 0)
  else (st.setSlot b [], (d.bootTo fun r => (r.setSlot b slotWriting).setVer b (pgW m 2).toNat 0).fwStage 2 0 0)

/-- A build or verification fails for a REASON; a firmware slot becomes FAILED (R449, R450). -/
def Dev.fwFail (d : Dev) (m : Memory) (why blocks : Nat) : Dev :=
  let d1 := d.fwStage 5 why blocks
  if pgLegal m then d1 else d1.bootTo fun r => r.failSlot (d.buildsB m) why

/-- What a word written to region 0x0B does (R448). -/
def fwWord (off : Nat) (x : Word) (st : Stores) (d : Dev) : Nat × Nat × Stores × Dev :=
  let op := fld x 35 32
  if off == 0 then
    if op == 0 then (orOk, 0, st, d)
    else if 4 ≤ op then (orBadArg, 0, st, d)
    else if op == 3 then (orOk, 0, st, if d.boot.fStage == 2 then d.fwFail st.fwStage 11 d.boot.fBlocks else d)
    else if d.fwBusy || d.cardReads 1 then (orBusy, 0, st, d)
    else if op == 2 then (orOk, 0, { st with fwStage := [] }, d)
    else match d.pgFinding st.fwStage (d.running st) with
      | some why => (orOk, 0, st, d.fwStage 5 why 0)
      | none => (orOk, 0, fwApply st d)
  else if off < 256 then (orDenied, 0, st, d)
  else if d.fwBusy || d.cardReads 1 then (orBusy, 0, st, d)
  else (orOk, 0, { st with fwStage := Memory.write st.fwStage (off - 256) x }, d)

/-- FW_APPLY (R447–R449). -/
def execFwApply (t : Nat) (w : ObjWrite) (s : State) : Result :=
  runWrite t w .fwApply s fun a => writeWords fwWord w.offset a w.data

/-- FW_CLEAR (R448). -/
def execFwClear (t : Nat) (w : ObjWrite) (s : State) : Result :=
  runWrite t w .fwClear s fun a => writeWords fwWord w.offset a w.data

/-- FW_ABORT (R448, R449): a build is stopped and its slot fails; a slot that has reached WRITTEN has no ABORT. -/
def execFwAbort (t : Nat) (w : ObjWrite) (s : State) : Result :=
  runWrite t w .fwAbort s fun a => writeWords fwWord w.offset a w.data

/-- The first output block whose octets, as read back from the NOR, differ from its BLK_CRC: by what it was built of, or where
the NOR gave back something else. -/
def firstBad (bs : List (List Octet × Nat)) (bad : Option Nat) : Option Nat :=
  (List.range bs.length).find? fun n => bad == some n || crc32c (bs.getD n ([], 0)).1 != (bs.getD n ([], 0)).2

/-- An image of blocks. -/
def imageOf (bs : List (List Octet × Nat)) : Image := (List.range bs.length).map fun n => (n, (bs.getD n ([], 0)).1)

/-- FW_BUILD_DONE (R447, R449): the build ends, at its last block, at the first that fails its CRC, or at block `nor`, which the
NOR could not erase or program. -/
def execFwBuildDone (t : Nat) (bad nor : Option Nat) (s : State) : Result := runS t s fun st d =>
  if d.boot.fStage != 2 then (st, d)
  else
    let m := st.fwStage
    let b := d.buildsB m
    let bs := (pgOutput m (d.running st)).getD []
    let crc := firstBad bs bad
    let norFirst := nor.isSome && crc.all fun k => nor.all fun n => decide (n ≤ k)
    match if norFirst then nor else crc with
    | some k => (st, d.fwFail m (if norFirst then 6 else 5) k)
    | none =>
      let img := imageOf bs
      if pgLegal m then (st.setLegal b img, d.fwStage 3 0 bs.length)
      else (st.setSlot b img, (d.bootTo fun r => (r.setSlot b slotWritten).setVer b img.ver img.stateVer).fwStage 3 0 bs.length)

/-- The first finding against a firmware image, as a REASON (R446, R447, R480). -/
def Dev.fwFinding (d : Dev) (m : Image) : Option Nat :=
  if !(m.num 0 2 == 1 && decide (4096 ≤ m.len) && decide (m.len ≤ 25165824) && m.all.length == m.len && m.ver != 0
      && d.skovanOk m m.len) then some 7
  else if !(m.part == 0 || m.part == d.variant.part) then some 8
  else if d.boot.cfgOn && (cpVer d.cfg < m.cfgMin || m.cfgMax < cpVer d.cfg) then some 9
  else none

/-- The check of a WRITTEN slot ends (R449); `toVer` is the FW_VER it should have. -/
def Dev.fwVerified (d : Dev) (b : Bool) (m : Image) (toVer : Nat) : Dev :=
  match d.fwFinding m with
  | some why => (d.bootTo fun r => r.failSlot b why).fwStage 5 why d.boot.fBlocks
  | none =>
    if m.ver != toVer then (d.bootTo fun r => r.failSlot b 7).fwStage 5 7 d.boot.fBlocks
    else (d.bootTo fun r => r.setSlot b slotVerified).fwStage 4 0 d.boot.fBlocks

/-- FW_VERIFY_DONE (R447, R449, R454, R480): the crypto clusters have checked the Skovan signature and, of a legal image, the
operator's. -/
def execFwVerifyDone (t : Nat) (s : State) : Result := runS t s fun st d =>
  if d.boot.fStage != 3 then (st, d)
  else
    let m := st.fwStage
    let b := d.buildsB m
    if pgLegal m then
      let ok := d.legalOk (st.legal b)
      (st, (d.setLegalOk b ok).fwStage (if ok then 4 else 5) (if ok then 0 else 7) d.boot.fBlocks)
    else (st, d.fwVerified b (st.slot b) (pgW m 2).toNat)

end Sys2Proof.Machine
end

