-- ==== Sys2Proof/Machine/Recorder.lean ====
section
/-!
DEFINITION. The event recorder: intake, TEXT, the areas of the store and LOG lines (spec 15, R403–R414; 21, R518).
-/

namespace Sys2Proof.Machine

/-- A string of ASCII characters as octets. -/
def ascii (s : String) : List Octet := s.toList.map fun c => BitVec.ofNat 8 c.toNat

/-- The decimal digits of a number, at most `fuel` of them. -/
def digitsOf (n : Nat) : Nat → List Octet
  | 0 => []
  | fuel + 1 => (if n < 10 then [] else digitsOf (n / 10) fuel) ++ [BitVec.ofNat 8 (48 + n % 10)]

/-- A number in decimal, without leading zeros. -/
def decimal (n : Nat) : List Octet := digitsOf n 24

/-- A number in decimal in a field of `w` places. -/
def padded (w n : Nat) : List Octet := (List.range w).map fun i => BitVec.ofNat 8 (48 + n / 10 ^ (w - 1 - i) % 10)

/-- TIME in TEXT (R406). -/
def Dev.timeText (d : Dev) (time : Nat) : List Octet :=
  if time == 0 then ascii "0000-00-00 00:00:00"
  else
    let n := d.stdTime (time / 2 ^ 36)
    let x := dateOf (n / 86400)
    let r := n % 86400
    padded 4 x.year ++ ascii "-" ++ padded 2 x.month ++ ascii "-" ++ padded 2 x.day ++ ascii " " ++ padded 2 (r / 3600)
      ++ ascii ":" ++ padded 2 (r / 60 % 60) ++ ascii ":" ++ padded 2 (r % 60)

/-- The arguments in TEXT, from argument `i` on, each after a space (R406). -/
def argsText (code : Nat) (i : Nat) : List Nat → List Octet
  | [] => []
  | [a] => ascii " " ++ decimal a
  | a :: b :: r =>
    if (evDoubles code).contains i then ascii " " ++ decimal a ++ ascii ":" ++ decimal b ++ argsText code (i + 2) r
    else ascii " " ++ decimal a ++ argsText code (i + 1) (b :: r)

/-- TEXT of a record, at most 64 octets (R406). -/
def Dev.recText (d : Dev) (r : EvRec) : List Octet :=
  (d.timeText r.time ++ (if r.prov then ascii "?" else []) ++ ascii " " ++ ascii (evName r.code)
    ++ (match r.slot with | some n => ascii " s" ++ decimal n | none => []) ++ argsText r.code 0 r.args).take 64

/-- The 32 words of a record (R406). -/
def EvRec.words (r : EvRec) : List Word :=
  let h := r.head
  let text := packOctets r.text
  h.take 2 ++ dw r.time ++ dw r.csn ++ h.drop 2 ++ (r.args.map W ++ List.replicate (7 - r.args.length) 0)
    ++ (text ++ List.replicate (16 - text.length) 0)

/-- EVENT_INTAKE (R404): what stands in the event input is taken in. -/
def execEventIntake (t : Nat) (s : State) : Result := run t s Dev.drainEvents

/-- The records the store still holds with NEWEST `q` (R410). -/
def Dev.recKept (d : Dev) (q i : Nat) : Bool :=
  decide (q < i + d.recN) || (!d.recOverwrite && decide (i ≤ d.recN))

/-- OLDEST_SEQ (R410). -/
def Dev.oldestSeq (d : Dev) : Nat :=
  let q := d.evr.newest
  if !d.recOverwrite && decide (q ≤ 2 * d.recN) then 1 else max 1 (q + 1 - d.recN)

/-- Bits of a character on a UART, start and stop bits included (R516). -/
def Dev.uartBits (d : Dev) (u : Nat) : Nat :=
  10 + b2n (fld (d.uartW u) 30 29 != 0) + b2n (bitOf (d.uartW u) 28)

def Dev.uartBaud (d : Dev) (u : Nat) : Nat :=
  [9600, 19200, 38400, 57600, 115200, 230400, 460800, 921600].getD (fld (d.uartW u) 34 31) 9600

/-- The time `n` bits take on a UART. -/
def Dev.uartBit (d : Dev) (u n : Nat) : Nat := cdiv (n * 2 ^ 36) (d.uartBaud u)

/-- The time `n` characters take, with a bit time of UART_DE before and after (R516). -/
def Dev.uartTime (d : Dev) (u n : Nat) : Nat := cdiv ((n * d.uartBits u + 2) * 2 ^ 36) (d.uartBaud u)

/-- UART `u` serves LOG, its pins in use (R515, R516). -/
def Dev.logs (d : Dev) (u : Nat) : Bool := d.pinsRun && d.domOn 55 && bitOf (d.uartW u) 35 && bitOf (d.uartW u) 27

/-- A record's line joins a LOG UART's queue; of more than 1,024 that wait the oldest is dropped (R518). -/
def Dev.logLine (d : Dev) (u : Nat) (r : EvRec) : Dev :=
  if !d.logs u then d
  else
    let line := r.text ++ [0x0D, 0x0A]
    let x := d.uart u
    let l := x.lines ++ [(line, d.uartTime u line.length, d.clk)]
    if l.length ≤ 1024 then (d.setUart u { x with lines := l }).sendLines u l.length
    else (d.setUart u { x with lines := l.drop 1 }).count (fLogSkip u)

/-- LOG output of every UART that serves it begins, with the newest record (R518). -/
def Dev.logBegin (d : Dev) : Dev :=
  match NMap.find d.evr.fmt d.evr.newest with
  | some r => (List.range 4).foldl (fun x u => x.logLine u r) d
  | none => d

/-- The oldest raw record is formatted: TEXT is written, and the record stands in the store area and the windows
(R405, R410). -/
def Dev.formatOne (d : Dev) : Dev :=
  match d.evr.raw with
  | [] => d
  | r0 :: rest =>
    let r := { r0 with text := d.recText r0 }
    let fmt := NMap.keep (NMap.put d.evr.fmt r.seq r) fun i _ => d.recKept r.seq i
    let e := { d.evr with raw := rest, fmt := fmt, newest := r.seq, forced := d.evr.forced && decide (1024 ≤ rest.length) }
    let d1 := (({ d with evr := e }).count fRecords).storeItem 5 r.seq r.words
    (List.range 4).foldl (fun x u => x.logLine u r) d1

/-- Every raw record is formatted (R405, R426, R445). -/
def Dev.formatAll (d : Dev) : Dev := d.evr.raw.foldl (fun x _ => x.formatOne) d

/-- EVENT_FORMAT (R405): the service cores format the next record; under shedding step 4 they wait, unless formatting is
forced. Until HOLDUP_OK records are held raw (R433). -/
def execEventFormat (t : Nat) (s : State) : Result := run t s fun d =>
  if (decide (4 ≤ d.up.shed) && !d.evr.forced) || !d.domOn 3 || !d.pw.heldOk then d
  else d.formatOne

end Sys2Proof.Machine
end

