-- ==== Sys2Proof/Machine/Time.lean ====
section
/-!
DEFINITION. The timebase: servo, states, uncertainty, PTP ports and the RTC model (spec 11, R305–R327).
-/

namespace Sys2Proof.Machine

/-! The timebase counters (R329). -/

def fTsqOvf (p : Nat) : Fld := if p == 0 then ⟨0x0466, 35, 18⟩ else ⟨0x0466, 17, 0⟩
def fTsqExpired : Fld := ⟨0x0467, 35, 18⟩
def fOutliers : Fld := ⟨0x0467, 17, 0⟩
def fSteps : Fld := ⟨0x0468, 35, 18⟩
def fStepAbort : Fld := ⟨0x0468, 17, 0⟩
def fUtcMismatch : Fld := ⟨0x0469, 35, 18⟩

def Dev.setTb (d : Dev) (b : Timebase) : Dev := { d with tb := b }

/-- The running count of device time, whether or not it is set. -/
def Dev.rawTime (d : Dev) : Int := (d.clk : Int) + d.tb.off

/-- It in ns. -/
def Dev.rawNs (d : Dev) : Int := (d.rawTime * 1000000000).fdiv (2 ^ 36)

/-- A time in ns as units of 2⁻³⁶ s. -/
def nsT (n : Int) : Int := (n * 2 ^ 36).fdiv 1000000000

/-- The PTP epoch offset (R310). -/
def ptpEpochS : Nat := 946684800

/-- A sync interval on the running axis (LOG_SYNC, R328). -/
def Dev.syncT (d : Dev) : Nat := 2 ^ 36 / 2 ^ d.logSync

/-! States and uncertainty (R307, R314). -/

def tbUnset : Nat := 0
def tbAcquire : Nat := 1
def tbLocked : Nat := 2
def tbHoldover : Nat := 3
def tbFreerun : Nat := 4
def tbStepWait : Nat := 5

/-- Growth of UNC in 0.1 µs per second by state; STEP_WAIT runs as HOLDOVER does (R307, R314). -/
def uncRate (st : Nat) : Nat := if st == tbHoldover || st == tbStepWait then 1 else if st == tbFreerun then 200 else 0

/-- UNC in 0.1 µs now, saturating at 2³⁶ − 1 µs. -/
def Dev.unc10 (d : Dev) : Nat :=
  min ((2 ^ 36 - 1) * 10) (d.tb.unc + uncRate d.tb.st * (d.clk - d.tb.uncAt) / 2 ^ 36)

/-- UNC in µs (R314), and as the 18-bit fields show it. -/
def Dev.uncUs (d : Dev) : Nat := d.unc10 / 10
def Dev.uncField (d : Dev) : Nat := min 262143 d.uncUs

/-- The timebase enters a state: UNC is brought up to date, LOCKED learns the frequency, FREERUN runs on nominal. -/
def Dev.tbTo (d : Dev) (st : Nat) : Dev :=
  let b := d.tb
  d.setTb { b with
    unc := if st == tbLocked then 0 else d.unc10
    uncAt := d.clk, st := st
    lockN := if st == b.st then b.lockN else 0
    unlockN := if st == b.st then b.unlockN else 0
    learned := b.learned || st == tbLocked
    freq := if st == tbFreerun then 0 else b.freq }

/-- The offset histories are cleared (R312). -/
def Dev.tbClear (d : Dev) : Dev :=
  d.setTb { d.tb with hist := [], disc := [], far := [], lockN := 0, unlockN := 0, backN := 0 }

/-! Ports (R309). -/

def PtpPort.init : PtpPort := ⟨3, none, [], none, none, 0, 0, 0⟩

/-- PTP runs on a port: never on a standby (R458). -/
def Dev.ptpRuns (d : Dev) (p : Nat) : Bool := d.ptpEn p && d.pair.st != 1

def Dev.port (d : Dev) (p : Nat) : PtpPort := NMap.look d.tb.ports p PtpPort.init

def Dev.setPort (d : Dev) (p : Nat) (x : PtpPort) : Dev := d.setTb { d.tb with ports := NMap.put d.tb.ports p x }

/-- The port in SLAVE. -/
def Dev.slave (d : Dev) : Option Nat := [0, 1].find? fun p => (d.port p).st == 9

/-- The device's own data set (R309): clockClass 248, its clock identity, PRIO1 and PRIO2. Its clockAccuracy and variance
are the standard's for an unknown clock. PRESUMED, notes/assumptions/13.md. -/
def Dev.ownSet (d : Dev) : Foreign :=
  ⟨Config.clockId, d.ptpPrio1, 248, 0xFE, 0xFFFF, d.ptpPrio2, 0, Config.clockId, 0⟩

/-- Lexicographic order. -/
def lexLt : List Nat → List Nat → Bool
  | a :: r, b :: s => decide (a < b) || (a == b && lexLt r s)
  | _, _ => false

/-- The state decision of the default algorithm (R309). -/
def Dev.bmca (d : Dev) : Dev :=
  let best (p : Nat) : Option Foreign := (d.port p).best
  let cands := [0, 1].filterMap fun p => if d.ptpRuns p then (best p).map fun f => (p, f) else none
  let eb := bestBy (fun (a b : Nat × Foreign) => lexLt (a.2.rank a.1) (b.2.rank b.1)) cands
  let state (p : Nat) : Nat :=
    if !d.ptpRuns p then 3
    else match eb with
      | none => if (d.port p).st == 4 || (d.port p).st == 3 then 4 else 6
      | some (q, f) =>
        if lexLt (d.ownSet.rank 9) (f.rank q) then 6
        else if p == q then 9
        else match best p with
          | some g => if f.byPath g then 7 else 6
          | none => 6
  let was := d.slave
  let d1 := [0, 1].foldl (fun x p => x.setPort p { x.port p with st := state p }) d
  let gm := match d1.slave with | some p => ((best p).map Foreign.gm).getD 0 | none => Config.clockId
  let steps := match d1.slave with | some p => ((best p).map fun f => f.steps + 1).getD 0 | none => 0
  let d2 := d1.setTb { d1.tb with gm := gm, removed := steps }
  let d3 := if d1.slave != was || gm != d.tb.gm then d2.tbClear else d2
  let d4 := if d1.slave != was && d3.tb.st == tbStepWait then d3.setTb { d3.tb with pend := none } else d3
  if d1.slave.isNone && (d4.tb.st == tbAcquire || d4.tb.st == tbLocked) then
    d4.tbTo (if d4.tb.learned then tbHoldover else tbFreerun)
  else d4

/-- The median of a list: of an even number, the lower of the two in the middle (R309, R312). DESIGN CHOICE,
notes/assumptions/13.md. -/
def median (l : List Int) : Int :=
  let below (x : Int) : Nat := (l.filter fun y => decide (y ≤ x)).length
  ((bestBy (fun (a b : Int) => decide (a < b)) (l.filter fun x => decide (l.length ≤ 2 * below x))).getD 0)

/-- Mean path delay of a port in ns (R309). -/
def Dev.pathNs (d : Dev) (p : Nat) : Int := median (d.port p).delays - d.asymNs p

/-! Servo (R312, R313). -/

/-- A phase correction over the next sync interval within SLEW_MAX_PPM, and the frequency's share (R305, R312, R313). -/
def Dev.servo (d : Dev) (o : Int) : Dev :=
  let cap : Int := ((d.slewPpm * d.syncT / 1000000 : Nat) : Int)
  let corr := max (-cap) (min cap (-(Int.tdiv (nsT o) (2 ^ d.kpShift))))
  let df := -(Int.tdiv (o * 1000 * 2 ^ d.logSync) (2 ^ d.kiShift))
  let f := max (-200000000) (min 200000000 (d.tb.freq + df))
  d.setTb { d.tb with servo := corr, left := d.syncT, freq := f }

/-- A correction is slewed at SLEW_MAX_PPM (R313). -/
def Dev.slewBy (d : Dev) (c : Int) : Dev := d.setTb { d.tb with debt := d.tb.debt + c }

/-- The first tick edge after the present device time (R315). -/
def Dev.nextTick (d : Dev) : Nat := cdiv ((d.now * 100 / 2 ^ 36 + 1) * 2 ^ 36) 100

/-- A step is decided and waits for its tick edge (R315). -/
def Dev.decideStep (d : Dev) (corr : Int) (cause : Nat) (req : Option (Nat × Nat)) : Dev :=
  d.setTb { d.tb with step := some ⟨d.nextTick, corr, cause, req⟩, far := [] }

/-- Offsets agree within `w` ns. -/
def agreeing (w : Int) (l : List Int) : Bool :=
  l.all fun a => l.all fun b => decide (a - b ≤ w)

/-- STEP_WAIT is entered with an offset pending, and its event raised (R317). -/
def Dev.stepWait (d : Dev) (o : Int) : Dev :=
  let v := toTwos 72 (nsT o)
  ((d.tbTo tbStepWait).setTb { (d.tbTo tbStepWait).tb with pend := some o, far := [], backN := 0 }).raise 0x071
    [v / 2 ^ 36, v % 2 ^ 36]

/-- An offset beyond 1 s outside STEP_WAIT (R316, R317): eight in a row of one sign that agree within 1 ms decide. -/
def Dev.farOffset (d : Dev) (o : Int) : Dev :=
  let fits (l : List (Int × Nat)) : Bool :=
    agreeing 1000000 (o :: l.map (·.1)) && l.all fun p => decide (0 < p.1) == decide (0 < o)
  let far := (if fits d.tb.far then d.tb.far else []) ++ [(o, d.clk)]
  let d1 := d.setTb { d.tb with far := far }
  let span := d.clk - (far.headD (0, d.clk)).2
  if far.length < 8 then d1
  else if 0 < o then d1.stepWait o
  else if span < secT 8 then d1
  else if d.fwdAuto then d1.decideStep (-(nsT o)) 0 none
  else d1.stepWait o

/-- An offset in STEP_WAIT (R307, R317, R320). -/
def Dev.waitOffset (d : Dev) (o : Int) : Dev :=
  if 1000000000 < o.natAbs then
    match d.tb.pend with
    | some _ => d.setTb { d.tb with pend := some o, backN := 0 }
    | none =>
      let far := (if agreeing 1000000 (o :: d.tb.far.map (·.1)) then d.tb.far else []) ++ [(o, d.clk)]
      if far.length < 8 then d.setTb { d.tb with far := far, backN := 0 } else d.stepWait o
  else if 7 ≤ d.tb.backN then
    ((d.setTb { d.tb with pend := none, far := [] }).tbTo tbAcquire).servo o
  else d.setTb { d.tb with backN := d.tb.backN + 1, far := [] }

/-- An accepted offset that is no outlier (R307, R312–R317). -/
def Dev.acceptOffset (d0 : Dev) (o : Int) : Dev :=
  let d1 := d0.setTb { d0.tb with lastOff := o, hist := (o :: d0.tb.hist).take 8, lastAcc := d0.clk, disc := [] }
  let d2 := if d1.tb.st == tbHoldover || d1.tb.st == tbFreerun then d1.tbTo tbAcquire else d1
  if d2.tb.st == tbStepWait then d2.waitOffset o
  else
    let near := decide (o.natAbs ≤ d2.lockNs)
    let beyond := decide (d2.unlockNs < o.natAbs)
    let d3 := if d2.tb.st == tbAcquire then
        (if !near then d2.setTb { d2.tb with lockN := 0 }
        else if 15 ≤ d2.tb.lockN then d2.tbTo tbLocked else d2.setTb { d2.tb with lockN := d2.tb.lockN + 1 })
      else if d2.tb.st == tbLocked then
        (if !beyond then d2.setTb { d2.tb with unlockN := 0 }
        else if 3 ≤ d2.tb.unlockN then d2.tbTo tbAcquire else d2.setTb { d2.tb with unlockN := d2.tb.unlockN + 1 })
      else d2
    if 1000000000 < o.natAbs then d3.farOffset o else (d3.setTb { d3.tb with far := [] }).servo o

/-- The outlier filter of LOCKED (R312). -/
def Dev.filterOffset (d : Dev) (o : Int) : Dev :=
  if d.tb.st == tbLocked && !d.tb.hist.isEmpty && decide (4 * d.lockNs < (o - median d.tb.hist).natAbs) then
    let disc := d.tb.disc ++ [o]
    let d1 := (d.count fOutliers).setTb { (d.count fOutliers).tb with disc := disc }
    let last := disc.drop (disc.length - 4)
    if last.length == 4 && agreeing (4 * d.lockNs : Nat) last then
      last.foldl Dev.acceptOffset (d1.setTb { d1.tb with hist := [], disc := [] })
    else d1
  else d.acceptOffset o

/-- SYNC_TIMEOUT (R307): 16 sync intervals without an accepted offset. -/
def execSyncTimeout (t : Nat) (s : State) : Result := run t s fun d =>
  if (d.tb.st == tbAcquire || d.tb.st == tbLocked) && decide (16 * d.syncT ≤ d.clk - d.tb.lastAcc) && !d.pw.hu.isSome then
    d.tbTo (if d.tb.learned then tbHoldover else tbFreerun)
  else d

/-! Messages (R308–R311). -/

/-- A PTP message is taken on a port: PTP enabled, and of the configured domain. -/
def Dev.ptpTakes (d : Dev) (p dom : Nat) : Bool := decide (p < 2) && d.ptpRuns p && dom == d.ptpDomain

/-- ANNOUNCE (R309, R322): the sender is taken as the port's best master where it is the same or better, and the BMCA
decides. -/
def execAnnounce (t p dom : Nat) (f : Foreign) (utc : Option Nat) (leap : Option Bool) (s : State) : Result := run t s fun d =>
  if !d.ptpTakes p dom then d
  else
    let x := d.port p
    let take := match x.best with
      | some g => (g.sender == f.sender && g.sport == f.sport) || lexLt (f.rank p) (g.rank p)
      | none => true
    let d1 := if take then (d.setPort p { x with best := some f }).bmca else d
    if d1.slave != some p || !take then d1
    else
      let d2 := match leap with | some n => d1.setTb { d1.tb with leap := some n } | none => d1
      match utc with
      | some u =>
        if u == d2.tb.taiUtc then d2
        else
          let d3 := d2.count fUtcMismatch
          if d3.tb.utcBad == some u then d3 else (d3.setTb { d3.tb with utcBad := some u }).raise 0x072 [u, d3.tb.taiUtc]
      | none => d2

/-- ANNOUNCE_RECEIPT_TIMEOUT (R309): the port's master is lost. -/
def execAnnounceReceiptTimeout (t p : Nat) (s : State) : Result := run t s fun d =>
  if d.ptpTakes p d.ptpDomain then (d.setPort p { d.port p with best := none, sync := none, req := none }).bmca else d

/-- SYNC (R308, R309): the arrival is stamped; `t1` is the origin time in PTP ns, corrections included, of a one-step
Sync. -/
def execSync (t p dom seq : Nat) (t1 : Option Int) (s : State) : Result := run t s fun d =>
  if d.ptpTakes p dom && (d.port p).st == 9 then
    d.setPort p { d.port p with sync := some (seq, t1, d.rawNs) }
  else d

/-- FOLLOW_UP (R308): the origin time of a two-step Sync. -/
def execFollowUp (t p dom seq : Nat) (t1 : Int) (s : State) : Result := run t s fun d =>
  let x := d.port p
  match x.sync with
  | some (n, none, at') => if d.ptpTakes p dom && n == seq then d.setPort p { x with sync := some (n, some t1, at') } else d
  | _ => d

/-- A stamp enters a port's transmit stamp queue of 16; one that finds it full is discarded (R311). -/
def Dev.stamp (d : Dev) (p : Nat) : Nat × Dev :=
  let id := d.tb.tsId
  let d1 := d.setTb { d.tb with tsId := (id + 1) % 4096 }
  if 16 ≤ (d.tb.tsq.filter fun x => x.port == p).length then (id, d1.count (fTsqOvf p))
  else (id, d1.setTb { d1.tb with tsq := d1.tb.tsq ++ [⟨p, id, d.rawNs, d.clk⟩] })

/-- A consumer reads a stamp by its identifier, which removes it (R311). -/
def Dev.takeStamp (d : Dev) (p id : Nat) : Option Int × Dev :=
  (((d.tb.tsq.find? fun x => x.port == p && x.id == id).map Stamp.ns),
    d.setTb { d.tb with tsq := d.tb.tsq.filter fun x => !(x.port == p && x.id == id) })

/-- TSQ_EXPIRED (R311): an entry unread for 1 s. -/
def execTsqExpired (t p id : Nat) (s : State) : Result := run t s fun d =>
  if d.tb.tsq.any fun x => x.port == p && x.id == id && d.passedMs x.since 1000 then
    (d.takeStamp p id).2.count fTsqExpired
  else d

/-- PTP_DELAY_REQ (R309, R311): the port in SLAVE sends a Delay_Req, and its stamp is asked for. -/
def execPtpDelayReq (t p : Nat) (s : State) : Result := run t s fun d =>
  if d.ptpTakes p d.ptpDomain && (d.port p).st == 9 then
    let x := d.port p
    let r := d.stamp p
    (r.2.setPort p { x with req := some (x.rseq * 4096 + r.1), rseq := (x.rseq + 1) % 65536 }).emit (.delayReq p x.rseq)
  else d

/-- A PTP time: seconds, nanoseconds and the remainder in 2⁻¹⁶ ns of the present device time (R310). -/
def Dev.ptpNow (d : Dev) : Nat × Nat × Nat :=
  let n := d.now % 2 ^ 36 * 1000000000
  (d.now / 2 ^ 36 + ptpEpochS, n / 2 ^ 36, n % 2 ^ 36 * 65536 / 2 ^ 36)

/-- SYNC_SEND (R310): a one-step Sync from a MASTER port, written for the instant it leaves. -/
def execSyncSend (t p : Nat) (s : State) : Result := run t s fun d =>
  if d.ptpTakes p d.ptpDomain && (d.port p).st == 6 && d.tb.set then
    let x := d.port p
    let n := d.ptpNow
    (d.setPort p { x with sseq := (x.sseq + 1) % 65536 }).emit (.sync p x.sseq n.1 n.2.1 n.2.2)
  else d

/-- PTP_DELAY_REQ_RECEIVED (R308): a MASTER port answers with the instant of arrival. -/
def execPtpDelayReqReceived (t p dom seq sender sport : Nat) (s : State) : Result := run t s fun d =>
  if d.ptpTakes p dom && (d.port p).st == 6 && d.tb.set then
    let n := d.ptpNow
    d.emit (.delayResp p seq n.1 n.2.1 n.2.2 sender sport)
  else d

/-- ANNOUNCE_SEND (R309): a MASTER port announces the grandmaster followed, or with no port in SLAVE the device. -/
def execAnnounceSend (t p : Nat) (s : State) : Result := run t s fun d =>
  if d.ptpTakes p d.ptpDomain && (d.port p).st == 6 then
    let x := d.port p
    let f := match d.slave.bind fun q => (d.port q).best with
      | some g => { g with steps := g.steps + 1, sender := Config.clockId, sport := p + 1 }
      | none => { d.ownSet with sport := p + 1 }
    (d.setPort p { x with aseq := (x.aseq + 1) % 65536 }).emit (.announce p x.aseq f d.tb.taiUtc d.tb.leap)
  else d

/-! Civil time and the RTC (R322, R327). -/

/-- The second of the UTC day by the TAI_UTC_S in force (R322). -/
def Dev.utcSecond (d : Dev) : Nat := (d.nowS + 86400 - d.tb.taiUtc % 86400) % 86400

/-- LEAP_SECOND (R322): at the end of the UTC day, which is where its 86,400th second has passed, or its 86,399th where one is
deleted (DESIGN CHOICE, notes/assumptions/15.md). A demand interval it falls in stays full (R287). -/
def execLeapSecond (t : Nat) (s : State) : Result := run t s fun d =>
  match d.tb.leap with
  | some neg =>
    if !d.tb.set || d.utcSecond != (if neg then 86399 else 0) then d
    else
      let x := d.leg.st
      (d.setTb { d.tb with leap := none, taiUtc := if neg then d.tb.taiUtc - 1 else d.tb.taiUtc + 1 }).setLeg
        { x with leapIn := x.leapIn + (if neg then -1 else 1) }
  | none => d

/-- The correction the model gives at a temperature, in ppb (R327). -/
def Timebase.model (b : Timebase) (temp : Int) : Int := b.f0 + Int.tdiv (b.k * (temp - b.t0) * (temp - b.t0)) 10

/-- A least-squares parabola through points (x, y) as numerators of its coefficients, constant first, over one
denominator. -/
def parabola (ps : List (Int × Int)) : Int × Int × Int × Int :=
  let sum (f : Int × Int → Int) : Int := (ps.map f).foldl (· + ·) 0
  let s (n : Nat) : Int := sum fun p => p.1 ^ n
  let t (n : Nat) : Int := sum fun p => p.1 ^ n * p.2
  let det (a b c d e f g h i : Int) : Int := a * (e * i - f * h) - b * (d * i - f * g) + c * (d * h - e * g)
  (det (t 0) (s 1) (s 2) (t 1) (s 2) (s 3) (t 2) (s 3) (s 4), det (s 0) (t 0) (s 2) (s 1) (t 1) (s 3) (s 2) (t 2) (s 4),
    det (s 0) (s 1) (t 0) (s 1) (s 2) (t 1) (s 2) (s 3) (t 2), det (s 0) (s 1) (s 2) (s 1) (s 2) (s 3) (s 2) (s 3) (s 4))

/-- A quotient of integers rounded convergently. -/
def roundDiv (n m : Int) : Int := if 0 < m then roundHE n m.natAbs else if m < 0 then roundHE (-n) m.natAbs else 0

/-- The model after a measurement (R327): fitted once three bins that spread over 10 °C hold data; until then T0 is 25 °C,
K −34 ppb/°C², and F0 the mean of the data. The fields hold it rounded. DESIGN CHOICE, notes/assumptions/14.md. -/
def Timebase.refit (b : Timebase) : Timebase :=
  let ps := b.bins.map fun p => (((p.1 : Int) - 73), roundHE p.2.1 p.2.2)
  let xs := ps.map (·.1)
  let spread := xs.foldl max (-200) - xs.foldl min 200
  let q := parabola ps
  if 3 ≤ ps.length && decide (10 ≤ spread) && q.2.2.2 != 0 && q.2.2.1 != 0 then
    { b with
      k := roundDiv q.2.2.1 (q.2.2.2 * 100)
      t0 := roundDiv (-q.2.1) (2 * q.2.2.1)
      f0 := roundDiv (4 * q.1 * q.2.2.1 - q.2.1 * q.2.1) (4 * q.2.2.2 * q.2.2.1 * 1000)
      fit := true }
  else
    let n := (b.bins.map fun p => p.2.2).sum
    { b with k := -340, t0 := 25, f0 := roundHE ((b.bins.map fun p => p.2.1).foldl (· + ·) 0) (n * 1000), fit := false }

/-- RTC_MEASURE (R327): while LOCKED, the RTC's error in ppt and the temperature join their 1 °C bin. -/
def execRtcMeasure (t : Nat) (err temp : Int) (s : State) : Result := run t s fun d =>
  if d.tb.st != tbLocked then d
  else
    let i := (temp + 73).toNat
    let x := NMap.look d.tb.bins i (0, 0)
    d.setTb ({ d.tb with bins := NMap.put d.tb.bins i (x.1 + err, x.2 + 1) }.refit)

/-- OUTAGE_RTC_UPDATE (R327): in outage, `raw` of RTC time since the last reading is corrected for the temperature; UNC
grows by 1 µs or 20 µs a second. -/
def execOutageRtcUpdate (t raw : Nat) (temp : Int) (s : State) : Result := run t s fun d =>
  match d.tb.rtc with
  | some n =>
    let add : Int := (raw : Int) - ((raw : Int) * d.tb.model temp).fdiv 1000000000
    d.setTb { d.tb with
      rtc := some (n + add.toNat)
      rtcUnc := d.tb.rtcUnc + (if d.tb.fit then 10 else 200) * raw / 2 ^ 36 }
  | none => d

/-- The timebase status words that are H fields (R329), by word. -/
def Dev.timeWords (d : Dev) : List Word :=
  let b := d.tb
  let off := max (-(2 ^ 35 - 1)) (min (2 ^ 35 - 1) b.lastOff)
  let path := match d.slave with | some p => (min 262143 (d.pathNs p)).toNat | none => 0
  [pk [(b.st, 35, 33), (b2n b.prov, 32, 32), (b2n d.slave.isSome, 31, 31), (d.slave.getD 0, 30, 30), ((d.port 0).st, 29, 26),
      ((d.port 1).st, 25, 22), (b.removed, 21, 14)],
    intW off, intW b.freq, pk [(path, 35, 18), (d.uncField, 17, 0)], pk [(b.gm / 2 ^ 32, 35, 4)], pk [(b.gm, 35, 4)], 0, 0, 0, 0]
  ++ dw b.lastStep
  ++ [pk [(toTwos 16 b.f0, 35, 20), (toTwos 8 b.t0, 19, 12), (toTwos 12 b.k, 11, 0)],
    pk [(b.bins.length, 35, 28), (b2n b.fit, 27, 27)]]

end Sys2Proof.Machine
end

