-- ==== Sys2Proof/Machine/Stop.lean ====
section
/-!
DEFINITION. What every stop has in common: field work broken off, the store closed, supplies removed with what then
survives, and recovery mode entered while the device runs (spec 16, R426–R433; 17, R443; 22, R533–R534).
-/

namespace Sys2Proof.Machine

/-- A powerline lane gives up whatever it has, a frame in HOLD too (R426). -/
def Dev.plAbort (d : Dev) (s : Nat) : Dev := if (d.plLane s).st == .off then d else (d.plOff s).setPlLane s PlLane.init

/-- Field work is broken off (R426 step 2, R428, R445 step 1): grants stop, lanes and powerline lanes abort every frame not yet
written to a queue and acknowledge nothing, and the job tables and the downlink jobs queue are emptied. -/
def Dev.haltField (d : Dev) : Dev :=
  let d1 := d.air.lanes.foldl (fun x p => x.freeLane p.1) d
  let d2 := ((List.range 32).foldl (fun x s => x.plAbort s) d1).endTx fun x => x.phase != .gain
  ({ d2 with
    air := { d2.air with
      jobs := [], mail := [], horn := [], dwell := NMap.mapAll d2.air.dwell fun _ w => { w with resv := [] } }
    pl := { d2.pl with jobs := [], reasm := [], segs := [], grps := [] }
    fr := { d2.fr with pend := [], grps := [] } } : Dev).clearGroup 3

/-- Every item of the store writes queue enters the staging buffer, the buffer is programmed, and the open stripe is closed
(R391); a FAILED store takes no writes (R387). -/
def Dev.flushStore (d : Dev) : Dev :=
  if d.sto.st == 3 || d.sto.st == 0 then d
  else
    let d1 := d.drainStore (d.items 6).length
    (d1.programAll (d1.sto.staged.length + wordsOf d1.sto.staged + 16)).closeStripes

/-- The holdup marker is written (R391): last CSN and highest BNO archived, last PSEQ. Recovery leaves the marker as it was. -/
def Dev.writeTail (d : Dev) : Dev :=
  if d.sto.st == 3 || d.sto.st == 0 || d.boot.recovery != 0 then d
  else
    let whole := d.led.openB.isNone && d.led.signQ.isEmpty
    let bno := if whole then d.bnoSealed else (d.sto.arch.getLast?.map (·.1)).getD 0
    let csn := if whole then d.lastCsn else ((NMap.find d.led.blocks bno).map Block.last).getD 0
    let pseq := d.sto.pseq
    let d1 := (d.programPage 9 [⟨9, pseq, dw csn ++ [W bno] ++ dw pseq⟩]).getD d
    d1.setSto { d1.sto with tail := some ⟨csn, bno, pseq⟩ }

/-- STARTED is cleared before a clean stop (R452). -/
def Dev.clearStarted (d : Dev) : Dev :=
  if d.boot.br.started then d.bootTo fun r => { r with started := false } else d

/-- What PD1 holds of the ledger is brought up to date (R393, R467): whether the device is PRIMARY, and its last CSN. A device
that has not yet left STARTING leaves both as they were. -/
def Dev.keepLedger (d : Dev) : Dev :=
  if d.boot.phase < 3 || d.boot.recovery != 0 || d.pair.st == 0 then d
  else if d.pair.st == 1 then { d with pw := { d.pw with wasPrim := false } }
  else { d with pw := { d.pw with wasPrim := d.pair.st == 3 || d.pair.st == 6, wasCsn := d.lastCsn } }

/-- The words of the bank AO pins, as PD0 holds them in an outage (R515). -/
def Dev.aoWords (d : Dev) : List Nat := (List.range 8).map fun p => (d.pinW p).toNat

/-- Every pin takes its outage function, and the bank AO assignments are written to PD0 (R515). -/
def Dev.pinsOut (d : Dev) : Dev :=
  if d.loc.pins == 2 then { d with loc := { d.loc with pins := 1, ao := d.aoWords } } else d

/-- The supplies are removed: what PD0, PD1, the NAND, the NOR and the fuses hold survives, and all else is as after reset
(R393, R407, R432, R486). The RTC goes on from device time (R327). Campaigns survive a stop that wrote the
marker (R231). -/
def Dev.powerOff (d0 : Dev) (phase : Nat) : Dev :=
  let d := d0.keepLedger
  let r := Dev.reset d.variant
  let b := d.tb
  { r with
    clk := d.clk, out := d.out, draws := d.draws
    tb := { Timebase.reset with
      bins := b.bins, f0 := b.f0, t0 := b.t0, k := b.k, fit := b.fit
      rtc := if b.set then some d.now else b.rtc, rtcUnc := if b.set then d.unc10 else b.rtcUnc }
    pw := { d.pw with doms := [], hu := none, low := none, offAt := some d.clk }
    led := { Ledger.reset with
      enrolled := d.led.enrolled
      blocks := NMap.keep d.led.blocks fun n _ => (NMap.find d.sto.arch n).isSome
      dir := { DirSet.empty with gen := d.led.dir.gen, log2 := d.led.dir.log2 } }
    cmd := if d.pw.clean then { Commands.reset with camps := d.cmd.camps } else Commands.reset
    leg := { LegalPart.reset with
      st := d.leg.kept.getD Legal.zero, copies := d.leg.copies, snaps := d.leg.snaps, check := d.leg.check, prev := d.leg.prev, ver := d.leg.ver }
    up := { Uplink.reset with gen := d.up.gen }
    sto := { d.sto with st := 0, copy := none, cur := none }
    evr := { d.evr with
      raw := [], forced := false, opFrom := none
      opT := d.evr.opT + (match d.evr.opFrom with | some t0 => d.clk - t0 | none => 0) }
    disp := { d.disp with st := 0, since := d.clk, tick := none, next := none, run := none, stop := false, left := none }
    loc := { Local.reset with
      pins := if d.loc.pins == 0 then 0 else 1, ao := d.loc.ao
      card := { d.loc.card with st := 0, since := d.clk, hdr := none, done := false, power := false } }
    idn := { d.idn with ck := none, tk := none, dk := none }
    pair := { Pair.reset with known := max d.pair.known d.pair.epoch }
    boot := { Boot.reset with
      br := d.boot.br, copyR := d.boot.copyR, rec0 := d.boot.rec0, rec1 := d.boot.rec1, phase := phase, since := d.clk
      arg2 := if d.boot.phase < 3 then d.boot.arg2
        else if d.boot.recovery != 0 then 2 else if d.pw.stage == 13 && d.pw.hu.isSome then 1 else 0 } }

/-- The domains that every start needs wake, and operating time counts (R407, R433). -/
def Dev.wakeStart (d : Dev) : Dev :=
  [2, 47, 48, 49, 3, 46, 55].foldl (fun (x : Dev) n => x.wakeFor n) { d with
    evr := { d.evr with opFrom := some d.clk }, pw := { d.pw with heldOk := d.aocHigh 1 } }

/-- A cold start at once, the supplies standing (R445, R467, R488): without a holdup sequence, unless the store has been
closed with its marker first. -/
def Dev.coldRestart (d : Dev) (clean : Bool) : Dev :=
  (({ d with pw := { d.pw with clean := clean } } : Dev).powerOff 2).wakeStart

/-- FENCED (R465–R467): a higher epoch is in force, so the device starts cold at once. -/
def Dev.fence (d : Dev) (epoch : Nat) : Dev :=
  ({ d with
    led := { d.led with accepts := false }
    pair := { d.pair with st := 5, since := d.clk, known := max (max d.pair.known epoch) (d.pair.epoch + 1) } } : Dev).coldRestart false

/-- A stop for which PD0 drives PWR_EN low at once and no holdup sequence runs, or one that runs ends where it stood (R433,
R434, R534, R536): LAST_CLEAN stays 0. With mains present the device waits to try again. -/
def Dev.faultStop (d : Dev) : Dev :=
  let d1 := if d.pw.hu.isSome then d else { d with pw := { d.pw with stage := 0, clean := false, cut := false, huMs := 0 } }
  (d1.emit (.pwrEn false)).powerOff (if d.aocHigh 0 then 5 else 0)

/-- The domains recovery mode runs (R418). -/
def recoveryDom (n : Nat) : Bool := n ≤ 3 || n == 7 || n == 44 || n == 45 || (47 ≤ n && n ≤ 49) || n == 55

/-- The recovery uplink as the settings in force (R443): with RU_V 0, none. -/
def Dev.recoveryUplink (d : Dev) : Dev :=
  let ws := if d.boot.br.ruV then d.boot.br.ru else []
  { d with cfg := Memory.writeAll d.cfg blkUplink ((List.range 42).map fun i => ws.getD i 0) }

/-- Recovery mode is entered for a cause (R418, R443): the RECOVERY event, the domains recovery has, the recovery uplink, no
lease and no ledger. -/
def Dev.recover (d0 : Dev) (cause : Nat) : Dev :=
  let d := d0.keepLedger
  let d1 := ({ d with
    boot := { d.boot with recovery := cause, phase := 3 }
    pair := { d.pair with st := 0, since := d.clk }
    led := { d.led with accepts := false }
    up := { d.up with sess := [], lease := none } } : Dev).haltField.metroStop.dispStop.recoveryUplink
  let d2 := ((List.range 56).filter fun n => !recoveryDom n).foldl (fun x n => x.closeDom n 4) d1
  d2.raise 0x005 [cause]

end Sys2Proof.Machine
end

