-- ==== Sys2Proof/Machine/Power.lean ====
section
/-!
DEFINITION. Power domains coming and going, the comparators, and the supplies (spec 16, R417–R424, R432–R433; 22,
R532–R536).
-/

namespace Sys2Proof.Machine

/-! Domains (R419–R421). -/

/-- What a domain's unit does as it becomes ready: lanes stand IDLE, the field links of a quad look for block lock, powerline
lanes of streams that are up stand IDLE, metrology, the balance engine and LOG output start. -/
def Dev.domOpened (d : Dev) (n : Nat) : Dev :=
  if 17 ≤ n && n ≤ 32 then
    ((List.range 8).map (8 * (n - 17) + ·)).foldl (fun x l =>
      if (x.lane l).st == .off then x.setLane l { Lane.idle with since := x.clk } else x)
      ((List.range 32).foldl (fun x s => x.plRefresh s) d)
  else if 33 ≤ n && n ≤ 35 then (List.range 32).foldl (fun x s => x.plRefresh s) d
  else if 40 ≤ n && n ≤ 43 then
    ((List.range 4).map (4 * (n - 40) + ·)).foldl (fun x k =>
      if x.linkEn k && (x.link k).st == .off then x.setLink k { Link.down with st := .locking, since := x.clk } else x) d
  else if n == 51 then d.balStart
  else if n == 52 || n == 53 then d.metroStart
  else if n == 55 then d.logBegin
  else d

/-- A domain is ON; domains that waited for it are asked to wake again (R419). -/
def Dev.domReady (d : Dev) (n : Nat) : Dev :=
  let d1 := ((d.setDom n { d.dom n with st := 2, since := d.clk, fails := 0, want := false }).count fWakes).domOpened n
  (d1.pw.doms.filter fun p => p.2.st == 0 && p.2.want).foldl (fun x p => x.wakeFor p.1) d1

/-- The DEMAND domains whose work waits inside units of the device, in no queue the spec lays out: service cores 1 to 3 and the
crypto clusters. -/
def innerDemand (n : Nat) : Bool := 4 ≤ n && n ≤ 8

/-- DOMAIN_READY (R419): WAKING becomes ON. For a service core or crypto cluster that is OFF, or in a close that can be
cancelled, it says too that work waited for it (R420): DESIGN CHOICE, notes/assumptions/31.md. -/
def execDomainReady (t dom : Nat) (s : State) : Result := run t s fun d =>
  let x := d.dom dom
  if dom < 2 || d.variant.lacks dom then d
  else if x.st == 1 then d.domReady dom
  else if innerDemand dom && d.pw.hu.isNone && d.boot.phase == 3 then
    let d1 := d.wakeFor dom
    if (d1.dom dom).st == 1 then d1.domReady dom else d1
  else d

/-- WAKE_FAIL (R419): not ready within 4 × its wake latency; retried at once, and at the third in a row FAULT, which for a RUN
domain is recovery mode at once (R418, R443). -/
def execWakeFail (t dom : Nat) (s : State) : Result := run t s fun d =>
  let x := d.dom dom
  if x.st != 1 || !d.passedUs x.since (4 * domLatencyUs dom) then d
  else
    let d1 := d.count fWakeFail
    if x.fails < 2 then (d1.setDom dom { x with st := 0, since := d.clk, fails := x.fails + 1 }).wakeFor dom
    else
      let d2 := d1.setDom dom { x with st := 5, since := d.clk, fails := 3 }
      if domPolicy dom == .runs && d.boot.recovery == 0 then d2.recover 4 else d2

/-- Lanes of a cluster that are all IDLE, the last since LANE_IDLE_US (R420). -/
def Dev.clusterIdle (d : Dev) (n : Nat) : Bool :=
  ((List.range 8).map (8 * (n - 17) + ·)).all fun l => (d.lane l).st == .idle && d.passedUs (d.lane l).since d.laneIdleUs

/-- When the crypto clusters last ended a job: a signature, or a verification (R420). -/
def Dev.cryptoAt (d : Dev) : Nat := max d.led.signAt d.led.verAt

/-- A DEMAND domain may close for idleness (R420). -/
def Dev.mayIdle (d : Dev) (n : Nat) : Bool :=
  let x := d.dom n
  if x.st != 2 then false
  else if 4 ≤ n && n ≤ 6 then
    d.coreWork == 0 && d.passedMs x.since d.coreIdleMs && decide (d.coresMin < ((List.range 4).filter fun k => d.domOn (3 + k)).length)
  else if n == 7 then
    d.passedUs (max x.since d.cryptoAt) d.cryptoIdleUs && (d.dom 8).st == 0 && d.led.signQ.isEmpty && !(d.led.inVal.any fun p => p.2.stage == .verify)
  else if n == 8 then
    d.passedUs (max x.since d.cryptoAt) d.cryptoIdleUs && d.led.signQ.isEmpty && !(d.led.inVal.any fun p => p.2.stage == .verify)
  else if 18 ≤ n && n ≤ 32 then
    d.clusterIdle n && ((List.range 33).filter fun m => n < m).all fun m => (d.dom m).st == 0
  else if n == 54 then d.disp.st == 0 || d.disp.st == 6
  else false

/-- DOMAIN_IDLE (R419, R420): the idle time of a DEMAND domain has passed. -/
def execDomainIdle (t dom : Nat) (s : State) : Result := run t s fun d => if d.mayIdle dom then d.closeDom dom 0 else d

/-- A closing domain still holds work (R419): blocks to be signed, words in the staging buffer, an update on the display. -/
def Dev.domHolds (d : Dev) (n : Nat) : Bool :=
  if 18 ≤ n && n ≤ 32 then ((List.range 8).map (8 * (n - 17) + ·)).any fun l => !((d.lane l).st == .idle || (d.lane l).st == .off)
  else if n == 7 then (d.pw.hu.isSome || d.boot.restart.isSome) && !d.led.signQ.isEmpty
  else if n == 54 then !(d.disp.st == 0 || d.disp.st == 6)
  else false

/-- What ends with a domain's unit: lanes are OFF, links are OFF, streams are down, metrology and balance stop, sessions of a
port lapse. -/
def Dev.domClosed (d : Dev) (n : Nat) : Dev :=
  if 17 ≤ n && n ≤ 32 then
    ((List.range 8).map (8 * (n - 17) + ·)).foldl (fun x l => x.freeLane l) ((List.range 32).foldl (fun x s => x.plRefresh s) d)
  else if 33 ≤ n && n ≤ 35 then (List.range 32).foldl (fun x s => x.plRefresh s) d
  else if 40 ≤ n && n ≤ 43 then ((List.range 4).map (4 * (n - 40) + ·)).foldl (fun x k => x.linkOff k) d
  else if n == 44 then { d with up := { d.up with linkA := false, sess := NMap.del (NMap.del d.up.sess 0) 2 } }
  else if n == 45 then { d with up := { d.up with linkB := false, sess := NMap.del (NMap.del d.up.sess 1) 3 } }
  else if n == 51 then d.balStop
  else if n == 52 || n == 53 then d.metroStop
  else if n == 55 then
    { d with loc := { d.loc with card := { d.loc.card with st := 0, since := d.clk, hdr := none, done := false, power := false } } }
  else d

/-- CLOSE_DONE (R419): the work held is finished. -/
def execCloseDone (t dom : Nat) (s : State) : Result := run t s fun d =>
  let x := d.dom dom
  if x.st == 3 && !d.domHolds dom then (d.setDom dom { x with st := 4, since := d.clk }).domClosed dom else d

/-- SWITCH_DONE (R419, R420): 2 µs later the domain is OFF; work that came meanwhile wakes it. -/
def execSwitchDone (t dom : Nat) (s : State) : Result := run t s fun d =>
  let x := d.dom dom
  if x.st == 4 && d.passedUs x.since 2 then
    let d1 := d.setDom dom { x with st := 0, since := d.clk, want := false }
    if x.want && x.why == 0 then d1.wakeFor dom else d1
  else d

/-! Comparators (R423, R424). -/

def Dev.aoc (d : Dev) (n : Nat) : Aoc := NMap.look d.pw.aoc n ⟨false, false, 0⟩

def Dev.setAoc (d : Dev) (n : Nat) (x : Aoc) : Dev := { d with pw := { d.pw with aoc := NMap.put d.pw.aoc n x } }

/-- Outage length in seconds from step 13 to now (R434). -/
def Dev.outageS (d : Dev) : Nat :=
  match d.pw.offAt with | some t0 => min (2 ^ 36 - 1) ((d.clk - t0) / 2 ^ 36) | none => 0

/-- Mains is present: a device that is off drives PWR_EN (R433, R532). -/
def Dev.mainsUp (d : Dev) : Dev :=
  let d1 := { d with pw := { d.pw with low := none } }
  if d.boot.phase == 0 then
    (({ d1 with boot := { d.boot with phase := 1, since := d.clk }, pw := { d1.pw with outS := d.outageS } } : Dev)).emit (.pwrEn true)
  else d1

/-- What a tamper input's level means for its next assertion (R488): a new one acts only after 1 s deasserted. -/
def Dev.tamperSeen (d : Dev) (n : Nat) : Dev :=
  let a := NMap.look d.idn.acted n (false, none)
  let y := if d.tamperOn (n - 2) then (a.1 && !((a.2.map fun t0 => d.passedMs t0 1000).getD false), none)
    else (a.1, some (a.2.getD d.clk))
  { d with idn := { d.idn with acted := NMap.put d.idn.acted n y } }

/-- A channel takes a level, resolved (R424): AOC0 is mains, AOC2 to AOC7 tamper inputs. -/
def Dev.aocTo (d : Dev) (n : Nat) (high : Bool) : Dev :=
  let was := d.aoc n
  let d1 := d.setAoc n { was with res := true, high := high }
  if n == 0 then
    if high then d1.mainsUp
    else if was.res && !was.high then d1 else { d1 with pw := { d1.pw with low := some (d.clk, d.now) } }
  else if n == 1 then { d1 with pw := { d1.pw with heldOk := d1.pw.heldOk || high } }
  else d1.tamperSeen n

/-- COMPARATOR_CROSSING (R423, R424): channel 0 to 7 crosses VTH_H upward or VTH_L downward; channel 8 is the second level of
AO_HOLD. -/
def execComparatorCrossing (t chan : Nat) (up : Bool) (s : State) : Result := run t s fun d =>
  if chan < 8 then d.aocTo chan up
  else if chan == 8 then { d with pw := { d.pw with crit := !up } }
  else d

/-- BAND_FILTERED (R424): a channel that has stood in the band for 64 ms resolves by the majority of its 2,097 midpoint samples, `above` of
which stood above the midpoint. -/
def execBandFiltered (t chan above : Nat) (s : State) : Result := run t s fun d =>
  let x := d.aoc chan
  if chan < 8 && !x.res && d.passedMs x.since 64 then (d.aocTo chan (decide (2097 < 2 * above))).count fBandFiltered else d

/-! Supplies (R433, R532–R536). -/

/-- SUPPLIES_GOOD (R433, R513, R532): the domains that every start needs wake; at first power the pins are inputs. -/
def execSuppliesGood (t : Nat) (s : State) : Result := run t s fun d =>
  if d.boot.phase != 1 then d
  else ({ d with boot := { d.boot with phase := 2, since := d.clk } } : Dev).wakeStart

/-- SUPPLY_TIMEOUT (R532): not good within 100 ms of PWR_EN: low, and after 1 s high again while AOC0 reads present. -/
def execSupplyTimeout (t : Nat) (s : State) : Result := run t s fun d =>
  let to' (n : Nat) : Dev := { d with boot := { d.boot with phase := n, since := d.clk } }
  if d.boot.phase == 1 && d.passedMs d.boot.since 100 then (to' 5).emit (.pwrEn false)
  else if d.boot.phase == 5 && d.passedMs d.boot.since 1000 then
    if d.aocHigh 0 then (to' 1).emit (.pwrEn true) else to' 0
  else d

/-- The supplies stand: they were good, and PWR_EN has been high since. -/
def Dev.powered (d : Dev) : Bool := d.boot.phase == 2 || d.boot.phase == 3 || d.boot.phase == 4

/-- SUPPLY_FAULT (R534): a supply out of its range for more than 10 µs. -/
def execSupplyFault (t : Nat) (s : State) : Result := run t s fun d => if d.powered then d.faultStop else d

/-- THERMAL_TRIP (R535): acts as a supply fault. -/
def execThermalTrip (t : Nat) (s : State) : Result := run t s fun d => if d.powered then d.faultStop else d

/-- VBAK_LOW (R423, R432): VBAK is below 2.50 V, or above it again; in outage the holdup record keeps it. -/
def execVbakLow (t : Nat) (low : Bool) (s : State) : Result := run t s fun d =>
  { d with pw := { d.pw with vbak := low, vbakLow := d.pw.vbakLow || (low && d.boot.phase == 0) } }

/-- VBAK_LOSS (R327, R407, R424, R432): VBAK falls below 2.20 V with VCORE absent: PD0 and PD1 are lost, and every channel is
unresolved again from when PD0 is next supplied. -/
def execVbakLoss (t : Nat) (s : State) : Result := run t s fun d =>
  if d.boot.phase != 0 then d
  else
    let b := d.tb
    { d with
      tb := { Timebase.reset with beacons := b.beacons }
      boot := { d.boot with arg2 := 0 }
      pw := { Power.reset with aoc := (List.range 8).map fun n => (n, ⟨false, false, d.clk⟩), vbak := true }
      leg := { d.leg with st := Legal.zero, copies := [] }
      evr := { d.evr with opT := 0, cycles := 0, warms := 0 }
      loc := { Local.reset with pins := 0 }
      idn := { d.idn with armed := none, acted := [], latch := [] } }

end Sys2Proof.Machine
end

