-- ==== Sys2Proof/Machine/Holdup.lean ====
section
/-!
DEFINITION. The holdup sequence (spec 16, R425–R431; 12, R358–R359).
-/

namespace Sys2Proof.Machine

def Dev.setHu (d : Dev) (f : Holdup → Holdup) : Dev := { d with pw := { d.pw with hu := d.pw.hu.map f } }

/-- LAST_STAGE reaches `n` (R426, R434). -/
def Dev.huStage (d : Dev) (n : Nat) : Dev :=
  ({ d with pw := { d.pw with stage := max d.pw.stage n } } : Dev).setHu fun h => { h with stage := max h.stage n }

/-- LAST_GASP copy `n` on every UP session to the head end and to the peer (R358). -/
def Dev.sendGasp (d : Dev) (tL n : Nat) : Dev :=
  let body := [pk [(0, 35, 32), (n, 31, 30)]] ++ dw tL ++ dw d.lastCsn
    ++ [W d.bnoSealed, W d.pair.epoch, pk [(d.uncField, 35, 18)]]
  (d.send 0 0x4F 0 body).send 1 0x4F 0 body

/-- Loss is declared: steps 1 to 4 of the sequence (R425, R426). -/
def Dev.holdupStart (d : Dev) (c tL : Nat) : Dev :=
  let d1 := ({ d with pw := { d.pw with
      hu := some ⟨tL, c, 2, false, false, false⟩, lastTl := tL, low := none, stage := 2, clean := false, cut := false, huMs := 0 } }
    : Dev).count fMainsLosses
  let d2 := (d1.raiseNow 0x003 [tL / 2 ^ 36, tL % 2 ^ 36]).2.haltField
  let b := d2.tb
  let d3 := { d2 with
    tb := { b with servo := 0, left := 0, step := none }
    sto := { d2.sto with cur := none }
    boot := { d2.boot with restart := none } }
  let d4 := (([4, 5, 6, 51] ++ (List.range 35).map (9 + ·)).foldl (fun (x : Dev) n => x.closeDom n 2) d3).dispStop
  let d5 := { d4 with up := { d4.up with hbSeq := d4.up.hbSeq + 1, gasp := some (d4.up.hbSeq + 1, 0) } }
  (d5.sendGasp tL 0).huStage 4

/-- Mains lost before the supplies are good (R433): PWR_EN falls, and all stands as the last stop left it. -/
def Dev.startGivenUp (d : Dev) : Dev :=
  let d1 : Dev := { d with boot := { d.boot with phase := 0, since := d.clk }, pw := { d.pw with low := none } }
  if d.boot.phase == 1 then d1.emit (.pwrEn false) else d1

/-- MAINS_LOSS (R425, R433, R536): AOC0 has stayed below VTH_L for MAINS_FILT_US. Before the supplies are good, and before
HOLDUP_OK of a start whose ledger does not yet run, PWR_EN falls without a sequence. A restart under way is abandoned (R431). -/
def execMainsLoss (t : Nat) (s : State) : Result := run t s fun d =>
  match d.pw.low with
  | some (c, tL) =>
    if !d.passedUs c d.mainsFiltUs || d.pw.hu.isSome || d.boot.phase == 0 then d
    else if !d.powered then d.startGivenUp
    else if !d.aocHigh 1 && !d.led.accepts then d.faultStop
    else d.holdupStart c tL
  | none => d

/-- LAST_GASP_REPEAT (R358): copies 1 and 2, 100 ms and 200 ms after the first. -/
def execLastGaspRepeat (t : Nat) (s : State) : Result := run t s fun d =>
  match d.pw.hu, d.up.gasp with
  | some h, some (req, n) =>
    if n < 2 && d.domOn 3 && d.passedMs h.clkL (100 * (n + 1)) then
      (({ d with up := { d.up with gasp := some (req, n + 1) } } : Dev).sendGasp h.tL (n + 1)).huStage (if n == 1 then 7 else 0)
    else d
  | _, _ => d

/-- Boundaries that R296 reserves are committed, oldest first. -/
def Dev.dueBoundaries (d : Dev) : Nat → Dev
  | 0 => d
  | fuel + 1 => if d.boundaryPlan.isSome then Dev.dueBoundaries d.takeBoundary fuel else d

/-- Measurement ends: PD52 and PD53 close at the last tick completed, which the registers and PD1 hold (R296, R299, R426). -/
def Dev.huMetroEnd (d : Dev) : Dev :=
  let d1 := (d.dueBoundaries 64).metroStop
  (((d1.closeDom 52 2).closeDom 53 2).huStage 8).setHu fun h => { h with metro := true }

/-- E in ticks of 10 ms (R426): the first tick edge at or after t_L + HU_METRO_MS. -/
def Dev.huE (d : Dev) (h : Holdup) : Nat := cdiv (h.tL * 1000 + d.huMetroMs * 2 ^ 36) (10 * 2 ^ 36)

/-- HOLDUP_METRO_END (R426 step 8). -/
def execHoldupMetroEnd (t : Nat) (s : State) : Result := run t s fun d =>
  match d.pw.hu with
  | some h => if !h.metro && decide (d.huE h * 2 ^ 36 ≤ d.now * 100) then d.huMetroEnd else d
  | none => d

/-- Step 9 (R426–R428): validation stops, the commit input and the event input are drained, the final block is sealed with
SEAL 4, and raw event records are formatted. -/
def Dev.huSeal (d : Dev) : Dev :=
  let d1 := d.dueBoundaries 64
  let d2 := { d1 with led := { d1.led with inVal := NMap.keep d1.led.inVal fun _ v => v.stage == ValStage.queued, aside := [] } }
  let d3 := (d2.drainInput.drainEvents).seal 4
  (({ d3 with led := { d3.led with isSealed := true, inVal := [] } } : Dev).formatAll).huStage 9

/-- HOLDUP_SEAL (R426 step 9, R427): at S = E + 12 ms, never before every reserved boundary commit. -/
def execHoldupSeal (t : Nat) (s : State) : Result := run t s fun d =>
  match d.pw.hu with
  | some h =>
    if h.metro && decide (h.stage < 9) && decide (d.huE h * 1000 * 2 ^ 36 + 1200 * 2 ^ 36 ≤ d.now * 100000) then d.huSeal else d
  | none => d

/-- HOLD_CRIT (R430): the sequence is cut short: measurement ends at once, the final block is sealed, and the sequence goes on
from step 10. A stopping display drives no further frame (R501). -/
def execHoldCrit (t : Nat) (s : State) : Result := run t s fun d =>
  let d0 := { d with pw := { d.pw with crit := true } }
  match d.pw.hu with
  | some h =>
    if h.crit || 12 ≤ h.stage then d0
    else
      let d1 := ((({ d0 with pw := { d0.pw with cut := true } } : Dev).count fHoldCrit).setHu fun x => { x with crit := true }).dispCrit
      let d2 := if h.metro then d1 else d1.huMetroEnd
      if h.stage < 9 then d2.huSeal else d2
  | none => d0

/-- HOLDUP_STORE_DONE (R426 steps 10 to 12, R391, R452): the final block is signed and sent and HOLDUP_END is recorded; the
writes queue is in the staging buffer, the buffer is programmed, stripes are closed and the marker is written. -/
def execHoldupStoreDone (t : Nat) (s : State) : Result := run t s fun d =>
  match d.pw.hu with
  | some h =>
    if h.stage < 9 || 12 ≤ h.stage || !d.led.signQ.isEmpty then d
    else
      let c := d.lastCsn
      let d1 := ((d.raise 0x004 [c / 2 ^ 36, c % 2 ^ 36, d.bnoSealed]).drainEvents).formatAll
      let d2 := d1.flushStore.writeTail.clearStarted
      let ok := !(d2.sto.st == 3 || d2.sto.st == 0)
      let d3 := ({ d2 with pw := { d2.pw with clean := ok } } : Dev)
      let d4 := [7, 8, 44, 45, 46, 47, 48, 49].foldl (fun x n => ((x.setDom n Domain.off).domClosed n)) d3
      (d4.huStage 12).setHu fun x => { x with store := true }
  | none => d

/-- HOLDUP_END (R426 step 13, R431, R433, R515, R533): pins take their outage functions, the holdup record is written, PWR_EN
falls, and PD0 is alone; with mains present a cold start follows at once. -/
def execHoldupEnd (t : Nat) (s : State) : Result := run t s fun d =>
  match d.pw.hu with
  | some h =>
    if h.stage < 12 then d
    else
      let ms := min 4095 ((d.clk - h.clkL) * 1000 / 2 ^ 36)
      let d1 := (d.huStage 13).pinsOut
      let d2 := { d1 with pw := { d1.pw with huMs := ms, vbakLow := d1.pw.vbak, outS := 0 } }
      let d3 := (d2.emit (.pwrEn false)).powerOff 0
      if d.aocHigh 0 then d3.mainsUp else d3
  | none => d

end Sys2Proof.Machine
end

