-- ==== Sys2Proof/Machine/Identity.lean ====
section
/-!
DEFINITION. Tamper inputs and their armed actions (spec 19, R487–R489; 16, R432).
-/

namespace Sys2Proof.Machine

/-- The action TAMPER_ACT gives the input on pin `k` (R481, R488): 0 OFF, 1 EVENT, 2 STANDBY, 3 ERASE. -/
def tamperAction (armed k : Nat) : Nat := armed / 4 ^ k % 4

/-- TAMPER_ACT of the copy in force. -/
def Dev.tamperAct (d : Dev) : Nat := fld (d.idW 0) 35 24

/-- Every band and the key table are discarded (R398): the store holds nothing, and the recorder starts anew (R403, R414). -/
def Dev.discardAll (d : Dev) : Dev :=
  let d1 := d.beginDiscard none
  let x := d1.sto
  { d1 with
    sto := { Store.reset with
      dies := x.dies, w := x.w, st := x.st, pseq := x.pseq, bands := x.bands, wear := x.wear, mapNo := x.mapNo, dead := x.dead, disc := x.disc, looks := x.looks, ckNo := x.ckNo }
    led := { d1.led with blocks := [] }
    leg := { d1.leg with snaps := [] }
    evr := { d1.evr with seq := 0, raw := [], fmt := [], newest := 0, forced := false } }

/-- What an ERASE leaves to be done once its event is on its way (R488): DK is cleared, the revoke fuse of the valid enrolment record is
blown, both configuration copies are erased, and the store is discarded. -/
def eraseAll (st : Stores) (d : Dev) : Stores × Dev :=
  ({ st with norA := [], norB := [] },
    { d.discardAll with
      led := { d.discardAll.led with enrolled := false }
      idn := { d.idn with recs := d.idn.recs.map fun r => { r with revoked := true }, due := false, dk := none } })

/-- TAMPER_EVENTS (R491). -/
def fTamperEvents : Fld := ⟨0x04D4, 35, 18⟩

/-- The TAMPER event (R488, R489), counted; after the holdup seal it is formatted at once, as the records before it were. -/
def Dev.tamperEvent (d : Dev) (k : Nat) : Dev :=
  let d1 := (d.count fTamperEvents).raise 0x0B0 [k]
  if d.led.isSealed then d1.drainEvents.formatAll else d1

/-- Blocks sealed and not yet signed are signed and sent. -/
def Dev.signAll (d : Dev) : Dev := d.led.signQ.foldl (fun x _ => x.blockSigned) d

/-- A configuration INSTALL that is being written is abandoned (R441, R489): the copy cut off is invalid, and region 0x0A stands
IDLE. -/
def Dev.abandonInstall (d : Dev) : Dev := if d.boot.cStage == 2 then d.cfgStage 0 (0, 0, 0) else d

/-- An armed action is taken on pin `k` while the device runs (R488, R489). ERASE waits here for its event's block, no more than
5 ms, within the command: DESIGN CHOICE, notes/assumptions/32.md. -/
def tamperTake (act k : Nat) (st : Stores) (d : Dev) : Stores × Dev :=
  if act == 0 then (st, d)
  else
    let d1 := (d.tamperEvent k).abandonInstall
    if act == 3 && d.isEnrolled then
      if d.pw.hu.isSome then (st, { d1 with idn := { d1.idn with due := true, dk := none } })
      else
        let r := eraseAll st d1.drainEvents.signAll
        (r.1, r.2.coldRestart false)
    else if act == 2 && (d.primary || d.pair.st == 4) && d.pw.hu.isNone then (st, d1.drainEvents.signAll.fence 0)
    else if act == 2 && d.pair.st == 2 then (st, ({ d1 with pair := { d1.pair with st := 5 } } : Dev).coldRestart false)
    else (st, d1)

/-- TAMPER (R432, R487–R489): an assertion of comparator channel 2 to 7. It acts once per assertion. In an outage, before a
configuration copy is chosen, and with no action armed, it is latched; during a warm restart the action is taken and the
restart becomes cold. -/
def execTamper (t chan : Nat) (s : State) : Result := runS t s fun st d =>
  let k := chan - 2
  let a := NMap.look d.idn.acted chan (false, none)
  if chan < 2 || 8 ≤ chan || !d.tamperOn k || a.1 then (st, d)
  else
    let d1 := { d with idn := { d.idn with acted := NMap.put d.idn.acted chan (true, none) } }
    if d.boot.phase < 3 || d.idn.armed.isNone then
      (st, { d1 with idn := { d1.idn with latch := if d1.idn.latch.any fun x => x.1 == k then d1.idn.latch
                                               else d1.idn.latch ++ [(k, d.tb.rtc.getD 0)] } })
    else
      let act := tamperAction (d.idn.armed.getD 0) k
      let d2 := match d.boot.restart with
        | some (n, _, t0) => if act == 0 then d1 else { d1 with boot := { d1.boot with restart := some (n, true, t0) } }
        | none => d1
      tamperTake act k st d2

/-- A STANDBY action's input reads asserted (R488): the device does not leave STANDBY. -/
def Dev.tamperHolds (d : Dev) : Bool :=
  (List.range 6).any fun k => d.tamperOn k && tamperAction (d.idn.armed.getD 0) k == 2

end Sys2Proof.Machine
end

