-- ==== Sys2Proof/Machine/Sessions.lean ====
section
/-!
DEFINITION. Uplink ports, DTLS sessions, and the reassembly of CXP messages (spec 12, R330–R340).
-/

namespace Sys2Proof.Machine

/-! Sessions (R333, R334): 0 head end A, 1 head end B, 2 peer A, 3 peer B. -/

/-- The counters of certificates refused, in the identity status block (R483, R491). -/
def fHeReject : Fld := ⟨0x04D5, 35, 18⟩
def fPeerReject : Fld := ⟨0x04D5, 17, 0⟩

def Dev.linkUp (d : Dev) (port : Nat) : Bool :=
  (if port == 0 then d.up.linkA else d.up.linkB) && d.domOn (44 + port) && d.portEn port

/-- A session may be opened (R331, R334, R443): its port's link is up and the peer's address is set; recovery opens sessions to
the head end only. -/
def Dev.mayOpen (d : Dev) (i : Nat) : Bool :=
  let p := i % 2
  decide (i < 4) && d.linkUp p && (if i < 2 then d.portAddr p 12 != 0 else d.peerSet p && d.boot.recovery == 0)

def Dev.setPortLink (d : Dev) (port : Nat) (v : Bool) : Dev :=
  if port == 0 then { d with up := { d.up with linkA := v } }
  else if port == 1 then { d with up := { d.up with linkB := v } } else d

/-- An IDLE session whose conditions hold begins its handshake (R334). -/
def Dev.openSession (d : Dev) (i : Nat) : Dev :=
  let x := d.session i
  if x.st == .idle && d.mayOpen i then d.setSession i { x with st := .handshake, since := d.clk } else d

/-- PORT_LINK_UP (R330, R334). -/
def execPortLinkUp (t port : Nat) (s : State) : Result := run t s fun d =>
  if port < 2 && d.domOn (44 + port) then ((d.setPortLink port true).openSession port).openSession (2 + port) else d

/-- PORT_LINK_DOWN (R334): the port's sessions are IDLE. -/
def execPortLinkDown (t port : Nat) (s : State) : Result := run t s fun d =>
  if port < 2 then ((d.setPortLink port false).setSession port Session.off).setSession (2 + port) Session.off else d

/-- A session fails (R334). -/
def Dev.sessionFails (d : Dev) (i : Nat) : Dev :=
  let x := d.session i
  d.setSession i { x with st := .backoff, since := d.clk, fails := x.fails + 1 }

/-- A handshake fails (R334). -/
def Dev.handshakeFails (d : Dev) (i : Nat) : Dev := (d.sessionFails i).count fDtlsFail

/-- A certificate is accepted (R482, R483): of the head end, whose chain ends at the key HE_ANCHOR names, with no check while the device is
UNENROLLED in recovery; of the peer, whose chain ends at the Skovan CA and whose serial gives PEER_ID. -/
def Dev.certOk (d : Dev) (i : Nat) (c : Cert) : Bool :=
  if i < 2 then (d.boot.recovery != 0 && !d.isEnrolled) || sha384 c.root == d.idNum 16
  else c.root == d.idn.caKey && c.serial % 2 ^ 36 == (d.idW 3).toNat

/-- HANDSHAKE_DONE (R334, R483): the peer is authenticated, the pair peer's identity key is kept (R395), and blocks that waited go out
(R338); a certificate refused fails the handshake and is counted. -/
def execHandshakeDone (t sess : Nat) (c : Cert) (s : State) : Result := run t s fun d =>
  let x := d.session sess
  if x.st != .handshake || !d.mayOpen sess then d
  else if !d.certOk sess c then (d.handshakeFails sess).count (if sess < 2 then fHeReject else fPeerReject)
  else
    let d1 := d.setSession sess { x with st := .up, since := d.clk, fails := 0, heard := d.clk, recs := 0, keyAt := d.clk }
    (if sess < 2 then d1 else { d1 with idn := { d1.idn with peerKey := some c.key } }).deliver

/-- HANDSHAKE_TIMEOUT (R334): a handshake has failed, or taken 10 s. -/
def execHandshakeTimeout (t sess : Nat) (failed : Bool) (s : State) : Result := run t s fun d =>
  let x := d.session sess
  if x.st == .handshake && (failed || d.passedMs x.since 10000) then d.handshakeFails sess else d

/-- SESSION_TIMEOUT (R334): no record for SESSION_TO_S. -/
def execSessionTimeout (t sess : Nat) (s : State) : Result := run t s fun d =>
  let x := d.session sess
  if x.st == .up && d.passedMs x.heard (1000 * d.sessionToS) then d.sessionFails sess else d

/-- FATAL_ALERT (R334). -/
def execFatalAlert (t sess : Nat) (s : State) : Result := run t s fun d =>
  if (d.session sess).st == .up then d.sessionFails sess else d

/-- SESSION_BACKOFF_END (R334): 1 s after the first failure, doubling up to 64 s. -/
def execSessionBackoffEnd (t sess : Nat) (s : State) : Result := run t s fun d =>
  let x := d.session sess
  if x.st == .backoff && d.passedMs x.since (1000 * min 64 (2 ^ (x.fails - 1))) && d.mayOpen sess then
    d.setSession sess { x with st := .handshake, since := d.clk }
  else d

/-- KEY_UPDATE (R333): after 2²³ records or 24 h. -/
def execKeyUpdate (t sess : Nat) (s : State) : Result := run t s fun d =>
  let x := d.session sess
  if x.st == .up && (decide (2 ^ 23 ≤ x.recs) || d.passedMs x.keyAt 86400000) then
    d.setSession sess { x with recs := 0, keyAt := d.clk }
  else d

/-! Other traffic of a port (R330). -/

/-- ARP_REQUEST (R330): an ARP request or neighbour solicitation for the port's own address is answered. -/
def execArpRequest (t port addr : Nat) (s : State) : Result := run t s fun d =>
  if d.linkUp port && addr == d.portAddr port 3 then d.emit (.arp port addr) else d

/-- ECHO_REQUEST (R330): answered with its body. -/
def execEchoRequest (t port : Nat) (body : List Octet) (s : State) : Result := run t s fun d =>
  if d.linkUp port then d.emit (.echo port body) else d

/-! Reassembly (R335–R340). -/

/-- The largest MSG_WORDS taken (R337). -/
def cxpLimit (port typ : Nat) : Nat := if port == 2 then 16777215 else if typ == 0x01 then 1118257 else 65536

end Sys2Proof.Machine

namespace Sys2Proof

/-- Segments of the message. -/
def Segment.count (g : Segment) : Nat := (g.msgWords + g.segWords - 1) / g.segWords

/-- Words the segment carries after its header (R337). -/
def Segment.words (g : Segment) : Nat :=
  if g.segNo + 1 < g.count then g.segWords
  else let n := g.msgWords - (g.count - 1) * g.segWords; n + n % 2

/-- A segment's header is one of CXP (R335, R336, R340). On the pair link a checkpoint part is a type too (R460). -/
def Segment.framed (g : Segment) : Bool :=
  g.octets.length % 9 == 0 && decide (18 ≤ g.octets.length) && g.ver == 1 && (Machine.cxpTypes.contains g.typ || (g.port == 2 && g.typ == 0x60))

/-- A first segment says by FETCH whether a LEDGER_BLOCK of more than 65,536 words is taken on an uplink port (R337, R341). -/
def Segment.fetched (g : Segment) : Bool :=
  g.port == 2 || g.typ != 0x01 || decide (g.msgWords ≤ 65536) || g.segNo != 0 || bitOf (g.body.getD 0 0) 35

/-- A segment is well formed (R335–R337, R340). -/
def Segment.wellFormed (g : Segment) : Bool :=
  g.framed && g.fetched && decide (1 ≤ g.msgWords) && decide (g.msgWords ≤ Machine.cxpLimit g.port g.typ)
    && g.segWords % 2 == 0 && decide (2 ≤ g.segWords) && decide (g.segWords ≤ 4094)
    && decide (g.segNo < g.count) && decide (g.count ≤ 65536) && g.last == (g.segNo + 1 == g.count)
    && g.body.length == g.words && (g.count == 1) == (g.segWords == g.msgWords + g.msgWords % 2)

end Sys2Proof

namespace Sys2Proof.Machine

def RxPeer.init : RxPeer := ⟨none, none, 0, []⟩

def Dev.rxPeer (d : Dev) (p : Nat) : RxPeer := NMap.look d.up.rx p RxPeer.init
def Dev.setRxPeer (d : Dev) (p : Nat) (x : RxPeer) : Dev := { d with up := { d.up with rx := NMap.put d.up.rx p x } }

/-- How far `seq` lies below the highest MSG_SEQ seen, modulo 2³⁶; 0 where it does not. -/
def RxPeer.behind (x : RxPeer) (seq : Nat) : Nat :=
  let b := (x.top + 2 ^ 36 - seq) % 2 ^ 36
  if b < 2 ^ 35 then b else 0

/-- A message takes its place among those of its peer, which stand in the order of their first segments. -/
def RxPeer.setMsg (x : RxPeer) (m : RxMsg) : RxPeer :=
  if x.msgs.any fun y => y.seq == m.seq then { x with msgs := x.msgs.map fun y => if y.seq == m.seq then m else y }
  else { x with msgs := x.msgs ++ [m] }

/-- A segment that is not well formed discards what is held of its message (R337). -/
def Dev.badSegment (d : Dev) (g : Segment) : Dev :=
  let x := d.rxPeer g.peer
  let d1 := d.count fBadSeg
  if g.framed && x.gen == some g.gen then
    d1.setRxPeer g.peer { x with msgs := x.msgs.filter fun m => m.whole || m.seq != g.seq }
  else d1

/-- The words of a message whose segments are all held. -/
def RxMsg.body (m : RxMsg) : List Word := (m.segs.flatMap fun p => p.2).take m.words

/-- A segment joins its message (R337, R339); of 64 partial messages the oldest makes room for another. -/
def Dev.joinSegment (d : Dev) (g : Segment) : Dev :=
  let x0 := d.rxPeer g.peer
  let x1 := if x0.behind g.seq == 0 then
      { x0 with top := g.seq, msgs := x0.msgs.filter fun m => decide (({ x0 with top := g.seq } : RxPeer).behind m.seq < 4096) }
    else x0
  match x1.msgs.find? fun m => m.seq == g.seq with
  | some m =>
    if m.typ != g.typ || m.words != g.msgWords || m.segW != g.segWords then
      (d.setRxPeer g.peer { x1 with msgs := x1.msgs.filter fun y => y.seq != g.seq }).count fBadSeg
    else if m.whole || (NMap.find m.segs g.segNo).isSome then (d.setRxPeer g.peer x1).count fDupPath
    else
      let m1 := { m with segs := NMap.put m.segs g.segNo g.body }
      if m1.segs.length == g.count then
        (d.setRxPeer g.peer (x1.setMsg { m1 with whole := true, segs := [] })).emit (.cxpTaken g.peer g.typ g.seq g.ref m1.body)
      else d.setRxPeer g.peer (x1.setMsg m1)
  | none =>
    let m : RxMsg := ⟨g.seq, g.typ, g.msgWords, g.segWords, g.ref, d.clk, [(g.segNo, g.body)], false⟩
    if g.count == 1 then
      (d.setRxPeer g.peer (x1.setMsg { m with whole := true, segs := [] })).emit (.cxpTaken g.peer g.typ g.seq g.ref m.body)
    else
      let parts := x1.msgs.filter fun y => !y.whole
      match if 64 ≤ parts.length then parts.head? else none with
      | some old => (d.setRxPeer g.peer ({ x1 with msgs := x1.msgs.filter fun y => y.seq != old.seq }.setMsg m)).count fReasmTo
      | none => d.setRxPeer g.peer (x1.setMsg m)

/-- The path a segment came on is open: an UP session, or the pair link (port 2). -/
def Dev.pathOpen (d : Dev) (g : Segment) : Bool :=
  if g.port == 2 then g.peer == 1 && d.pair.link else decide (g.port < 2) && decide (g.peer < 2) && d.sessUp (2 * g.peer + g.port)

/-- A segment whose octets have come (R335–R340). A change of GEN clears the window, and the GEN before it is stale from then on. -/
def Dev.takeSegment (d1 : Dev) (g : Segment) : Dev :=
  if !g.wellFormed then d1.badSegment g
  else
    let r := d1.rxPeer g.peer
    if r.gen != some g.gen && r.was == some g.gen then d1.count fStaleSeq
    else
      let d2 := if r.gen == some g.gen then d1 else d1.setRxPeer g.peer ⟨some g.gen, r.gen, g.seq, []⟩
      if 4096 ≤ (d2.rxPeer g.peer).behind g.seq then d2.count fStaleSeq else d2.joinSegment g

/-- A segment on the pair link (R460): one whose CRC fails is discarded. -/
def Dev.linkSegment (d : Dev) (g : Segment) : Dev :=
  let x := descramble d.pair.scrR g.line
  let d1 : Dev := { d with pair := { d.pair with scrR := x.2 } }
  match pairRead x.1 with
  | some os => d1.takeSegment { g with octets := os }
  | none => d1

/-- CXP_SEGMENT (R330, R335–R340, R460): a datagram in fragments, and one that back-pressure leaves no place, are discarded and counted. -/
def execCxpSegment (t : Nat) (g : Segment) (s : State) : Result := run t s fun d =>
  if !d.pathOpen g then d
  else if g.port == 2 then d.linkSegment g
  else if g.frag then d.count fRxDrop
  else
    let i := 2 * g.peer + g.port
    let x := d.session i
    let d1 := (d.setSession i { x with heard := d.clk, recs := x.recs + 1 }).count (fRxSeg g.port)
    if d1.pressed (cxpClass g.typ) then d1.count fRxDrop else d1.takeSegment g

/-- REASM_TO (R337): 2 s from the first segment. -/
def execReasmTo (t peer seq : Nat) (s : State) : Result := run t s fun d =>
  let x := d.rxPeer peer
  if x.msgs.any fun m => m.seq == seq && !m.whole && d.passedMs m.since 2000 then
    (d.setRxPeer peer { x with msgs := x.msgs.filter fun m => m.seq != seq }).count fReasmTo
  else d

end Sys2Proof.Machine
end

