-- ==== Sys2Proof/Machine/Replay.lean ====
section
/-!
DEFINITION. Restoring the ledger's state from a checkpoint and the archived entries above it, and building the directory anew
(spec 06, R161; 14, R392–R397; 18, R468, R470).
-/

namespace Sys2Proof.Machine

/-- A COMMAND from its journal words (R392); its MSG_SEQ is not among them. -/
def cmdOfWords (ws : List Word) : CmdMsg :=
  let w (i : Nat) : Word := ws.getD i 0
  { ref := 0, id := (w 0).toNat, kind := fld (w 1) 35 30, form := fld (w 1) 29 27, deadline := fld (w 1) 23 0, atS := (w 2).toNat,
    argWords := fld (w 3) 35 18, tgtWords := fld (w 3) 17 0, rest := ws.drop 4 }

/-- The instant on the running axis of a device time. -/
def Dev.axisOf (d : Dev) (time : Nat) : Nat := ((time : Int) - d.tb.off).toNat

/-- A device under replay, with the slots and commands whose entries need journal words that are missing (R470). -/
structure Replay where
  dev   : Dev
  slots : List Nat
  cmds  : List Nat

/-- A transaction opens as at acceptance, its per-meter refusals being entries of their own (R206). -/
def Dev.replayOpen (d : Dev) (c : Cmd) (slot : Nat) : Dev :=
  match d.rec? slot with
  | none => d
  | some r =>
    if 7 ≤ r.openTx || (c.kind == 4 && r.stagedV) then d
    else if txnTableSize ≤ d.openTxns then d.setWaiting c.id ((((d.cmd? c.id).map Cmd.waiting).getD []) ++ [slot])
    else
      (d.setRec slot { r with openTx := r.openTx + 1 }).setTxn
        { cmd := c.id, slot := slot, st := .opened, last := 15, jobs := 0, wait := 0, late := false, mcmd := firstMcmd c.kind,
          reset := c.kind == 5 && (r.ctrEndEv || r.txCtr == 0xFFFFFFFF), atS := c.atS, deadline := d.txnDeadlineOf c,
          over' := false, staged := false, exec := 0, olds := [] }

/-- An ACCEPTED entry is replayed with its command's journal words (R392, R397). -/
def Dev.replayAccepted (d : Dev) (e : Entry) (m : CmdMsg) : Dev :=
  let t0 := d.axisOf e.time
  let c : Cmd := { d.newCmd m with
    accepted := t0, deadline := t0 + secT m.deadline, targets := fld (e.body.getD 2 0) 35 14, reason := e.reason, csn := e.csn,
    late := e.flags % 2 == 1 }
  let d1 := d.putCmd c
  if m.kind == 6 then
    let a := m.args.drop 2
    let id := fld (a.getD 0 0) 35 30
    let x := Camp.ofWords m.id a []
    let k := d1.drawGroupKey id x.wrapIdx
    k.2.setCamp id { x with
      gkey := k.1
      toArm := (d1.targets m).filter fun n => (d1.rec? n).isSome
      deadline := t0 + secT m.deadline }
  else if m.kind ≤ 5 then (d1.targets m).foldl (fun x n => x.replayOpen c n) d1
  else d1

/-- A summary entry is replayed (R209–R211). -/
def Dev.replaySummary (d : Dev) (e : Entry) (bno : Nat) (j : List Word) : Dev × Bool :=
  let id := (e.body.getD 0 0).toNat
  let kind := fld (e.body.getD 1 0) 35 30
  if e.reason == rcAccepted then
    if j.isEmpty && kind != 0x0B then
      (d.putCmd { d.newCmd { cmdOfWords [] with id := id, kind := kind } with
        accepted := d.axisOf e.time, reason := rcAccepted, csn := e.csn }, true)
    else (d.replayAccepted e { cmdOfWords j with id := id, kind := kind }, false)
  else if e.reason == rcComplete || e.reason == rcPartial || e.reason == rcFailed then
    let c := (d.cmd? id).getD { d.newCmd { cmdOfWords [] with id := id, kind := kind } with accepted := d.axisOf e.time }
    let d1 := if (d.cmd? id).isSome then d else d.putCmd c
    (d1.setCmd { c with ended := true, reason := e.reason, csn := e.csn, finalBno := bno, phase := 3, waiting := [] }, false)
  else (d, false)

/-- A member's CAMP_STATE as a per-meter entry gives it (R228, R231): its place in the campaign, and its FW_ARM transaction, which a stop
resumes with the time ARM_DEADLINE_MIN left it. -/
def Dev.replayMember (d : Dev) (e : Entry) (n camp st held : Nat) (going : Bool) : Dev :=
  let d1 := d.updRec n fun r => { r with campId := camp, campState := st }
  match d1.camp? camp, d1.rec? n with
  | some c, some r =>
    let m := (NMap.find c.members n).getD (c.place n r)
    let d2 := d1.setCamp camp { c with
      st := max c.st 2
      toArm := c.toArm.filter fun k => k != n
      members := NMap.put c.members n { m with held := held } }
    let d3 := match d2.campTxn c n with
      | some x => if x.isOpen then d2.closeTxn x else d2
      | none => d2
    if st == 1 && going then d3.openCampTxn camp n 7 (d.axisOf e.time + secT (c.armMin * 60)) else d3
  | _, _ => d1

/-- A per-meter entry changes the record beyond its state nonet (R211, R218, R221, R228). `j` holds its journal words. -/
def Dev.replayMeter (d : Dev) (e : Entry) (n : Nat) (j : List Word) : Dev × Bool :=
  let b (i : Nat) : Word := e.body.getD i 0
  let id := (b 0).toNat
  let kind := fld (b 1) 35 30
  let detail := fld (b 2) 27 0
  let ends := e.reason != rcProgress
  let x : Dev × Bool :=
    match kind with
    | 4 =>
      let tt := detail / 2 ^ 20
      if !ends then
        let d1 := d.updRec n fun r => { r with ttStaged := tt, stagedV := true }
        (match d1.txn? id n with
          | some t => d1.setTxn { t with staged := true }
          | none => d1, false)
      else if e.reason == rcOk then (d.updRec n fun r => { r with ttActive := tt, stagedV := false }, false)
      else if e.reason == rcCancelled then (d.updRec n fun r => { r with stagedV := false }, false)
      else (d, false)
    | 5 =>
      if !ends && fld (b 1) 29 26 == 15 then
        if j.isEmpty then (d, true)
        else ((d.setKeys n (KeyBlock.ofWords (j.drop 1))).updRec n
          fun r => { r with keyNext := (j.headD 0).toNat, keyNextV := true }, false)
      else if !ends then
        let d1 := d.swapKeys n true false
        (match d1.txn? id n with
          | some t => d1.setTxn { t with st := .keyWait }
          | none => d1, false)
      else if e.reason == rcOk && ((d.rec? n).map MeterRec.keyNextV).getD false then (d.swapKeys n false false, false)
      else (d, false)
    | 6 =>
      let st := detail / 2 ^ 24
      let camp := detail / 2 ^ 18 % 64
      if e.reason == rcUnassigned then (d, false)
      else (d.replayMember e n camp st (detail / 4 % 2 ^ 16) (!ends), false)
    | _ => (d, false)
  if !ends then x
  else
    let d2 := match x.1.txn? id n with
      | some t => if t.isOpen && kind != 6 then (x.1.closeTxn t).setTxn { t with st := .ended, over' := true } else x.1
      | none => x.1
    (d2.tally id (e.reason == rcOk), x.2)

/-- A slot freed when the block that holds its REMOVE is acknowledged (R161), in replay. -/
def Dev.replayAck (d : Dev) (bno : Nat) : Dev :=
  let gone := (d.led.heldS.filter fun p => decide (p.2 ≤ bno)).map (·.1)
  { d with led := { d.led with
      acked := max d.led.acked bno
      heldS := NMap.keep d.led.heldS fun n _ => !gone.contains n
      recs := NMap.keep d.led.recs fun n _ => !gone.contains n
      keys := NMap.keep d.led.keys fun n _ => !gone.contains n } }

/-- The record after a READING entry (R175–R177, R397); RX_CTR takes the highest FCTR. -/
def MeterRec.replayReading (r : MeterRec) (e : Entry) (compact : Bool) : MeterRec :=
  let b (i : Nat) : Word := e.body.getD i 0
  let x : Reading := ⟨(b 0).toNat, fld (b 1) 15 13, fld (b 1) 12 8, (List.range 4).map fun i => (b (2 + i)).toNat⟩
  let s : ReadingSet := ⟨compact, false, fld (b 1) 23 16, fld (b 1) 35 24, 0, [x], [], []⟩
  let r1 := r.afterReading s x (ofTwos 16 (fld (b 6) 35 20)) ⟨e.outcome, e.reason, e.flags, joinW (b 7) (b 8)⟩ e.csn
  { r1 with rxCtr := max r1.rxCtr (fld (b 9) 35 4) }

/-- One entry's own change, and whether journal words it needs are missing. -/
def Dev.replayBody (d : Dev) (e : Entry) (bno : Nat) (j : List Word) : Dev × Bool :=
  let b (i : Nat) : Word := e.body.getD i 0
  let eui : Eui := BitVec.ofNat 64 (fld (b 0) 35 4 * 2 ^ 32 + fld (b 1) 35 4)
  match e.typ, e.slot with
  | 0x01, some n => (d.updRec n fun r => r.replayReading e (!j.isEmpty), false)
  | 0x02, _ =>
    (if bitOf (b 2) 9 then { d with led := { d.led with ann := announce d.led.ann eui e.time } } else d, false)
  | 0x03, some n =>
    let cause := fld (b 0) 26 19
    let swaps := cause == 3 && j.isEmpty && fld (b 0) 35 27 % 2 == 1 && e.state % 2 == 0
      && ((d.rec? n).map MeterRec.keyNextV).getD false
    let d1 := if swaps then d.swapKeys n false false else d
    (if cause == 1 then d1.updRec n fun r => { r with rxCtr := max r.rxCtr (fld (b 1) 35 4) }
      else if j.isEmpty then d1
      else d1.updRec n fun r => { MeterRec.ofWords j with rxCtr := r.rxCtr, openTx := r.openTx }, false)
  | 0x04, some n =>
    if j.isEmpty then
      (d.setRec n { MeterRec.blank with
        inUse := true, eui := eui, pl := bitOf (b 2) 35, batt := bitOf (b 2) 34, mtype := fld (b 2) 33 18 }, true)
    else
      let d1 := (d.setRec n (MeterRec.ofWords (j.take 32))).setKeys n (KeyBlock.ofWords ((j.drop 32).take 16))
      (d1.setMem n (j.getD 48 0), false)
  | 0x05, some n =>
    (({ d with led := { d.led with
        recs := NMap.put d.led.recs n MeterRec.blank
        keys := NMap.del d.led.keys n
        heldS := NMap.put d.led.heldS n bno } }.setMem n 0).setBal { d.bal with mem := NMap.del d.bal.mem n, corr := NMap.del d.bal.corr n },
      false)
  | 0x06, _ => (d.replayAck (b 0).toNat, false)
  | 0x07, _ => ({ d with led := { d.led with dir := DirSet.fresh (fld (b 0) 30 26) (b 2).toNat d.draws } }, false)
  | 0x08, some n => if e.flags / 2 % 2 == 1 then d.replaySummary e bno j else d.replayMeter e n j
  | 0x08, none => d.replaySummary e bno j
  | 0x09, some n =>
    let w := d.memWord n
    let res := fld (b 1) 31 29
    let best := [fld (b 1) 28 21, fld (b 1) 20 13, fld (b 1) 12 5].map (ofTwos 8)
    let phase := if res == 2 || res == 3 then fld (b 1) 33 32 else fld (b 1) 35 34
    let found := pk [(memZone w, 35, 24), (b2n (memZv w), 23, 23), (phase, 22, 21), (b2n (memPoly w), 20, 20), (res, 19, 17),
      (toTwos 8 (best.foldl max (-100)), 16, 9)]
    let fresh (x : Dev) : Dev := x.setBal { x.bal with corr := NMap.put x.bal.corr n (Corr.fresh (e.time / 2 ^ 36)) }
    match fld (b 0) 35 34 with
    | 1 => (fresh (d.setMem n found), false)
    | 2 => (fresh (d.setMem n (b 2)), false)
    | _ => (d, false)
  | 0x0A, _ =>
    let x := d.leg.st
    (d.setLeg { x with
      bnum := max x.bnum (b 0).toNat, highT := max x.highT (joinW (b 1) (b 2)), snapNo := max x.snapNo (b 25).toNat }, false)
  | 0x0B, some n => (if fld (b 1) 35 24 == 0x020 then d.updRec n fun r => { r with ctrEndEv := true } else d, false)
  | _, _ => (d, false)

/-- One archived entry is replayed: its change, the slot's state nonet as it gives it, and the next CSN (R397). -/
def Replay.entry (p : Replay) (bno : Nat) (e : Entry) : Replay :=
  let d := p.dev
  if e.reserved then { p with dev := { d with led := { d.led with csn := e.csn + 1 } } }
  else
  let x := d.replayBody e bno (NMap.look d.sto.jour e.csn [])
  let d1 := match e.slot with
    | some n => if e.typ == 5 then x.1 else x.1.updRec n fun r => { r with state := e.state % 256 }
    | none => x.1
  let d2 := { d1 with led := { d1.led with csn := e.csn + 1 } }
  if !x.2 then { p with dev := d2 }
  else match e.slot with
    | some n => { p with dev := d2, slots := p.slots ++ [n] }
    | none => { p with dev := d2, cmds := p.cmds ++ [(e.body.getD 0 0).toNat] }

/-- An archived block is replayed above a CSN; it is the one whose hash the next carries (R188, R397). -/
def Replay.block (p : Replay) (above : Nat) (b : Block) : Replay :=
  let q := (b.entries.filter fun e => decide (above < e.csn)).foldl (fun x e => x.entry b.bno e) p
  { q with dev := { q.dev with led := { q.dev.led with bno := b.bno + 1, prev := sha384 (wordsOctets b.words) } } }

/-- The blocks held from a BNO on, in order: after a start those of the archive, at a takeover fetched blocks too. -/
def Dev.archivedFrom (d : Dev) (bno : Nat) : List Block :=
  (d.led.blocks.filter fun p => decide (bno ≤ p.1)).map fun p => p.2

/-- Blocks follow each other without a gap from a BNO on. -/
def unbroken (bno : Nat) : List Block → Bool
  | [] => true
  | b :: r => b.bno == bno && unbroken (bno + 1) r

/-- A checkpoint can be restored: its successor entries are all archived (R397). -/
def Dev.ckptUsable (d : Dev) (c : Snapshot) : Bool :=
  unbroken c.bno (d.archivedFrom c.bno) || unbroken (c.bno + 1) (d.archivedFrom c.bno)

/-- Slots held after removal at a CSN, with the BNO that frees each: REMOVE entries up to it in blocks not acknowledged (R161). -/
def Dev.heldAt (d : Dev) (acked csn : Nat) : NMap Nat :=
  (d.led.blocks.filter fun p => decide (acked < p.1)).foldl (fun m p =>
    (p.2.entries.filter fun e => e.typ == 5 && decide (e.csn ≤ csn)).foldl (fun m1 e =>
      match e.slot with | some n => NMap.put m1 n p.1 | none => m1) m) []

/-- The state a checkpoint holds (R394–R396); open transactions whose job was in a table start it again (R233). -/
def Dev.loadCkpt (d : Dev) (c : Snapshot) : Dev :=
  let held := d.heldAt c.acked c.csnAt
  let back (t : Txn) : Txn := if t.st == .job || t.st == .resp then { t with st := .opened } else t
  { d with
    led := { d.led with
      csn := c.csnAt + 1, bno := c.bno, recs := held.foldl (fun m p => NMap.put m p.1 MeterRec.blank) (NMap.keep c.recs fun _ r => r.inUse), keys := c.keys, prev := c.prev, acked := c.acked, ann := c.ann
      dir := { DirSet.fresh c.log2 c.gen d.draws with stash := c.stash }
      heldS := held
      openB := none, signQ := [] }
    bal := { d.bal with mem := c.mem, corr := c.corr }
    leg := { d.leg with st := c.leg }
    cmd := { c.cmd with txns := NMap.mapAll c.cmd.txns fun _ t => back t } }

/-- A checkpoint and every archived entry above it (R397). -/
def Dev.replay (d : Dev) (c : Snapshot) : Replay :=
  (d.archivedFrom c.bno).foldl (fun p b => p.block c.csnAt b) ⟨d.loadCkpt c, [], []⟩

/-- The directory is built from the records with up to 16 generations of seeds (R161); none where all of them fail. -/
def Dev.buildDirectory (d : Dev) : Option Dev :=
  let gen := nextGen d.led.dir.gen
  (buildDir d.led.recs d.led.dir.log2 gen d.draws 16).map fun r =>
    { d with draws := r.2, led := { d.led with dir := r.1, rebuild := ⟨.idle, d.clk, 0, 0, DirSet.empty⟩ } }

/-- Campaigns go on as R231 says of a stop. -/
def Dev.resumeCamps (d : Dev) : Dev := d.cmd.camps.foldl (fun x p => x.campAfterStart p.1) d

end Sys2Proof.Machine
end

