-- ==== Sys2Proof/Machine/TimeExec.lean ====
section
/-!
DEFINITION. What moves device time: offsets of the PTP slave, the initial set, steps, the controls over time, beacons and
the end of the start wait (spec 11, R307, R309, R315–R326).
-/

namespace Sys2Proof.Machine

/-- The units that wait for device time begin (R321): metrology and the balance engine; lanes, powerline lanes, beacons
and slotted service ask `Dev.quiet`. -/
def Dev.releaseTime (d : Dev) : Dev := (d.setTb { d.tb with prov := false }).metroStart.balStart

/-- Device time is set by `o` ns of offset (R321): no step, no entry, but LAST_STEP_T is set. -/
def Dev.initialSet (d : Dev) (o : Int) : Dev :=
  let d1 := (d.setTb { d.tb with off := d.tb.off - nsT o, set := true, servo := 0, left := 0, debt := 0 }).tbClear
  let d2 := d1.tbTo tbAcquire
  (d2.setTb { d2.tb with lastStep := d2.now, lastOff := o, lastAcc := d2.clk, pend := none }).releaseTime.epochKeep d

/-- An offset of a whole exchange (R307, R316–R321): none counts after mains loss or while a step waits for its tick
edge; during the start wait only one within UNC + 1 s is taken, as the initial set. -/
def Dev.takeOffset (d : Dev) (o : Int) : Dev :=
  if d.pw.hu.isSome || d.tb.step.isSome then d
  else if !d.tb.set then d.initialSet o
  else if d.tb.prov then
    if o.natAbs ≤ d.uncUs * 1000 + 1000000000 then d.initialSet o else d
  else d.filterOffset o

/-- PTP_DELAY_RESP (R309, R311, R312): the exchange of the SLAVE port is whole; `t4` is the master's receipt of the
Delay_Req in PTP ns. An exchange whose Delay_Req has no stamp gives no offset. -/
def execPtpDelayResp (t p dom seq : Nat) (t4 : Int) (s : State) : Result := run t s fun d =>
  let x := d.port p
  let e : Int := ptpEpochS * 1000000000
  if !d.ptpTakes p dom || x.st != 9 then d
  else match x.sync, x.req with
    | some (_, some t1, t2), some r =>
      if r / 4096 != seq then d
      else
        let st := d.takeStamp p (r % 4096)
        match st.1 with
        | none => st.2.setPort p { x with req := none }
        | some t3 =>
          let path := Int.fdiv ((t2 - (t1 - e)) + ((t4 - e) - t3)) 2
          let ds := x.delays ++ [path]
          let d1 := st.2.setPort p { x with req := none, sync := none, delays := ds.drop (ds.length - 16) }
          d1.takeOffset ((t2 - (t1 - e)) - d1.pathNs p)
    | _, _ => d

/-- START_WAIT_EXPIRY (R321): a device whose time is still unset keeps waiting. -/
def execStartWaitExpiry (t : Nat) (s : State) : Result := run t s fun d =>
  let t0 := if d.pair.st == 2 then d.pair.since else d.boot.since
  if d.tb.prov && d.tb.set && d.boot.phase == 3 && d.pair.st != 1 && d.passedMs t0 (1000 * d.timeWaitS) then d.releaseTime else d

/-! Steps (R315, R319, R320). -/

/-- The states in which a step aborts a lane (R319). -/
def LaneSt.steps : LaneSt → Bool
  | .rx | .hold | .turn | .ack | .cca | .tx | .await => true
  | _ => false

/-- Lanes under way are aborted and their jobs return to the job table (R319). -/
def Dev.stepLanes (d : Dev) : Dev :=
  ((d.air.lanes.filter fun p => p.2.st.steps).foldl (fun x p =>
    ((((x.count fStepAbort).stopTx p.1).dropTx p.1).freeLane p.1).jobBack false p.2.job) d).pruneGroups

/-- Starts and deadlines of jobs, and with them the deadlines of transactions, commands and campaigns, stand in device time, which
has moved by `by'` against the running axis (R319). -/
def Dev.stepJobs (d : Dev) (by' : Int) : Dev :=
  let mv (n : Nat) : Nat := ((n : Int) - by').toNat
  let f (j : Job) : Job := { j with start := mv j.start, deadline := mv j.deadline }
  let item (x : Item) : Item := match x with | .job j => .job (f j) | y => y
  let x := d.mapItems 3 item
  { x with
    air := { x.air with jobs := NMap.mapAll x.air.jobs fun _ j => f j }
    pl := { x.pl with jobs := NMap.mapAll x.pl.jobs fun _ j => f j }
    cmd := { x.cmd with
      tab := NMap.mapAll x.cmd.tab fun _ c => { c with deadline := mv c.deadline }
      txns := NMap.mapAll x.cmd.txns fun _ y => { y with deadline := mv y.deadline }
      camps := NMap.mapAll x.cmd.camps fun _ c => { c with deadline := mv c.deadline } } }

/-- Powerline lanes go on across a step, which R319 does not name for them: the device times they hold move with it (DESIGN CHOICE,
notes/assumptions/64.md). -/
def Dev.stepPl (d : Dev) (by' : Int) : Dev :=
  let mv (n : Nat) : Nat := ((n : Int) + by').toNat
  let lane (l : PlLane) : PlLane :=
    { l with tag := mv l.tag, endT := mv l.endT, first := mv l.first, frame := l.frame.map fun f => { f with done := { f.done with endT := mv f.done.endT } } }
  { d with pl := { d.pl with
      lanes := NMap.mapAll d.pl.lanes fun _ l => lane l
      grps := NMap.mapAll d.pl.grps fun _ g => { g with tag := mv g.tag, hold := g.hold.map mv } } }

/-- Every link's offset follows the step, its Reed head is told, and a delay exchange that spans the step is dropped
(R319, R320). -/
def Dev.stepLinks (d : Dev) (by' : Int) : Dev :=
  ((List.range 16).filter d.linkEn).foldl (fun x k =>
    let l := x.link k
    let y := x.setLink k { l with offset := l.offset - by', req := none }
    if l.hears then y.queueCtrl k ⟨3, 8, octetsBE (toTwos 64 by') 8⟩ else y) d

/-- The metrology chain restarts at the first change boundary of the new time, to which changes that wait move with it
(R269). -/
def Dev.stepMetro (d : Dev) : Dev :=
  let was := d.met.run.isSome || d.met.pend.any fun x => x.kind == .timeStep
  let starting := d.met.pend.any fun x => x.kind == .start
  let d1 := d.metroStop
  let d2 := d1.setMet { d1.met with pend := d1.met.pend.map fun x => { x with at' := d1.firstBoundary }, tick := d1.now * 100 / 2 ^ 36 }
  if starting then d2.metroStart
  else if was then
    let x : Change := ⟨.timeStep, d2.firstBoundary, 0, 0⟩
    let e := d2.changeEvent x
    (d2.queueChange x).raise e.1 e.2
  else d2

/-- The running demand interval closes at a step of more than 1 s: T is the old time of a backward step and the new time
of a forward one (R298). -/
def Dev.stepLegal (d : Dev) (old new : Nat) (measuring : Bool) : Dev :=
  if !measuring || d.leg.due.isSome then d
  else ({ d with leg := { d.leg with due := some (if new < old then old else new, 2, new) } }).takeBoundary

/-- The correction of a step: a whole multiple of 40 ms (R315). -/
def stepDelta (corr : Int) : Int := roundHE (roundHE (corr * 25) (2 ^ 36) * 2 ^ 36) 25

/-- The ticks that end at or before the instant of a step are taken with the outputs there are: those stop at the step (R269, R320; DEDUCED,
notes/assumptions/66.md). -/
def Dev.stepTicks (d : Dev) : Nat → Dev
  | 0 => d
  | fuel + 1 => if d.met.run.isSome && d.domOn 53 && decide ((d.met.tick + 1) * tickU ≤ d.nowU) then Dev.stepTicks d.takeTick fuel else d

/-- A step takes effect (R315–R320). -/
def Dev.takeStep (d : Dev) (x : Step) : Dev :=
  let by' := stepDelta x.corr
  let new := ((x.ts : Int) + by').toNat
  let big := decide (2 ^ 36 < by'.natAbs)
  let measuring := d.met.run.isSome
  let dt := d.stepTicks 4
  let d0 := if dt.nextT ≤ x.ts then dt.takeBoundary else dt
  let d1 := (((d0.stepLanes).stepJobs by').stepPl by').stepLinks by'
  let d2 := if big then d1.balStep x.ts new else d1
  let clear (q : PtpPort) : PtpPort := { q with sync := none, req := none }
  let b := d2.tb
  let d3 := (d2.setTb { b with
    off := b.off + by', step := none, lastStep := new, debt := b.debt + (x.corr - by')
    ports := NMap.mapAll b.ports fun _ q => clear q }).tbClear.count fSteps
  let d4 := d3.stepMetro
  let d5 := if big then d4.stepLegal x.ts new measuring else d4
  let d6a := if x.cause != 1 || d5.tb.st == tbStepWait then
      (d5.tbTo tbAcquire).setTb { (d5.tbTo tbAcquire).tb with pend := none } else d5
  let d6 := d6a.epochKeep d0
  let v := toTwos 72 by'
  let r := d6.raiseNow 0x070 [x.ts / 2 ^ 36, x.ts % 2 ^ 36, v / 2 ^ 36, v % 2 ^ 36, x.cause]
  match x.req with
  | some q => r.2.controlResp ⟨q.1, 1, q.2, 0, false⟩ rcOk r.1
  | none => r.2

/-- STEP_TAKE_EFFECT (R315, R320): at its tick edge; after mains loss a step is never executed. -/
def execStepTakeEffect (t : Nat) (s : State) : Result := run t s fun d =>
  match d.tb.step with
  | some x =>
    if d.pw.hu.isSome then d.setTb { d.tb with step := none }
    else if x.ts ≤ d.now then d.takeStep x else d
  | none => d

/-! Controls over time (R318, R322, R349). -/

/-- TIME_STEP (R318, R320). -/
def Dev.timeStep (d : Dev) (c : Control) : Dev :=
  let delta := ofTwos 72 c.arg
  if d.tb.step.isSome then d.controlResp c rcBusy 0
  else if !d.tb.set then d.controlResp c rcBadArg 0
  else if c.flag then
    match d.tb.st == tbStepWait, d.tb.pend with
    | true, some o => d.decideStep (-(nsT o)) 2 (some (c.ref, c.req))
    | _, _ => d.controlResp c rcBadArg 0
  else if delta.natAbs ≤ 2 ^ 36 then
    let d1 := d.slewBy delta
    let d2 := if d1.tb.st == tbStepWait then (d1.tbTo tbAcquire).setTb { (d1.tbTo tbAcquire).tb with pend := none } else d1
    d2.controlResp c rcOk 0
  else d.decideStep delta 1 (some (c.ref, c.req))

def execTimeStep (t : Nat) (c : Control) (s : State) : Result := run t s fun d => d.control c fun x => x.timeStep c

/-- TIME_SET (R307, R318, R321): the initial set of a device whose time is unset. -/
def Dev.timeSet (d : Dev) (c : Control) : Dev :=
  if d.tb.set then d.controlResp c rcBadArg 0
  else
    let d1 := d.setTb { d.tb with off := (c.arg : Int) - d.clk }
    (d1.initialSet 0).controlResp c rcOk 0

def execTimeSet (t : Nat) (c : Control) (s : State) : Result := run t s fun d => d.control c fun x => x.timeSet c

/-- LEAP (R322): FLAG 0 announces an inserted second, FLAG 1 a deleted one. -/
def execLeap (t : Nat) (c : Control) (s : State) : Result := run t s fun d => d.control c fun x =>
  (x.setTb { x.tb with leap := some c.flag }).controlResp c rcOk 0

/-! Beacons (R324, R325). -/

/-- The payload of a beacon but its TIME, which the lane writes as the frame leaves (R324). -/
def Dev.beaconPayload (d : Dev) (seq : Nat) : List Octet :=
  let dst := d.dstAt (d.stdTime d.nowS)
  let flags := b2n (d.tb.st == tbLocked) + 2 * b2n d.tb.leap.isSome + 4 * b2n (d.tb.leap == some true) + 8 * b2n dst
  [0xB0] ++ octetsBE seq 2 ++ octetsBE flags 1 ++ octetsBE d.tb.taiUtc 1 ++ octetsBE (toTwos 16 d.localOff) 2
    ++ octetsBE 0 9 ++ octetsBE (d.pair.epoch % 2 ^ 36) 5

/-- BEACON (R325): a stream's beacon joins the downlink jobs, with a deadline of half the period. -/
def execBeacon (t stream : Nat) (pl : Bool) (s : State) : Result := run t s fun d =>
  let on := if pl then d.plEn stream && d.beaconPlS != 0
    else d.rfEn stream && d.beaconSub stream != 255 && d.beaconS != 0
  let k := if pl then 32 + stream else stream
  let per := if pl then d.beaconPlS else d.beaconS
  let due := match NMap.find d.tb.beaconT k with | some t0 => d.passedMs t0 (1000 * per) | none => true
  if d.quiet || !d.tb.set || !on || !due then d
  else
    let n := NMap.look d.tb.beacons k 0
    let half := secT per / 2
    let via := if pl then (stream, 0, hornPhy) else (stream, d.beaconSub stream, phyOfMode (d.beaconMode stream))
    (d.setTb { d.tb with beacons := NMap.put d.tb.beacons k ((n + 1) % 65536), beaconT := NMap.put d.tb.beaconT k d.clk }).queueJob
      { Job.base .beacon none 2 d.clk (d.clk + half) (d.beaconPayload n) with
        via := some via, ar := false, secured := false, pl := pl, dst := 0xFFFF }

end Sys2Proof.Machine
end

