-- ==== Sys2Proof/Machine/Boot.lean ====
section
/-!
DEFINITION. The parts of a start: firmware slot, configuration copy, legal image, store, restoration, and how units begin
(spec 17, R437–R456; 14, R387, R393, R397; 10, R299–R302; 16, R433).
-/

namespace Sys2Proof.Machine

/-! Firmware (R444, R446, R449, R450, R452, R453). -/

/-- The image of a slot verifies (R446, R480). -/
def Dev.slotOk (d : Dev) (st : Stores) (b : Bool) : Bool :=
  match d.fwFinding (st.slot b) with
  | some 7 | some 8 => false
  | _ => true

/-- What a stop left of the slots is settled before one is chosen (R449, R452): a WRITING slot is FAILED with REASON 10; a TRIAL
that did not stop cleanly is FAILED with REASON 13, and the PREVIOUS slot is ACTIVE again. -/
def Dev.settleSlots (d : Dev) : Dev :=
  let d1 := match d.boot.br.inState slotWriting with
    | some b => d.bootTo fun r => r.failSlot b 10
    | none => d
  match d1.boot.br.inState slotTrial with
  | some b =>
    if d1.boot.br.started then
      d1.bootTo fun r => { (r.failSlot b 13).setSlot (!b) (if r.slot (!b) == slotPrevious then slotActive else r.slot (!b)) with
        actB := !b, started := false }
    else d1
  | none => d1

/-- The slot that starts (R446), none for recovery. -/
def Dev.chooseSlot (d : Dev) (st : Stores) : Option Dev :=
  let b := d.boot.br.actB
  let s := d.boot.br.slot b
  let o := d.boot.br.slot (!b)
  if (s == slotActive || s == slotTrial) && d.slotOk st b then some d
  else if (o == slotPrevious || o == slotVerified) && d.slotOk st (!b) then
    some (d.bootTo fun r => { (r.failSlot b 7).setSlot (!b) slotActive with actB := !b })
  else none

/-- The slot's image runs (R444 steps 3 to 6, R452). -/
def Dev.runSlot (d : Dev) (st : Stores) : Dev :=
  let b := d.boot.br.actB
  let m := st.slot b
  let trial := d.boot.br.slot b == slotTrial
  let d1 := if trial then d.bootTo fun r => { r with started := true } else d
  { d1 with boot := { d1.boot with
    fwVer := m.ver, cfgMin := m.cfgMin, cfgMax := m.cfgMax, stVer := m.stateVer
    trial := if trial then some d.clk else none, tAck := false, tLink := false, tCxp := false } }

/-- A slot left WRITTEN is checked again (R449, R453). -/
def Dev.recheckSlot (d : Dev) (st : Stores) : Dev :=
  match d.boot.br.inState slotWritten with
  | some b => (d.fwVerified b (st.slot b) (if b then d.boot.br.verB else d.boot.br.verA)).fwStage 0 0 0
  | none => d

/-! The configuration copy (R437, R440, R482, R487). -/

/-- The 42 words of the uplink block, as the recovery uplink keeps them (R437). -/
def Dev.uplinkWords (d : Dev) : List Word := (List.range 42).map fun i => d.cfgW (blkUplink + i)

/-- The recovery uplink is brought up to date (R437). -/
def Dev.saveUplink (d : Dev) : Dev :=
  if d.boot.br.ruV && d.boot.br.ru == d.uplinkWords then d
  else d.bootTo fun r => { r with ruV := true, ru := d.uplinkWords }

/-- Pair enrolment sets every register and GAP_TICKS to zero (R280, R281). -/
def Dev.zeroRegs (d : Dev) : Dev :=
  (d.setLeg { d.leg.st with sets := Legal.zero.sets, at0 := Legal.zero.at0 }).legSave

/-- A copy is chosen; a device that is UNENROLLED is enrolled with it before any other use, with a ledger of its own. -/
def Dev.chooseCfg (d : Dev) (st : Stores) : Dev :=
  let d1 := d.cfgChoose st.norA st.norB
  if !d1.boot.cfgOn then d1
  else
    let d2 := if d1.isEnrolled && d1.led.enrolled then d1
      else { d1.enrolWith.zeroRegs with led := { d1.led with enrolled := true, dir := { d1.led.dir with log2 := d1.dirLog2Cfg } } }
    d2.takeSecrets

/-! The legal image (R301, R302, R454). -/

/-- The legal image in force is chosen; none where neither is valid. -/
def Dev.chooseLegal (d : Dev) (st : Stores) : Option Dev :=
  let ok (b : Bool) : Bool := d.legalOk (st.legal b)
  let d0 := { d with boot := { d.boot with legAok := ok false, legBok := ok true } }
  let b := d.boot.br.legB
  if ok b then some d0 else if ok (!b) then some (d0.bootTo fun r => { r with legB := !b }) else none

/-- The image in force is used, and a check value that differs from the one recorded at the previous start blows a fuse; at 255
the device falls back to the previous image (R302). Where that is not valid either, no image is: DEDUCED,
notes/assumptions/35.md. -/
def Dev.useLegal (d : Dev) (st : Stores) : Option Dev :=
  let b := d.boot.br.legB
  let load (x : Dev) (c : Bool) : Dev := { x with leg := { x.leg with
    img := (st.legal c).settings, check := (st.legal c).check, prev := (st.legal c).check } }
  let c := (st.legal b).check
  if c == d.leg.prev then some (load d b)
  else if d.leg.ver < 255 then
    let d1 := load { d with leg := { d.leg with ver := d.leg.ver + 1, why := 6 } } b
    some (d1.raise 0x060 [c, d1.leg.ver])
  else if (if b then d.boot.legAok else d.boot.legBok) && (st.legal (!b)).check == d.leg.prev then
    some ((load (d.bootTo fun r => { r with legB := !b }) (!b)).raise 0x061 [c])
  else none

/-! The store (R379, R387, R393). -/

/-- A store never formatted, or discarded whole, is formatted with the geometry of the copy in force, and holds an empty
checkpoint (DESIGN CHOICE, notes/assumptions/33.md). A die that was lost or has retired blocks stays so. -/
def Dev.formatStore (d : Dev) (f : StartFacts) : Dev :=
  if d.sto.fixed.isSome then d
  else
    let spare := d.bpd * d.sparePct / 100
    let die (i : Nat) : Die :=
      let x := d.die i
      if x.st == 0 then ⟨1, spare, spare, 0, 0, 0, f.endur, 0, 0, 0⟩ else if x.st == 1 then x else { x with st := 2 }
    let dies := (List.range (8 * d.diesPerCh)).map fun i => (i, die i)
    let d1 := d.setSto { d.sto with
      dies := dies, w := (dies.filter fun p => p.2.st == 1).length, fixed := some d.cfgFixed, ckNo := d.sto.ckNo + 1 }
    let d2 := d1.bootTo fun r => { r with svData := d.boot.stVer }
    (d2.setSto { d2.sto with ckpts := [d2.signCkpt { d2.snapshot (d2.sto.ckNo) with mem := [], corr := [] }] }).stageMap

/-- Blocks that failed a program in the holdup are retired (R402). -/
def Dev.retireOwed (d : Dev) : Dev :=
  d.sto.dies.foldl (fun x p =>
    let n := p.2.owed
    (List.range n).foldl (fun (y : Dev) _ => y.retire p.1) (if n == 0 then x else x.setDie p.1 { p.2 with owed := 0 })) d

/-- INIT (R386, R387): every die in use answers and the MAP is valid: READY; one is missing or was being copied out: DEGRADED;
more: FAILED. -/
def Dev.initStore (d0 : Dev) (f : StartFacts) : Dev :=
  let fresh := d0.sto.fixed.isNone
  let d := d0.formatStore f
  let gone := (d.sto.dies.filter fun p => p.2.st == 1 && f.missing.contains p.1).map (·.1)
  let copying := d.sto.dies.any fun p => p.2.st == 3
  let lost (x : Dev) : Dev := gone.foldl (fun y n => y.setDie n { y.die n with st := 3 }) x
  if (!f.mapOk && !fresh) || decide (2 ≤ gone.length) || (copying && !gone.isEmpty) || decide (d.sto.w < 3) then
    let d1 := lost d
    (d1.setSto { d1.sto with st := 3 }).raise 0x092 [d1.diesLost]
  else match gone with
    | n :: _ => let d1 := lost d; (d1.setSto { d1.sto with st := 2, copy := some d.clk }).raise 0x090 [n]
    | [] => (d.setSto { d.sto with st := if copying then 2 else 1, copy := if copying then some d.clk else none }).retireOwed

/-- A stripe left open by a stop is not written any further: its area goes on with the next. -/
def Dev.skipStripes (d : Dev) : Dev :=
  d.sto.opens.foldl (fun (x : Dev) p =>
    if p.2.pos == 0 then x
    else
      let b := x.nandBand p.2.band
      x.setSto { x.sto with
        bands := NMap.put x.sto.bands p.2.band { b with next := b.next + 1 }
        opens := if b.next + 1 < x.ppb then NMap.put x.sto.opens p.1 { p.2 with pos := 0 } else NMap.del x.sto.opens p.1 }) d

/-- What was still in the staging buffer at an unclean stop was not programmed: what it held beyond the last good page is gone, and the pages
it would have taken count as TAIL_LOST (R393; DESIGN CHOICE, notes/assumptions/34.md). The stripe that was open stays as it is, and the
next begins behind it. -/
def Dev.tailScan (d : Dev) : Dev :=
  let ps := d.sto.staged
  let d := d.skipStripes
  if ps.isEmpty then d
  else (ps.foldl (fun x p => x.losePiece p) (d.setSto { d.sto with staged := [] })).countN fTailLost
    (cdiv (wordsOf ps) (max 1 d.pageWords))

/-- The last stop was clean (R393): the holdup marker's last CSN is the last CSN PD1 holds. -/
def Dev.stopClean (d : Dev) : Bool :=
  d.pw.pd1 && match d.sto.tail with | some x => x.csn == d.pw.wasCsn | none => false

/-! Restoration (R299, R397, R456). -/

/-- The newest checkpoint this image can read whose successor entries are all archived, among those `p` allows. -/
def Dev.newestCkpt (d : Dev) (p : Ckpt → Bool) : Option Ckpt :=
  bestBy (fun (a b : Ckpt) => decide (b.img.csnAt < a.img.csnAt))
    (d.sto.ckpts.filter fun c => p c && decide (c.img.sv ≤ d.boot.stVer) && d.ckptUsable c.img)

/-- The highest epoch in blocks and checkpoints held. -/
def Dev.heldEpoch (d : Dev) : Nat :=
  (d.led.blocks.map fun p => p.2.epoch).foldl max ((d.sto.ckpts.map fun c => c.img.epoch).foldl max 0)

/-- The last CSN of the archive and the device's own checkpoints (R393). -/
def Dev.archEnd (d : Dev) : Nat :=
  max ((d.led.blocks.getLast?.map fun p => p.2.last).getD 0) (((d.sto.ckpts.filter fun c => !c.peer).map fun c => c.img.csnAt).foldl max 0)

/-- The device's own state is restored: checkpoint, archive, zones, legal state, campaigns; none where no checkpoint is usable
(R397). -/
def Dev.restoreOwn (d : Dev) : Option Dev :=
  match d.newestCkpt fun c => !c.peer with
  | none => none
  | some c =>
    let d1 := (d.replay c.img).dev.balRestore
    let why := if d.leg.why == 6 then 6 else if d.leg.kept.isSome then 1 else 5
    some { d1 with
      leg := { d1.leg with st := d.leg.kept.getD d1.leg.st, why := why }
      cmd := if d.cmd.camps.isEmpty then d1.cmd else { d1.cmd with camps := d.cmd.camps }
      led := { d1.led with sentB := d1.led.acked }
      pair := { d1.pair with epoch := max d.heldEpoch c.img.epoch } }

/-- State in an older format is converted at the first start of an image with a newer one; the checkpoint in the new format is
begun before any commit (R456). -/
def Dev.migrate (d : Dev) : Dev := if d.boot.br.svData < d.boot.stVer then d.beginCkpt else d

/-! Units begin. -/

/-- Device time comes from the RTC count, or is UNSET; either way it is provisional (R321, R327). -/
def Dev.startTime (d : Dev) : Dev :=
  let b := d.tb
  match b.rtc with
  | some n => d.setTb { b with
      set := true, off := (n : Int) - d.clk, prov := true, st := tbFreerun, unc := b.rtcUnc, uncAt := d.clk }
  | none => d.setTb { b with prov := true }

/-- Operating time, cycles and restarts where PD1 holds none: from the newest record in the store (R407). -/
def Dev.startCounts (d : Dev) : Dev :=
  let r := NMap.find d.evr.fmt d.evr.newest
  let e := match d.pw.pd1, r with
    | false, some x => { d.evr with opT := x.opS * 2 ^ 36, cycles := x.cycles, warms := x.warms }
    | _, _ => d.evr
  { d with evr := { e with cycles := min 262143 (e.cycles + 1) } }

/-- Settings that units take from the copy in force when they begin: metrology, PTP, TAI_UTC_S, local pins. -/
def Dev.startUnits (d : Dev) (warm : Bool) : Dev :=
  let d1 := d.metroLoad
  let d2 := if warm then d1 else d1.setTb { d1.tb with taiUtc := d1.taiCfg, leap := none }
  let d3 := { d2 with loc := { d2.loc with pins := 2, outs := [], uarts := [] } }
  d3.logBegin.bmca

/-- The CFG domains of the field, metrology and balance wake under the configuration (R417, R433). -/
def Dev.wakeField (d : Dev) : Dev :=
  (([51, 52, 53] ++ (List.range 35).map (9 + ·)).filter d.domCond).foldl (fun (x : Dev) n => x.wakeFor n) d

/-- The uplink ports wake under their settings (R417). -/
def Dev.wakePorts (d : Dev) : Dev := ([44, 45].filter d.domCond).foldl (fun (x : Dev) n => x.wakeFor n) d

/-- A rebuild that a stop has ended (R196): its command fails, and the event says so. -/
def Dev.rebuildLost (d : Dev) : Dev :=
  match d.cmd.tab.find? fun p => p.2.kind == 0x0B && !p.2.ended with
  | some (id, _) =>
    if d.led.rebuild.st == .release then d.rebuildIdle.rebuildSummary id rcComplete
    else (d.rebuildIdle.rebuildSummary id rcFailed).raise 0x023 [3]
  | none => d

/-- The ledger accepts commits from here (R433, R445, R468): the field, metrology and balance units come up, campaigns go on, and
blocks not yet acknowledged are sent again. -/
def Dev.ledgerOpen (d : Dev) : Dev :=
  let d1 := { d with
    led := { d.led with accepts := true, isSealed := false }
    pair := { d.pair with lapse := none }
    sto := { d.sto with ckAt := d.nowS / 900 } }
  (d1.rebuildLost.resumeCamps.wakeField.metroStart).deliver

end Sys2Proof.Machine
end

