-- ==== Sys2Proof/Machine/Start.lean ====
section
/-!
DEFINITION. Cold start, the ledger's acceptance, warm restarts, and the trial of a firmware image (spec 16, R433; 17,
R443–R445, R451, R452; 18, R467).
-/

namespace Sys2Proof.Machine

/-- Latched assertions are acted on (R487, R489): an event for each, and the strongest action governs. -/
def actLatched (st : Stores) (d : Dev) : Stores × Dev :=
  match d.idn.armed with
  | none => (st, d)
  | some a =>
    let ks := (List.range 6).filter fun k => d.idn.latch.any fun x => x.1 == k && tamperAction a k != 0
    let d1 := { ks.foldl (fun x k => (x.count fTamperEvents).raise 0x0B0 [k]) d with idn := { d.idn with latch := [] } }
    if d1.isEnrolled && (d1.idn.due || ks.any fun k => tamperAction a k == 3) then eraseAll st d1 else (st, d1)

/-- The COLD_START event (R415): ARG2 says whether this is a power-up, after an outage, or after recovery. -/
def Dev.coldEvent (d : Dev) : Dev := d.raise 0x001 [d.boot.fwVer, if d.boot.cfgOn then d.cfgSeq else 0, d.boot.arg2]

/-- Recovery mode entered by a start (R443). -/
def Dev.startRecovery (d : Dev) (cause : Nat) : Dev :=
  let d1 := (d.coldEvent.recover cause).wakeFor 7
  d1.wakePorts

/-- The ledger of a device that may resume in its own role is restored: checkpoint, archive, migration, directory (R397,
R456, R161). Answers the cause of recovery where that fails. -/
def Dev.startOwn (d : Dev) (f : StartFacts) : Nat × Dev :=
  match d.restoreOwn with
  | none => (3, d)
  | some d1 =>
    if d.boot.br.svData < d.boot.stVer && !f.migOk then (6, d)
    else match d1.buildDirectory with
      | none => (7, d1)
      | some d2 => (0, d2.migrate)

/-- A device starts in its own role (R393, R459, R467): of a pair one that was PRIMARY and stopped cleanly; a single device whose archive
reaches the CSN in a valid PD1, or whose store has never been formatted, so that nothing can be missing (DEDUCED, notes/assumptions/34.md). -/
def Dev.startsOwn (d : Dev) : Bool :=
  if d.pairEn then d.stopClean && d.pw.wasPrim && !d.tamperHolds
  else d.sto.fixed.isNone || (d.pw.pd1 && decide (d.pw.wasCsn ≤ d.tailScan.archEnd))

/-- Steps 8 and 9 of a cold start (R444): the store, the role, and the units under the configuration. A device that starts in its own role
restores and stays STARTING until a lease is granted; any other is a standby (R393, R459, R467). -/
def Dev.coldUnits (d : Dev) (f : StartFacts) : Dev :=
  let own := d.startsOwn
  let d1 := d.tailScan.initStore f
  let r := if d1.sto.st == 3 then (3, d1) else if own then d1.startOwn f else (0, d1)
  if r.1 != 0 then r.2.startRecovery r.1
  else
    let d2 := r.2
    let d3 := { d2 with
      pair := { d2.pair with st := if own then 0 else 1, since := d2.clk, known := max d2.pair.known d2.heldEpoch, moved := d2.clk }
      mir := { Mirror.reset with csn0 := d2.led.csn }
      pw := { d2.pw with pd1 := true } }
    let d4 := ((d3.saveUplink.startUnits false).dispStart true d.pw.pd1).wakePorts
    if own then d4.wakeFor 50 else d4.coldEvent.dispCutEvent

/-- DK is drawn from the random source, two AES-128 keys (R486). -/
def Dev.drawDk (d : Dev) : Dev :=
  { d with draws := d.draws + 32, idn := { d.idn with dk := some (ofBE ((List.range 32).map fun i => BitVec.ofNat 8 (Config.random (d.draws + i)))) } }

/-- Steps 3 to 9 of a cold start (R444). -/
def coldStart (f : StartFacts) (st0 : Stores) (d0 : Dev) : Stores × Dev :=
  let st1 := { st0 with cfgStage := [], fwStage := [], campStage := [] }
  let dA := { d0.startTime.startCounts.drawDk with
    up := { Uplink.reset with gen := d0.up.gen + 1 }
    boot := { d0.boot with phase := 3, since := d0.clk, dramGiw := dramGiw f.dram.1 f.dram.2 } }
  let r := actLatched st1 dA.selectBoot.settleSlots
  let st := r.1
  let d := r.2
  match d.chooseSlot st with
  | none => (st, d.startRecovery 5)
  | some d1 =>
    let d2 := ((d1.runSlot st).chooseCfg st).recheckSlot st
    if !d2.boot.cfgOn then (st, d2.startRecovery 1)
    else
      let r2 := if d.idn.armed.isNone then actLatched st { d2 with idn := { d2.idn with armed := some d2.tamperAct } } else (st, d2)
      let d3 := r2.2
      if !d3.isEnrolled then (r2.1, ({ d3 with cfg := [], boot := { d3.boot with cfgOn := false, seqA := 0, seqB := 0 } } : Dev).startRecovery 1)
      else
        let d4 := { d3 with idn := { d3.idn with armed := some d3.tamperAct } }
        match (d4.chooseLegal r2.1).bind fun x => x.useLegal r2.1 with
        | none => (r2.1, d4.startRecovery 2)
        | some d5 => (r2.1, d5.coldUnits f)

/-- COLD_START (R433, R444): the supplies are good, mains is present and PD2, PD3 and PD47 to PD49 are ON. -/
def execColdStart (t : Nat) (f : StartFacts) (s : State) : Result := runS t s fun st d =>
  if d.boot.phase == 2 && d.aocHigh 0 && [2, 3, 47, 48, 49].all d.domOn then coldStart f st d else (st, d)

/-- LEDGER_READY of a primary (R433, R459): restoration is complete, a lease has been granted, HOLDUP_OK is set, and a
migration's checkpoint is valid: the ledger accepts commits and COLD_START is committed. -/
def Dev.ledgerReady (d : Dev) : Dev :=
  if d.boot.phase != 3 || d.boot.recovery != 0 || d.led.accepts || d.pw.hu.isSome || !d.primary || !d.aocHigh 1 || !d.domOn 50
      || d.boot.br.svData < d.boot.stVer then d
  else d.ledgerOpen.coldEvent.dispCutEvent

/-! Warm restart (R445). -/

/-- ACTION of a WARM_RESTART, none where ARG holds anything else. -/
def restartAction (c : Control) : Option Nat := if c.arg < 3 then some c.arg else none

/-- Why a WARM_RESTART is refused, as a RESULT of R349. -/
def Dev.restartRefusal (d : Dev) (a : Nat) : Option Nat :=
  let noSlot := (d.boot.br.inState slotVerified).isNone
  let noLegal := !(if d.boot.br.legB then d.boot.legAok else d.boot.legBok)
  if (a == 1 && noSlot) || (a == 2 && noLegal) then some rcBadArg
  else if (a == 1 && (d.boot.br.inState slotTrial).isSome) || d.cfgBusy || d.fwBusy || d.boot.restart.isSome then some rcBusy
  else none

/-- Whether a restart is cold (R443, R445). -/
def Dev.restartCold (d : Dev) (st : Stores) (a : Nat) (flag : Bool) : Bool :=
  let b := (d.boot.br.inState slotVerified).getD false
  let m := st.slot b
  flag || d.boot.recovery != 0 || (a == 1 && (m.coldOnly || m.stateVer != d.boot.br.svData))

/-- Open transactions whose job or wait a stop has ended queue again (R207, R231). -/
def Dev.reopenTxns (d : Dev) : Dev :=
  let back (t : Txn) : Txn := if t.st == .job || t.st == .resp then { t with st := .opened } else t
  { d with cmd := { d.cmd with txns := NMap.mapAll d.cmd.txns fun _ t => back t } }

/-- A warm restart begins (R445 steps 1 to 5): field work stops, the commit and event inputs are drained, metrology closes, the
store is closed, and every domain above PD2 closes. A restart that is to be cold writes the holdup marker too (DEDUCED,
notes/assumptions/36.md). -/
def Dev.beginRestart (d : Dev) (a : Nat) (cold : Bool) : Dev :=
  let d1 := d.haltField.reopenTxns
  let d2 := (d1.drainInput.drainEvents.formatAll).metroStop
  let d3 := d2.dispStop.flushStore.writeTail.clearStarted.pinsOut
  let d4 := { d3 with
    led := { d3.led with accepts := false, inVal := [], aside := [] }
    boot := { d3.boot with phase := 4, restart := some (a, cold, d.clk), cStage := 0, fStage := 0 } }
  ((List.range 53).map (3 + ·)).foldl (fun (x : Dev) n => x.closeDom n 3) d4

/-- The boot record as ACTION leaves it (R445, R449, R454). -/
def Dev.applyAction (d : Dev) (a : Nat) : Dev :=
  match a, d.boot.br.inState slotVerified with
  | 1, some b => d.bootTo fun r =>
      { (r.setSlot b slotTrial).setSlot (!b) (if r.slot (!b) == slotActive then slotPrevious else r.slot (!b)) with actB := b }
  | 2, _ => d.bootTo fun r => { r with legB := !r.legB }
  | _, _ => d

/-- CONTROL OP 4 with ACTION `a` (R349, R445): answered first, then carried out. -/
def warmRestart (t : Nat) (c : Control) (a : Nat) (s : State) : Result := runS t s fun st d =>
  (st, d.controlAny c fun x =>
    match restartAction c with
    | none => x.controlResp c rcBadArg 0
    | some n =>
      if n != a then x
      else match x.restartRefusal a with
        | some r => x.controlResp c r 0
        | none =>
          let cold := x.restartCold st a c.flag
          ((x.controlResp c 0 0).applyAction a).beginRestart a cold)

/-- WARM_RESTART (R445): ACTION 0 applies the configuration chosen under R440. -/
def execWarmRestart (t : Nat) (c : Control) (s : State) : Result := warmRestart t c 0 s

/-- WARM_RESTART_FIRMWARE (R445, R449): ACTION 1 starts the VERIFIED slot. -/
def execWarmRestartFirmware (t : Nat) (c : Control) (s : State) : Result := warmRestart t c 1 s

/-- WARM_RESTART_LEGAL (R445, R454): ACTION 2 starts the other legal image. -/
def execWarmRestartLegal (t : Nat) (c : Control) (s : State) : Result := warmRestart t c 2 s

/-- What every warm restart begins with: what DRAM keeps stands, the rest is empty; it is counted (R407, R445). -/
def Dev.warmFresh (d : Dev) : Dev :=
  { d with
    q := Queues.reset, fr := Field.reset, air := { Air.reset with seq := d.air.seq, nextJ := d.air.nextJ }
    pl := { Pline.reset with route := d.pl.route, rreq := d.pl.rreq }
    mir := { Mirror.reset with csn0 := d.led.csn }
    up := { Uplink.reset with gen := d.up.gen + 1, lease := d.up.lease, hbs := d.up.hbs, hbSeq := d.up.hbSeq, pairSeq := d.up.pairSeq }
    evr := { d.evr with warms := min 262143 (d.evr.warms + 1) }
    boot := { d.boot with phase := 3, since := d.clk, restart := none }
    sto := { d.sto with st := if d.sto.st == 0 then 1 else d.sto.st }
    pair := { d.pair with dead := false } }

/-- The WARM_START event (R415). -/
def Dev.warmEvent (d : Dev) : Dev := d.raise 0x002 [d.boot.fwVer, if d.boot.cfgOn then d.cfgSeq else 0]

/-- A warm restart that ends in recovery mode for a cause (R443). -/
def Dev.warmRecovery (d : Dev) (cause : Nat) : Dev :=
  let d1 := [3, 47, 48, 49, 55, 7].foldl (fun (x : Dev) n => x.wakeFor n) (d.warmFresh.warmEvent.recover cause)
  d1.wakePorts

/-- A warm restart's device under its new images and settings (R445 steps 6 to 9). -/
def Dev.warmUnits (d : Dev) : Dev :=
  let d0 := d.warmFresh
  let d1 := { d0 with leg := { d.leg with why := max 1 d.leg.why, due := none }, idn := { d.idn with armed := some d.tamperAct } }
  let d2 := (d1.saveUplink.startUnits true).dispStart false true
  let d3 := [3, 46, 47, 48, 49, 55].foldl (fun (x : Dev) n => x.wakeFor n) d2
  let d4 := (if d.pair.st == 1 then d3 else d3.wakeFor 50).wakePorts
  let ev (x : Dev) : Dev := x.warmEvent.dispCutEvent
  if d.primary then ev ({ d4 with led := { d4.led with sentB := d4.led.acked } } : Dev).ledgerOpen else ev d4

/-- A warm restart comes back up (R445 steps 6 to 9): firmware, configuration and legal image are chosen again; where the image
that starts cannot go on from DRAM, the start is cold. -/
def warmResume (st0 : Stores) (d0 : Dev) : Stores × Dev :=
  let st := { st0 with cfgStage := [], fwStage := [] }
  match d0.chooseSlot st with
  | none => (st, d0.warmRecovery 5)
  | some d1 =>
    let d2 := ((d1.runSlot st).chooseCfg st).recheckSlot st
    if d2.boot.stVer != d2.boot.br.svData then (st, d0.coldRestart true)
    else if !d2.boot.cfgOn then (st, d2.warmRecovery 1)
    else match (d2.chooseLegal st).bind fun x => x.useLegal st with
      | none => (st, d2.warmRecovery 2)
      | some d3 => (st, d3.warmUnits)

/-- WARM_RESTART_RESUME (R445): every domain above PD2 is OFF. A restart that is to be cold starts cold. -/
def execWarmRestartResume (t : Nat) (s : State) : Result := runS t s fun st d =>
  match d.boot.restart with
  | some (_, cold, _) =>
    if d.boot.phase != 4 || ((List.range 53).map (3 + ·)).any fun n => (d.dom n).st != 0 && (d.dom n).st != 5 then (st, d)
    else if cold then (st, d.coldRestart true)
    else warmResume st d
  | none => (st, d)

/-! Trials (R451, R480). -/

/-- Every RUN domain a device in its role runs is ON (R451, R458). -/
def Dev.runDomsOn (d : Dev) : Bool :=
  [2, 3, 46, 47, 48, 49, 55].all d.domOn && (d.pair.st == 1 || d.domOn 50)

/-- A trial meets its conditions (R451): 600 s in one start with every RUN domain ON and the cores checking in; a primary has
committed a BLOCK_ACK for a block sealed under the image, a standby has heard its peer on both paths. -/
def Dev.trialGood (d : Dev) : Bool :=
  match d.boot.trial with
  | some t0 =>
    d.passedMs t0 600000 && d.runDomsOn && !d.pair.dead
      && (if d.primary then d.boot.tAck else d.pair.st == 1 && d.boot.tLink && d.boot.tCxp)
  | none => false

/-- TRIAL_CONFIRM (R449, R451, R480): the slot is ACTIVE and the other PREVIOUS; the package may then revoke a firmware key slot
other than the one that signed it. -/
def execTrialConfirm (t : Nat) (revoke : Option Nat) (s : State) : Result := runS t s fun st d =>
  if !d.trialGood || d.boot.phase != 3 then (st, d)
  else
    let b := d.boot.br.actB
    let m := st.slot b
    let d1 := (d.bootTo fun r => { (r.setSlot b slotActive).setSlot (!b) (if r.slot (!b) == slotFailed then slotFailed else slotPrevious) with
      started := false })
    let d2 := { d1 with boot := { d1.boot with trial := none }, sto := { d1.sto with ckpts := keepCkpts d1.ckptKeep d1.sto.ckpts } }
    match revoke with
    | some k =>
      if k < 4 && k != m.keyId m.len && d2.fwKeyOk k then (st, { d2 with idn := { d2.idn with fwRev := d2.idn.fwRev + 2 ^ k } })
      else (st, d2)
    | none => (st, d2)

/-- TRIAL_TIMEOUT (R449, R451): a trial not confirmed 1,800 s after its start fails, and the device restarts into the previous
image. -/
def execTrialTimeout (t : Nat) (s : State) : Result := run t s fun d =>
  match d.boot.trial with
  | some t0 =>
    if !d.passedMs t0 1800000 || d.boot.phase != 3 || d.pw.hu.isSome then d
    else
      let b := d.boot.br.actB
      let cold := d.boot.br.stateVer (!b) != d.boot.br.svData
      let d1 := d.bootTo fun r =>
        { (r.failSlot b 13).setSlot (!b) (if r.slot (!b) == slotPrevious then slotActive else r.slot (!b)) with actB := !b }
      ({ d1 with boot := { d1.boot with trial := none } } : Dev).beginRestart 1 cold
  | none => d

end Sys2Proof.Machine
end

