-- ==== Sys2Proof/Machine/Pair.lean ====
section
/-!
DEFINITION. The pair: heartbeats, leases, shipping, takeover and handover (spec 12, R341, R343, R356–R358; 14, R394; 18,
R458–R476).
-/

namespace Sys2Proof.Machine

/-! The counters of the pair status block (R476). -/

def fTakeRefused : Fld := ⟨0x04C4, 23, 6⟩
def fTakeovers : Fld := ⟨0x04C5, 35, 18⟩
def fHandovers : Fld := ⟨0x04C5, 17, 0⟩
def fHbMissLink : Fld := ⟨0x04C6, 35, 18⟩
def fHbMissCxp : Fld := ⟨0x04C6, 17, 0⟩
def fCkptShipped : Fld := ⟨0x04C7, 35, 18⟩
def fJournalGap : Fld := ⟨0x04C7, 17, 0⟩

/-! What a device says of itself (R350, R356, R357). -/

/-- A handover has come to its last step (R472): block and checkpoint are shipped. -/
def Dev.handedOver (d : Dev) : Bool := d.pair.st == 4 && d.pair.handed && d.led.signQ.isEmpty

/-- ROLE of region 0x00 and the mirror header (R350, R458). -/
def Dev.role (d : Dev) : Nat :=
  if d.boot.recovery != 0 then 2 else if d.primary || (d.pair.st == 4 && !d.handedOver) then 1 else 0

/-- EPOCH as a device says it (R350, R356, R465): what it holds; of a standby, the highest it knows. -/
def Dev.epochSaid (d : Dev) : Nat := if d.follows then max d.pair.epoch d.pair.known else d.pair.epoch

/-- The half second of device time, or while that is not set of the running axis, in which the device now is (R356). -/
def Dev.beat (d : Dev) : Nat := (if d.tb.set then d.now else d.clk) * 2 / 2 ^ 36

/-- HEARTBEAT (R356, R465). A device that asks to become primary sends ROLE 1. -/
def execHeartbeat (t : Nat) (s : State) : Result := run t s fun d =>
  if d.boot.phase != 3 || d.beat == d.up.hbAt || !d.headUp then d
  else
    let n := (d.up.hbSeq + 1) % 2 ^ 36
    let role := if d.pair.st == 2 && d.boot.recovery == 0 then 1 else d.role
    let body := [pk [(role, 35, 34), (b2n d.leased, 33, 33), (d.up.shed, 32, 30), (d.tb.st, 29, 27)], W n] ++ dw d.now
      ++ [W d.epochSaid] ++ dw d.lastCsn ++ [W d.bnoSealed, W d.led.acked, pk [(d.uncField, 35, 18)]]
    let recent := d.up.hbs.filter fun h => d.withinUs h.2.1 1500000
    ({ d with up := { d.up with hbSeq := n, hbAt := d.beat, hbs := (n, d.clk, d.now) :: recent } } : Dev).send 0 0x40 0 body

/-- The 50 ms interval of the running axis (R464). -/
def Dev.interval (d : Dev) : Nat := d.clk * 20 / 2 ^ 36

/-- A message to the peer on its sessions and on the pair link alike (R338, R357). -/
def Dev.sendPair (d : Dev) (typ : Nat) (body : List Word) : Dev :=
  let q := d.nextSeq 1
  if !d.pair.link && !d.sessUp 2 && !d.sessUp 3 then d
  else
    let d1 := { d with up := { d.up with txSeq := NMap.put d.up.txSeq 1 (if q = 2 ^ 36 - 1 then 1 else q + 1) } }
    let d2 := (d1.sendOn 1 0 typ q 0 body).sendOn 1 1 typ q 0 body
    if d.pair.link then d2.sendLink typ q body else d2

/-- PAIR_HB_SEND (R30, R357). In TAKING_OVER ROLE is 1 once the grant has come (DEDUCED, notes/assumptions/37.md). -/
def execPairHbSend (t : Nat) (s : State) : Result := run t s fun d =>
  if d.boot.phase != 3 || !d.pairEn || d.pair.dead || d.interval == d.pair.outAt then d
  else
    let n := (d.up.pairSeq + 1) % 2 ^ 16
    let role := if d.pair.st == 2 && d.pair.granted && d.boot.recovery == 0 then 1 else d.role
    let body := [pk [(role, 35, 34), (b2n d.leased, 33, 33), (b2n (!d.pair.dead), 32, 32), (n, 31, 16)], W d.epochSaid]
      ++ dw d.lastCsn
    ({ d with up := { d.up with pairSeq := n }, pair := { d.pair with outAt := d.interval } } : Dev).sendPair 0x42 body

/-- CORE_WATCHDOG (R30): the service cores have not checked in for 2 s. -/
def execCoreWatchdog (t : Nat) (s : State) : Result := run t s fun d =>
  if d.boot.phase == 3 then { d with pair := { d.pair with dead := true } } else d

/-- LAST_GASP from the peer (R358, R464): recorded; it declares nothing. -/
def execLastGasp (t : Nat) (body : List Word) (s : State) : Result := run t s fun d =>
  if d.boot.phase == 3 then { d with up := { d.up with peerGasp := some body } } else d

/-- PAIR_BLOCK_LOCK (R66, R459, R460): 64 consecutive valid sync headers on the pair link. -/
def execPairBlockLock (t : Nat) (line : List LineBlock) (s : State) : Result := run t s fun d =>
  if d.pairEn && d.domOn 49 && gainsLock line then { d with pair := { d.pair with link := true } } else d

/-- PAIR_BLOCK_LOCK_LOST (R66, R460): 16 invalid sync headers in 64 blocks. -/
def execPairBlockLockLost (t : Nat) (line : List LineBlock) (s : State) : Result := run t s fun d =>
  if losesLock line then { d with pair := { d.pair with link := false } } else d

/-! Shipping (R461–R463). -/

/-- Signed blocks from a BNO on are shipped (R461). -/
def Dev.shipFrom (d : Dev) (bno : Nat) : Dev :=
  (d.led.blocks.filter fun p => decide (bno ≤ p.1) && p.2.sig.isSome).foldl (fun x p => x.shipBlock p.2) d

/-- The first signed block above the peer's LAST_CSN. -/
def Dev.nextShip (d : Dev) : Option Block :=
  (d.led.blocks.find? fun p => decide (d.pair.pCsn < p.2.last) && p.2.sig.isSome).map fun p => p.2

/-- A block between the peer's LAST_CSN and `b` has left the archive. -/
def Dev.shipGap (d : Dev) (b : Block) : Bool := decide (d.pair.pCsn + 1 < b.first)

/-- SHIP_RETRY (R461): the peer's LAST_CSN has not advanced to a sealed block for 1 s. -/
def execShipRetry (t : Nat) (s : State) : Result := run t s fun d =>
  match d.nextShip with
  | some b =>
    if !(d.pair.st == 3 || d.pair.st == 4) || !d.pair.link || !d.passedMs (max d.pair.moved b.sealClk) 1000 then d
    else
      let d1 := { d with pair := { d.pair with moved := d.clk } }
      if !d.shipGap b then d1.shipFrom b.bno else if d.sto.cur.isSome then d1 else d1.beginCkpt
  | none => d

/-- A message leaves by the pair link under the next MSG_SEQ. -/
def Dev.linkMsg (d : Dev) (typ : Nat) (body : List Word) : Dev :=
  let q := d.nextSeq 1
  ({ d with up := { d.up with txSeq := NMap.put d.up.txSeq 1 (if q = 2 ^ 36 - 1 then 1 else q + 1) } } : Dev).sendLink typ q body

/-- A valid checkpoint is shipped, part after part (R462); one on demand is followed by the blocks from its BNO_OPEN (R461). -/
def Dev.shipCkpt (d : Dev) (c : Ckpt) : Dev :=
  if !d.pairEn || !d.pair.link || !(d.pair.st == 3 || d.pair.st == 4) then d
  else
    let gap := (d.nextShip.map d.shipGap).getD false
    let d1 := ({ d with
      pair := { d.pair with shipCk := some c.img.epoch, handed := d.pair.st == 4 && c.img.csnAt == d.lastCsn } } : Dev).count fCkptShipped
    let d2 := c.parts.foldl (fun x p => x.linkMsg 0x60 p) d1
    if gap then d2.shipFrom c.img.bno else d2

/-- CHECKPOINT_VALID (R394, R456, R462): the trailer is written once every word is in the staging buffer. STATE_VER_DATA rises with the
first checkpoint of a newer format. -/
def execCheckpointValid (t : Nat) (s : State) : Result := run t s fun d =>
  match d.sto.cur with
  | some c =>
    if !d.ckptStaged c then d else
    let d1 := (d.setSto { d.sto with cur := none }).ckptValid c
    let d2 := if d1.boot.br.svData == c.img.sv then d1 else d1.bootTo fun r => { r with svData := c.img.sv }
    d2.shipCkpt c
  | none => d

/-- The highest BNO acknowledged by entries of a block (R184). -/
def Block.acks (b : Block) : Nat :=
  (b.entries.map fun e => if e.typ == 6 then (e.body.getD 0 0).toNat else 0).foldl max 0

/-- A block of another device is taken into the archive, with its journal words; blocks of an older epoch from its BNO on give
way to it (R461, R465). -/
def Dev.keepBlock (d : Dev) (b0 : Block) (jour : List (Nat × List Word)) : Dev :=
  let b := { b0 with sealClk := d.clk, sent := none, resends := 0 }
  let d1 := (d.led.blocks.filter fun p => decide (b.bno ≤ p.1) && decide (p.2.epoch < b.epoch)).foldl (fun x p => x.dropBlock p.1) d
  if (NMap.find d1.led.blocks b.bno).isSome then d1
  else
    let d2 := { d1 with led := { d1.led with blocks := NMap.put d1.led.blocks b.bno b, acked := max d1.led.acked b.acks } }
    (jour.foldl (fun x j => x.journal j.1 j.2) d2).storeItem 1 b.bno b.words

/-- A checkpoint under receipt is discarded and counted (R462): the spec names no counter, BAD_SEG is taken (DESIGN CHOICE,
notes/assumptions/68.md). -/
def Dev.dropPart (d : Dev) : Dev := ({ d with pair := { d.pair with part := none } } : Dev).count fBadSeg

/-- The section a part may carry next, as (TYPE, OFFSET): the next words of the section under way, or where that is whole the first of the
next section that has any. -/
def PartRx.due (x : PartRx) : Option (Nat × Nat) :=
  let ds := (descriptors x.head).filter fun p => p.2.1 != 0
  match x.got with
  | [] => ds.head?.map fun p => (p.1, 0)
  | (typ, n, _) :: _ =>
    match ds.dropWhile fun p => p.1 != typ with
    | p :: r => if n < p.2.1 then some (typ, n) else r.head?.map fun q => (q.1, 0)
    | [] => none

/-- What has come with a further part. -/
def PartRx.take (x : PartRx) (p : CkptPart) : PartRx :=
  let got := match x.got with
    | (typ, n, b) :: r => if typ == p.typ then (typ, n + p.n, b.join p.body) :: r else (p.typ, p.n, p.body) :: x.got
    | [] => [(p.typ, p.n, p.body)]
  { x with next := p.part + 1, got := got }

/-- What is under receipt once a part has joined; none where the part is missing, out of order, of another checkpoint, or not laid out as
R462 says. -/
def partTaken (x : Option PartRx) (p : CkptPart) : Option PartRx :=
  let sized := decide (1 ≤ p.n) && decide (p.n ≤ partWords) && p.body.kind p.typ
    && (match p.body with | .words ws => ws.length == p.n | _ => true)
  if !sized then none
  else if p.part == 0 then
    match p.body with
    | .words ws => if p.typ == 0 && p.off == 0 then some ⟨p.no, 1, ws, []⟩ else none
    | _ => none
  else match x with
    | some r => if r.no == p.no && r.next == p.part && r.due == some (p.typ, p.off) then some (r.take p) else none
    | none => none

/-- The last part has come (R462): the checkpoint is stored with SOURCE 1 where everything R396 asks holds. -/
def Dev.ckptArrived (d : Dev) (x : PartRx) : Dev :=
  let c := snapshotOf x.head x.got
  let n := 24 + 4 * (descriptors x.head).length
  if c.no == x.no && ckptSound d.idn.peerKey (d.idW 3).toNat x.head x.got then
    let k : Ckpt := ⟨true, c, (x.head.getD n 0).toNat, ofWords32 ((x.head.drop (n + 1)).take 12), ofWords32 ((x.head.drop (n + 13)).take 12)⟩
    ((({ d with pair := { d.pair with part := none } } : Dev).ckptValid k).count fCkptShipped).storeItem 4 (2 * c.no + 1) k.words
  else d.dropPart

/-- CKPT_SHIP (R462): a part of a checkpoint arrives on the pair link. -/
def execCkptShip (t : Nat) (p : CkptPart) (s : State) : Result := run t s fun d =>
  if d.pair.st != 1 || !d.pair.link || !(d.sto.st == 1 || d.sto.st == 2) then d
  else
    let d0 := if p.part == 0 && d.pair.part.isSome then d.dropPart else d
    match partTaken d0.pair.part p with
    | none => d0.dropPart
    | some x => if p.last then d0.ckptArrived x else { d0 with pair := { d0.pair with part := some x } }

/-- IN_SYNC (R463). A primary judges its standby by what it has shipped and by the LAST_CSN reported (DEDUCED,
notes/assumptions/37.md). -/
def Dev.inSync (d : Dev) : Bool :=
  if d.pair.st == 1 then
    (d.sto.st == 1 || d.sto.st == 2) && (d.sto.ckpts.any fun c => c.peer && decide (d.pair.known ≤ c.img.epoch))
      && (decide (d.pair.pCsn ≤ d.lastCsn) || (match d.heldBlock with
        | some b => decide (d.now < b.sealT + secT 1)
        | none => false))
  else
    d.primary && d.pair.pRole == 0 && d.pair.shipCk == some d.pair.epoch
      && d.led.blocks.all fun p => decide (p.2.last ≤ d.pair.pCsn) || d.withinUs p.2.sealClk 1000000

/-! Roles change (R466–R472). -/

/-- The device is STANDBY (R458): it runs no field unit, ledger, metrology, balance engine or display, and no PTP; the state it
held beyond blocks and checkpoints is discarded. -/
def Dev.toStandby (d : Dev) : Dev :=
  let d1 := d.haltField.metroStop.dispStop
  let d2 := { d1 with
    q := Queues.reset, cmd := Commands.reset, bal := Balance.reset
    led := { Ledger.reset with
      enrolled := d1.led.enrolled, blocks := d1.led.blocks, signQ := d1.led.signQ, prev := d1.led.prev, acked := d1.led.acked
      dir := { DirSet.empty with gen := d1.led.dir.gen, log2 := d1.led.dir.log2 } }
    pair := { d1.pair with
      st := 1, since := d.clk, known := max d1.pair.known d1.pair.epoch, granted := false, fetch := none, head := none
      restored := false, hand := 0, handed := false, ret := none, lapse := none, part := none, missN := 0, sickN := 0 } }
  let d3 := (d2.setTb { d2.tb with prov := true }).bmca
  let d4 := if d3.tb.set then d3.tbTo tbFreerun else d3
  ((List.range 56).filter fun n => (8 ≤ n && n ≤ 43) || (4 ≤ n && n ≤ 6) || (50 ≤ n && n ≤ 54)).foldl
    (fun (x : Dev) n => x.closeDom n 1) d4

/-- A takeover that ends without a commit (R467). -/
def Dev.takeRefused (d : Dev) : Dev :=
  ((({ d with pair := { d.pair with
    st := 1, since := d.clk, granted := false, fetch := none, head := none, restored := false, hand := 0 } } : Dev).count
      fTakeRefused).bmca).closeDom 50 1

/-- The archive holds every block from a BNO on, as far as it goes (R468). -/
def Dev.unbrokenFrom (d : Dev) (bno : Nat) : Bool :=
  match (d.led.blocks.filter fun p => decide (bno ≤ p.1)).map fun p => p.2 with
  | [] => true
  | b :: r => b.bno == bno && (lastUnbroken b r).bno == (r.getLast?.getD b).bno

/-- The newest usable state under an epoch (R468). -/
def Dev.usableCkpt (d : Dev) (epoch : Nat) : Option Ckpt :=
  let top := ((d.led.blocks.getLast?.map fun p => p.2).map Block.last).getD 0
  d.newestCkpt fun c => decide (epoch ≤ c.img.epoch) && decide (c.img.csnAt ≤ top || d.led.blocks.isEmpty)
    && d.unbrokenFrom c.img.bno

/-- A standby that has declared failure, or received a handover, takes over where it can (R464, R467, R468 step 1). -/
def Dev.takeOver (d : Dev) (hand : Nat) : Dev :=
  if d.pair.st != 1 || !d.pairEn || d.boot.phase != 3 || d.boot.recovery != 0 || d.pw.hu.isSome || d.sto.st == 3 || d.sto.st == 0
      || (d.usableCkpt d.pair.known).isNone then d
  else
    ((({ d with pair := { d.pair with
      st := 2, since := d.clk, granted := false, fetch := none, head := none, restored := false, hand := hand
      old := d.pair.known } } : Dev).bmca).wakeFor 50)

/-- The entries that a takeover begins with (R468, R469, R472): a VOID_RANGE entry and TAKEOVER, or after a handover HANDBACK or
SWAP alone. `b` is the highest block both hold. -/
def Dev.firstCommits (d : Dev) (b : Option Block) : Dev :=
  if d.pair.hand != 0 then (d.raiseNow (if d.pair.hand == 2 then 0x0A2 else 0x0A1) [d.pair.epoch]).2
  else
    let l := (b.map Block.last).getD (d.led.csn - 1)
    let body := dw (l + 1) ++ dw (l + 2 ^ 28)
      ++ [W ((b.map Block.epoch).getD d.pair.old), W d.pair.epoch, W ((b.map Block.bno).getD 0)]
    let d1 := ({ d with led := { d.led with csn := l + 2 ^ 28 + 1 } } : Dev).commit (mkEntry 0x0C 0 d.now none 0 body)
    (d1.raiseNow 0x0A0 [d.pair.epoch]).2

/-- Slots and commands whose journal words are missing (R470). -/
def Dev.journalGaps (d : Dev) (slots cmds : List Nat) : Dev :=
  let d1 := d.countN fJournalGap (slots.length + cmds.length)
  let d2 := slots.eraseDups.foldl (fun x n => x.commit (stateEntry 1 x.now n (x.nonet n) (x.nonet n) 4 0 0)) d1
  cmds.eraseDups.foldl (fun x id =>
    match x.cmd? id with
    | some c => if c.ended then x else { c with ok := 0 } |> fun c' => x.finalSummary c' none
    | none => x) d2

/-- The takeover is carried out (R467–R470): the state is restored, the first commits are made, and the device is PRIMARY. -/
def Dev.takeNow (d : Dev) : Dev :=
  match d.usableCkpt d.pair.old with
  | none => d.takeRefused
  | some c =>
    let p := d.replay c.img
    let last := d.led.blocks.getLast?.map fun x => x.2
    match p.dev.balRestore.buildDirectory with
    | none => d.recover 7
    | some d1 =>
      let d2 := { d1 with
        pair := { d1.pair with st := 3, since := d.clk, moved := d.clk, shipped := 0, shipCk := none, lapse := none, ret := none }
        leg := { d1.leg with why := 4 }
        led := { d1.led with accepts := true, isSealed := false, sentB := (last.map Block.bno).getD 0 }
        mir := { Mirror.reset with csn0 := d1.led.csn } }
      let d3 := (d2.legSave.firstCommits last).journalGaps p.slots p.cmds
      (({ d3 with pair := { d3.pair with hand := 0 } } : Dev).count fTakeovers).ledgerOpen

/-- A takeover goes on once the grant has come, the fetch has ended and restoration is complete. -/
def Dev.tryTake (d : Dev) : Dev :=
  if d.pair.st == 2 && d.pair.granted && d.pair.restored && d.pair.head.isSome && d.domOn 50 && d.aocHigh 1 then d.takeNow else d

/-- LEDGER_READY (R433, R468). -/
def execLedgerReady (t : Nat) (s : State) : Result := run t s fun d =>
  if d.pair.st == 2 then ({ d with pair := { d.pair with restored := true } } : Dev).tryTake else d.ledgerReady

/-- A takeover grant (R465, R468 step 2): after a failure the blocks above the device's own are fetched; a handover leaves nothing
to fetch. While a tamper input holds the device out, the grant goes unused (R487). -/
def Dev.takeGranted (d : Dev) (epoch : Nat) : Dev :=
  if d.tamperHolds then d.takeRefused
  else
    let d1 := { d with pair := { d.pair with granted := true, epoch := epoch, known := epoch } }
    if d.pair.hand != 0 then ({ d1 with pair := { d1.pair with head := some d.bnoSealed } } : Dev).tryTake
    else
      let q := d1.nextSeq 0
      let d2 := d1.send 0 0x05 0 [W (d1.bnoSealed + 1), W (2 ^ 36 - 1)]
      { d2 with pair := { d2.pair with fetch := some q } }

/-- The fetch ends (R468 steps 2 and 3): the head end holds blocks up to `bno`; those above go to it with RESEND 1. -/
def Dev.fetchEnds (d : Dev) (bno : Nat) : Dev :=
  let d1 := (d.led.blocks.filter fun p => decide (bno < p.1)).foldl (fun x p => x.sendBlock p.2 true)
    { d with pair := { d.pair with fetch := none, head := some bno } }
  d1.tryTake

/-- The journal words behind a shipped block's trailer, by CSN (R461; layout: DESIGN CHOICE, notes/assumptions/68.md). -/
def journalOf : Nat → List Word → List (Nat × List Word)
  | 0, _ => []
  | fuel + 1, ws =>
    match ws with
    | a :: b :: n :: r => (joinW a b, r.take n.toNat) :: journalOf fuel (r.drop n.toNat)
    | _ => []

/-- A block that has come is kept; an invalid one, and each entry of a reserved TYPE in one kept, is counted as BAD_SEG (R179, R187; DESIGN
CHOICE, notes/assumptions/68.md). -/
def Dev.takeBlock (d : Dev) (ws : List Word) : Dev :=
  match Block.ofWords ws with
  | none => d.count fBadSeg
  | some x => (d.keepBlock x.1 (journalOf x.2.length x.2)).countN fBadSeg (x.1.entries.filter Entry.reserved).length

/-- LEDGER_BLOCK (R341, R461, R468): its words are B0 and the block. FETCH 1 brings a block fetched in TAKING_OVER, FETCH 0 one shipped to a
standby over the pair link with its journal words. -/
def execLedgerBlock (t ref : Nat) (ws : List Word) (s : State) : Result := run t s fun d =>
  if bitOf (ws.getD 0 0) 35 then
    if d.pair.st == 2 && d.pair.fetch.isSome && (ref == 0 || d.pair.fetch == some ref) then d.takeBlock (ws.drop 1) else d
  else if d.pair.st == 1 && d.pair.link && d.boot.phase == 3 then d.takeBlock (ws.drop 1)
  else d

/-- LEDGER_ACK (R191, R343, R468): in TAKING_OVER one that answers the BLOCK_FETCH ends it. A block sealed under a trial image that
is acknowledged counts for the trial (R451). -/
def execLedgerAck (t port ref bno csn : Nat) (s : State) : Result := run t s fun d =>
  if d.pair.st == 2 then if d.pair.fetch == some ref then d.fetchEnds bno else d
  else
    let d1 := d.ledgerAck port bno csn
    let own := d.led.blocks.any fun p => decide (d.led.acked < p.1) && decide (p.1 ≤ d1.led.acked) && (match d.boot.trial with
      | some t0 => decide (t0 ≤ p.2.sealClk)
      | none => false)
    if own then { d1 with boot := { d1.boot with tAck := true } } else d1

/-! Leases (R356, R465–R467). -/

/-- The lease ends, by a LEASE or by lapsing (R356, R466): commits are counted from here. -/
def Dev.leaseEnds (d : Dev) : Dev :=
  if d.up.lease.isNone then d
  else
    let d1 := ({ d with up := { d.up with lease := none } } : Dev).count fLeaseLost
    (if d.primary then { d1 with pair := { d1.pair with lapse := some d1.led.csn } } else d1).raise 0x0A3
      [d.up.lastReq / 2 ^ 36, d.up.lastReq % 2 ^ 36]

/-- A lease whose time has passed has lapsed. -/
def Dev.leaseDue (d : Dev) : Dev := if d.up.lease.isSome && !d.leased then d.leaseEnds else d

/-- LEASE_EXPIRY (R356): 1,500 ms after the last granted T_REQ. -/
def execLeaseExpiry (t : Nat) (s : State) : Result := run t s Dev.leaseDue

/-- A granted lease takes effect (R356, R467): what it means depends on the pair state. -/
def Dev.leaseGranted (d : Dev) (at' tReq epoch : Nat) : Dev :=
  let until' := at' + usT 1500000
  let newer := match d.up.lease with | some e => decide (e ≤ until') | none => true
  let d1 := if newer then { d with up := { d.up with lease := some until', lastReq := tReq } } else d
  let hold (x : Dev) : Dev := { x with pair := { x.pair with epoch := epoch, known := max x.pair.known epoch } }
  match d.pair.st with
  | 0 =>
    if !d.pairEn then (hold { d1 with pair := { d1.pair with st := 6, since := d.clk } })
    else if epoch == d.pair.epoch then { d1 with pair := { d1.pair with st := 3, since := d.clk, moved := d.clk } }
    else (hold d1).toStandby
  | 2 =>
    if d.pair.granted then d1
    else if max d.pair.epoch d.pair.known < epoch then d1.takeGranted epoch
    else d1
  | 3 | 6 => ({ hold d1 with pair := { (hold d1).pair with lapse := none } } : Dev).deliver
  | _ => hold d1

/-- LEASE (R356, R359, R465–R467). FENCE moves a primary to FENCED and a device in STARTING to STANDBY; for the other states the
table of R467 has no such event, and the lease ends (DEDUCED, notes/assumptions/37.md). Recovery acts on no lease. -/
def execLease (t req epoch : Nat) (grant fence : Bool) (s : State) : Result := run t s fun d0 =>
  let d := d0.leaseDue
  match d.up.hbs.find? fun h => h.1 == req && d.withinUs h.2.1 1500000 with
  | none => d
  | some h =>
    if d.boot.recovery != 0 || d.boot.phase != 3 then d
    else if fence then
      let d1 := { d.leaseEnds with pair := { d.leaseEnds.pair with known := max d.pair.known epoch } }
      match d.pair.st with
      | 3 => d1.fence epoch
      | 0 => if d.pairEn then d1.toStandby else d1
      | _ => d1
    else if !grant then d.leaseEnds
    else d.leaseGranted h.2.1 h.2.2 epoch

/-! The peer's heartbeats (R464, R467, R472). -/

def Dev.recently (d : Dev) (x : Option Nat) : Bool := match x with | some t0 => d.withinUs t0 300000 | none => false

/-- LINK_PATH and CXP_PATH (R476). -/
def Dev.linkPath (d : Dev) : Bool := d.recently d.pair.hbL
def Dev.cxpPath (d : Dev) : Bool := d.recently d.pair.hbC

/-- The conditions of an automatic return hold (R472). -/
def Dev.mayReturn (d : Dev) : Bool :=
  d.pair.st == 3 && d.pairEn && !d.preferred && d.autoReturn && d.inSync && d.pair.pHealthy && d.linkPath && d.cxpPath

/-- Since when they have held is kept. -/
def Dev.noteReturn (d : Dev) : Dev :=
  { d with pair := { d.pair with ret := if d.mayReturn then some (d.pair.ret.getD d.clk) else none } }

/-- A handover is received (R472): the peer reports ROLE 0, and the checkpoint of its last CSN under its epoch has come, with no
block above it. -/
def Dev.handed (d : Dev) (epoch csn : Nat) : Bool :=
  d.sto.ckpts.any fun c => c.peer && c.img.csnAt == csn && c.img.epoch == epoch && decide (d.pair.known ≤ epoch)
    && d.lastCsn == csn

/-- PAIR_HB on `path` (0 and 1 the CXP ports, 2 the pair link). `swap` is what the peer's handover says of its cause, for which the
spec gives no field (DESIGN CHOICE, notes/assumptions/38.md). -/
def execPairHb (t path role : Nat) (healthy : Bool) (epoch csn : Nat) (swap : Bool) (s : State) : Result := run t s fun d =>
  let isOpen := if path == 2 then d.pair.link else path < 2 && d.sessUp (2 + path)
  if !isOpen || !d.pairEn || d.boot.phase != 3 || d.boot.recovery != 0 then d
  else
    let link := path == 2
    let p := d.pair
    let d1 := { d with
      pair := { p with
        pRole := role, pHealthy := healthy, pEpoch := epoch, pCsn := csn
        moved := if p.pCsn < csn then d.clk else p.moved
        hbL := if link then some d.clk else p.hbL, hbC := if link then p.hbC else some d.clk
        gotL := p.gotL || link, gotC := p.gotC || !link, role1 := if role == 1 then d.clk else p.role1
        sick := role == 1 && !healthy, known := max p.known epoch }
      boot := if d.boot.trial.isSome then { d.boot with tLink := d.boot.tLink || link, tCxp := d.boot.tCxp || !link } else d.boot }
    let higher := role == 1 && decide (p.epoch < epoch)
    match p.st with
    | 0 => if role == 1 then d1.toStandby else d1
    | 1 => if role == 0 && d1.handed epoch csn then d1.takeOver (if swap then 2 else 1) else d1
    | 2 => if role == 1 && decide (max p.epoch p.known < epoch) then d1.takeRefused else d1
    | 3 => if higher then d1.fence epoch else d1.noteReturn
    | 4 => if higher then (d1.count fHandovers).toStandby else d1
    | _ => d1

/-- HB_INTERVAL (R464): a 50 ms interval ends. Intervals on both paths count towards a declaration once the peer has been heard
(DEDUCED, notes/assumptions/37.md). -/
def execHbInterval (t : Nat) (s : State) : Result := run t s fun d =>
  let p := d.pair
  if !d.pairEn || d.boot.phase != 3 || d.boot.recovery != 0 || d.interval == p.ivl then d
  else
    let missN := if p.gotL || p.gotC then 0 else p.missN + 1
    let sickN := if p.sick then p.sickN + 1 else 0
    let d1 := { d with pair := { p with
      ivl := d.interval, gotL := false, gotC := false, sick := false, missN := missN, sickN := sickN
      pHealthy := p.pHealthy && decide (missN < 6) } }
    let d2 := if p.gotL then d1 else d1.count fHbMissLink
    let d3 := if p.gotC then d2 else d2.count fHbMissCxp
    if (p.hbL.isSome || p.hbC.isSome) && (decide (6 ≤ missN) || decide (6 ≤ sickN)) then d3.takeOver 0 else d3.noteReturn

/-- PEER_WAIT_EXPIRY (R464): no PAIR_HB with ROLE 1 for PEER_WAIT_S, or twice that where PREFERRED is 0. -/
def execPeerWaitExpiry (t : Nat) (s : State) : Result := run t s fun d =>
  if d.passedMs (max d.pair.role1 d.pair.since) (1000 * d.peerWaitS * (if d.preferred then 1 else 2)) then d.takeOver 0 else d

/-- TAKEOVER_TIMEOUT (R467). -/
def execTakeoverTimeout (t : Nat) (s : State) : Result := run t s fun d =>
  if d.pair.st == 2 && !d.pair.granted && d.passedMs d.pair.since (1000 * d.peerWaitS) then d.takeRefused else d

/-! Handover (R472, R473). -/

/-- Steps 1 to 3 of a handover (R472). -/
def Dev.handOver (d : Dev) (hand : Nat) : Dev :=
  let d1 := d.drainInput.drainEvents.seal 3
  let d2 := { d1 with
    led := { d1.led with accepts := false }
    pair := { d1.pair with st := 4, since := d.clk, hand := hand, handed := false, ret := none } }
  d2.metroStop.beginCkpt

/-- AUTO_RETURN (R472). -/
def execAutoReturn (t : Nat) (s : State) : Result := run t s fun d0 =>
  let d := d0.noteReturn
  match d.pair.ret with
  | some t0 => if d.passedMs t0 (1000 * d.returnS) && d.pw.hu.isNone && d.boot.phase == 3 then d.handOver 1 else d
  | none => d

/-- SWAP (R349, R473). -/
def execSwap (t : Nat) (c : Control) (s : State) : Result := run t s fun d => d.control c fun x =>
  if !x.pairEn || x.pair.st != 3 || !x.inSync || x.boot.restart.isSome || x.boot.phase != 3 then x.controlResp c rcBusy 0
  else (x.controlResp c 0 0).handOver 2

/-- HANDOVER_TIMEOUT (R467): the ledger, a rebuild under way included, goes on where it stood. 10 s without the peer's ROLE 1 under a higher
epoch. -/
def execHandoverTimeout (t : Nat) (s : State) : Result := run t s fun d =>
  if d.pair.st != 4 || !d.passedMs d.pair.since 10000 then d
  else if d.leased then
    ((({ d with
      pair := { d.pair with st := 3, since := d.clk, hand := 0, handed := false, lapse := none }
      led := { d.led with accepts := true } } : Dev).wakeField).metroStart).deliver
  else d.fence d.pair.known

/-! Status (R476). -/

/-- RETURN_LEFT_S: whole seconds begun that are left. -/
def Dev.returnLeft (d : Dev) : Nat :=
  match d.pair.ret with
  | some t0 => d.returnS - (d.clk - t0) / 2 ^ 36
  | none => 0

/-- The eight words of the pair status block, but for its counters (R476). A single device's PSTATE reads SINGLE (R459). -/
def Dev.pairWords (d : Dev) : List Word :=
  let st := if d.boot.cfgOn && !d.pairEn then 6 else d.pair.st
  [pk [(st, 35, 33), (d.pair.pRole, 32, 31), (b2n d.pair.pHealthy, 30, 30), (b2n d.linkPath, 29, 29), (b2n d.cxpPath, 28, 28),
      (b2n d.inSync, 27, 27), (b2n d.preferred, 26, 26)], W d.pair.pEpoch]
  ++ dw d.pair.pCsn ++ [pk [(d.returnLeft, 35, 24)]]

end Sys2Proof.Machine
end

