-- ==== Sys2Proof/Machine/Status.lean ====
section
/-!
DEFINITION. Every word that can be read: the counter and status blocks, the live metrology, the check-meter registers, the
event window, zones and state nonets, and the words a mirror bank holds (spec 13, R370–R376; R59, R77, R94, R130, R157, R201,
R236, R250, R256, R276, R277, R295, R329, R361, R401, R416, R434, R476, R491, R508, R528).
-/

namespace Sys2Proof.Machine

/-! Counters, which a read of region 0x02 clears (R18, R354, R373). -/

/-- The counters of the word at an address. -/
def Dev.ctrWord (d : Dev) (a : Nat) : Word :=
  d.ctrs.foldl (fun w p => if p.1 / 64 == a then w ||| W (p.2 * 2 ^ (p.1 % 64)) else w) 0

/-- Back-pressure under way is counted in BP_TIME up to now, in whole µs (R59). -/
def Dev.settleBp (d : Dev) : Dev :=
  d.q.bp.foldl (fun (x : Dev) p =>
    let us := (x.clk - p.2) * 1000000 / 2 ^ 36
    { x.countN (fBpTime p.1) us with q := { x.q with bp := NMap.put x.q.bp p.1 (p.2 + us * 2 ^ 36 / 1000000) } }) d

/-- The counters of a word are cleared by a read; PAGES_HIGH becomes PAGES_USED (R59). -/
def Dev.clearCtrs (d : Dev) (a : Nat) : Dev :=
  let x : Dev := { d with ctrs := d.ctrs.filter fun p => p.1 / 64 != a }
  if 0x0400 ≤ a && a < 0x0428 && a % 8 == 1 then x.setCtr (fPagesHigh ((a - 0x0400) / 8)) (x.pagesUsed ((a - 0x0400) / 8)) else x

/-! The fields that are no counters, by block. -/

/-- A field link's status words (R77). -/
def Dev.linkWords (d : Dev) (k : Nat) : List Word :=
  let l := d.link k
  [pk [(l.st.code, 35, 33), (l.lastOk, 32, 17)],
    pk [(l.delayNs, 35, 18), (toTwos 18 l.offsetNs, 17, 0)]]

/-- The noise figure of an RF stream, or of powerline stream `s` as 32 + s; 0 while the stream does not run (R94, R157). -/
def Dev.noiseWord (d : Dev) (s : Nat) : Word :=
  if s < 32 then (if d.streamUp s then pk [(d.streamNoise s, 35, 26)] else 0)
  else if d.plEn (s - 32) && (!d.plSrcLink (s - 32) || (d.link (d.plLink (s - 32))).st == .up) then
    pk [(d.plNoise (s - 32), 35, 26)]
  else 0

def RebuildSt.code : RebuildSt → Nat
  | .idle => 0
  | .build => 1
  | .switch => 2
  | .release => 3
  | .abort => 4

def SessSt.code : SessSt → Nat
  | .idle => 0
  | .handshake => 1
  | .up => 2
  | .backoff => 3

/-- Word 0 of the uplink block (R361). -/
def Dev.uplinkWord (d : Dev) : Word :=
  let s (i : Nat) := (d.session i).st.code
  pk [(s 0, 35, 34), (s 1, 33, 32), (s 2, 31, 30), (s 3, 29, 28), (b2n d.up.linkA, 27, 27), (b2n d.up.linkB, 26, 26)]

/-- The state of a domain as R434 shows it. -/
def Dev.domCode (d : Dev) (n : Nat) : Nat := if n < 2 then 2 else if n < 56 then (d.dom n).st else 0

/-- A set of numbered bits as a number, bit `i` where `f i`. -/
def bitsOf (n : Nat) (f : Nat → Bool) : Nat := ((List.range n).map fun i => b2n (f i) * 2 ^ i).sum

/-- Tamper input `k` is shown asserted: an input whose action is OFF is ignored (R434, R488, R511). -/
def Dev.tamperShown (d : Dev) (k : Nat) : Bool :=
  d.tamperOn k && match d.idn.armed with | some a => tamperAction a k != 0 | none => true

/-- The power status block (R434). -/
def Dev.powerWords (d : Dev) : List Word :=
  let p := d.pw
  ((List.range 5).map fun w => pk ((List.range 12).map fun k => (d.domCode (12 * w + k), 3 * k + 2, 3 * k)))
  ++ [pk [(b2n (d.aocHigh 0), 35, 35), (b2n (d.aocHigh 1), 34, 34), (b2n p.crit, 33, 33), (b2n p.vbak, 32, 32),
      (bitsOf 6 d.tamperShown, 31, 26), (bitsOf 8 fun n => ((NMap.find p.aoc n).map Aoc.res).getD false, 25, 18)],
    0, 0, 0, 0]
  ++ dw p.lastTl
  ++ [W (sat 36 p.outS), pk [(sat 12 p.huMs, 35, 24), (p.stage, 23, 20), (b2n p.clean, 19, 19), (b2n p.cut, 18, 18),
      (b2n p.vbakLow, 17, 17)]]

/-- The identity status block (R491). -/
def Dev.identityWords (d : Dev) : List Word :=
  [pk [(b2n d.isEnrolled, 35, 35), (fld (d.idW 0) 21 18, 34, 31), (d.idn.recs.length, 30, 26), (fld (d.idW 0) 17 10, 25, 18),
      (d.idn.armed.getD 0, 17, 6), (d.idn.fwRev, 5, 2)],
    W d.idn.serial, d.idW 3, d.idW 1]

/-- The display status block (R508). -/
def Dev.displayWords (d : Dev) : List Word :=
  let x := d.disp
  [pk [(x.st, 35, 33), (x.mode, 32, 29), (x.range, 28, 25), (x.frame, 24, 18), (toTwos 8 x.temp, 17, 10), (b2n x.cutP, 9, 9),
      (b2n x.lost, 8, 8)],
    W x.cur, W ((x.next.map DispCommit.addr).getD 0), 0, 0, 0, 0,
    pk [(sat 12 ((x.stress.foldl (fun m p => max m p.2) 0) / 2 ^ 20), 35, 24)]]

/-- The pin word whose OUTAGE function a pin runs (R509, R514, R515): bank AO as PD0 holds it, bank B while a copy is in force; none while
pins are inputs with weak pull-down (R513). -/
def Dev.outageW (d : Dev) (p : Nat) : Option Word :=
  if d.loc.pins != 1 then none
  else if p < 8 then d.loc.ao[p]?.map W
  else if d.boot.cfgOn then some (d.pinW p) else none

/-- The level at a pin (R510, R512, R528): an output whose level the spec fixes shows it; the outside drives the rest. -/
def Dev.pinLevel (d : Dev) (p : Nat) : Bool :=
  let w := d.pinW p
  let x := NMap.look d.loc.outs p (false, 0)
  let mode := if fld w 28 25 == 6 then 2 else fld w 24 23
  let since := if fld w 28 25 == 6 then d.loc.c0 else if x.1 then some x.2 else none
  if d.pinsRun then
    match d.pinFunc p with
    | 3 =>
      if mode == 1 && x.1 then Config.pinLevel p d.clk
      else (if mode == 2 then (since.map fun t0 => !d.passedMs t0 100).getD false else x.1) != bitOf w 31
    | 6 =>
      let y := d.uart (fld w 30 29)
      (decide (y.de ≤ d.clk) && decide (d.clk < y.busy)) != bitOf w 31
    | 7 | 8 | 9 => decide (d.clk < NMap.look d.loc.pulses p 0) != bitOf w 31
    | _ => Config.pinLevel p d.clk
  else match d.outageW p with
    | some o => if fld o 22 20 ≤ 1 then (fld o 22 20 == 1) != bitOf o 31 else Config.pinLevel p d.clk
    | none => Config.pinLevel p d.clk

/-- The local status block (R528). -/
def Dev.localWords (d : Dev) : List Word :=
  [W (bitsOf 36 d.pinLevel), pk [(bitsOf 12 fun i => d.pinLevel (36 + i), 35, 24), (d.loc.card.st, 23, 21)], W d.loc.card.ok]

/-- The words of the block that holds address `a` of the counter region, and where it begins (R372). -/
def Dev.blockOf (d : Dev) (a : Nat) : Nat × List Word :=
  if a < 0x0428 then (a / 8 * 8, [pk [(d.pagesUsed ((a - 0x0400) / 8), 35, 15)]])
  else if a < 0x0440 then (a, [])
  else if a < 0x0448 then (0x0440, [0, 0, 0, 0, 0, pk [(sat 18 (d.bnoSealed - d.led.acked), 35, 18)],
    pk [(d.led.dir.count, 35, 14), (d.led.dir.stash.length, 13, 7), (d.led.rebuild.st.code, 6, 4)]])
  else if a < 0x0450 then (0x0448, [pk [(d.openTxns, 35, 17), (d.cmdCount, 16, 6)]])
  else if a < 0x0458 then (0x0450, [0, 0, 0, 0, 0, 0, 0, pk [(d.zoneAlarms, 35, 23)]])
  else if a < 0x0460 then (a, [])
  else if a < 0x0470 then (0x0460, d.timeWords)
  else if a < 0x0480 then (0x0470, [d.uplinkWord])
  else if a < 0x0490 then (0x0480, [0, 0, 0, 0, 0, pk [(b2n d.mir.held.isSome, 35, 35)]])
  else if a < 0x04A0 then (0x0490, d.storeWords)
  else if a < 0x04B0 then (0x04A0, [pk [(sat 18 d.evr.raw.length, 35, 18)]])
  else if a < 0x04C0 then (0x04B0, d.powerWords)
  else if a < 0x04D0 then (0x04C0, d.pairWords)
  else if a < 0x04E0 then (0x04D0, d.identityWords)
  else if a < 0x04F0 then (0x04E0, d.displayWords)
  else if a < 0x0500 then (0x04F0, d.localWords)
  else if a < 0x0580 then (a / 8 * 8, d.linkWords ((a - 0x0500) / 8))
  else if a < 0x0600 then (a, [])
  else if a < 0x0700 then (a / 8 * 8, [0, 0, 0, 0, 0, 0, 0, d.noiseWord ((a - 0x0600) / 8)])
  else if a < 0x0C00 then (a, [])
  else if a < 0x0E00 then (a / 16 * 16, List.replicate 15 0 ++ [d.noiseWord (32 + (a - 0x0C00) / 16)])
  else if a < 0x0F00 then (a / 4 * 4, d.dieWords ((a - 0x0E00) / 4))
  else (a, [])

/-- A word of the counter region as it stands now (R350, R372). -/
def Dev.statusWord (d : Dev) (a : Nat) : Word :=
  let b := d.blockOf a
  b.2.getD (a - b.1) 0 ||| d.ctrWord a

/-! The other regions of the mirror. -/

/-- The header (R371). `deferred` says that a hold deferred this flip. -/
def Dev.headerWords (d : Dev) (deferred : Bool) : List Word :=
  [W d.mir.epoch] ++ dw d.lastCsn ++ dw d.now
  ++ [d.variant.partId,
    pk [(d.up.gen % 16, 35, 32), (d.role, 31, 30), (d.tb.st, 29, 27), (b2n d.pw.hu.isSome, 26, 26), (b2n deferred, 25, 25)],
    pk [(d.epochMs, 35, 22)], W d.epochSaid, W d.bnoSealed, W d.led.acked, W d.leg.check, pk [(d.leg.ver, 35, 28)]]

/-- A channel's live words (R276). -/
def Dev.chanWords (d : Dev) (c : Nat) : List Word :=
  if !d.chanEn c then []
  else
    let x := d.chan c
    let g := d.group (d.chanGroup c)
    let w := d.window c
    [W (d.rms c), intW (d.meanOf c),
      pk [(x.gain, 35, 32), (g.preset, 31, 29), (b2n g.scs, 28, 28), (x.source, 27, 26), (b2n (w.inv == 0 && w.n != 0), 25, 25),
        (b2n x.ovr, 24, 24), (d.settleLeft c, 23, 18)],
      W (sat 36 x.ovrN)]

/-- Power words of a phase or of the totals (R276). -/
def powerRow (p q : Int) (s : Nat) : List Word := [intW p, intW q, W s, pk [(toTwos 16 (pfOf p s), 35, 20)]]

/-- A feeder's live words (R276). -/
def Dev.feederWords (d : Dev) (f : Nat) : List Word :=
  if !d.feederEn f then []
  else
    let ps := (List.range 3).map (d.power f)
    (ps.flatMap fun x => powerRow x.1 x.2.1 x.2.2)
      ++ powerRow ((ps.map fun x => x.1).foldl (· + ·) 0) ((ps.map fun x => x.2.1).foldl (· + ·) 0) (ps.map fun x => x.2.2).sum

/-- A line-to-line RMS in mV between voltage channels `a` and `b` of a group; `i` is its place in the ticks (R272, R275). -/
def Dev.lineRms (d : Dev) (g i a b : Nat) : Nat :=
  let ts := ((d.group g).ll.take d.rmsTicks).map fun l => l.getD i (0, 0)
  if (d.window (32 + 4 * g + a)).enough && (d.window (32 + 4 * g + b)).enough then
    rmsOf (ts.map fun x => x.2).sum (ts.map fun x => x.1).sum
  else 0

/-- A group's live words (R276). A group none of whose channels is enabled is taken as disabled. -/
def Dev.groupWords (d : Dev) (g : Nat) : List Word :=
  if !(List.range 48).any fun c => d.chanEn c && d.chanGroup c == g then []
  else
    let x := d.group g
    [pk [(x.freq, 35, 18), (b2n (d.tb.st == tbLocked), 17, 17)], W (d.lineRms g 0 0 1), W (d.lineRms g 1 1 2),
      W (d.lineRms g 2 2 0)] ++ dw (boundaryTime x.since)

/-- Words at rising bases. -/
def placeWords (base step : Nat) (n : Nat) (f : Nat → List Word) : List (Nat × Word) :=
  (List.range n).flatMap fun k => (f k).zipIdx.map fun p => (base + step * k + p.2, p.1)

/-- The check meter's status block (R295). -/
def Dev.legalWords (d : Dev) : List Word :=
  let x := d.leg.st
  [pk [(x.tariff, 35, 33), (d.demMin, 32, 27), (b2n x.bill, 26, 26)], W x.bnum] ++ dw x.tickT ++ dw x.start
  ++ dw (if d.demMin == 0 then 0 else d.nextT) ++ dw x.highT ++ [W x.snapNo, W d.leg.check, pk [(d.leg.ver, 35, 28)]]

/-- Registers, demand, status and the snapshot index (R295). -/
def Dev.meterWords (d : Dev) : List (Nat × Word) :=
  let x := d.leg.st
  placeWords 0x4400 128 9 (fun s => (x.set s).words ++ [W (x.set s).gap])
  ++ placeWords 0x4900 64 9 (fun s => (x.set s).demandWords ++ [W (x.dem.getD s (0, 0)).1, W (x.dem.getD s (0, 0)).2])
  ++ placeWords 0x4C00 16 1 (fun _ => d.legalWords)
  ++ placeWords 0x4C40 4 24 fun k =>
    match NMap.find d.leg.snaps k with
    | some p => [W p.no] ++ dw p.closeT ++ [W p.bnum]
    | none => []

/-- Record places of the event window (R374, R413). -/
def nslot : Nat := 127

/-- Formatted records the event window shows, oldest first (R374). -/
def Dev.windowRecs (d : Dev) : List EvRec :=
  (List.range nslot).filterMap fun i => if d.evr.newest + i < nslot then none else NMap.find d.evr.fmt (d.evr.newest + i + 1 - nslot)

/-- The event window (R374). -/
def Dev.eventWords (d : Dev) : List (Nat × Word) :=
  let rs := d.windowRecs
  let q := d.evr.newest
  placeWords 0x8000 16 1 (fun _ =>
    [W q, W ((rs.head?.map EvRec.seq).getD 0), W d.oldestSeq, pk [(nslot, 35, 24), (32, 23, 12)]])
  ++ placeWords 0x8010 32 nslot fun k => ((rs.find? fun r => r.seq % nslot == k).map EvRec.words).getD []

/-- A zone's words (R250). -/
def Dev.zoneWords (d : Dev) (z : Nat) : List Word := if d.zoneV z then (d.zone z).words else []

/-- The state nonets of assigned slots, over the words that follow them (R375). -/
def Dev.nonetWords (d : Dev) : Memory :=
  d.led.recs.foldr (fun p m =>
    let a := 0x20000 + p.1 / 4
    Memory.write m a (Memory.read m a ||| W (d.nonet p.1 * 2 ^ (9 * (p.1 % 4))))) []

/-- What a bank holds after a flip (R364, R370). -/
def Dev.bankOf (d : Dev) (deferred : Bool) : Memory :=
  let ws := placeWords 0 0 1 (fun _ => d.headerWords deferred)
    ++ placeWords 0x0400 0 1 (fun _ => (List.range 0x0B00).map fun i => d.statusWord (0x0400 + i))
    ++ placeWords 0x4000 4 48 d.chanWords ++ placeWords 0x4200 16 8 d.feederWords ++ placeWords 0x4280 8 4 d.groupWords
    ++ d.meterWords ++ d.eventWords ++ placeWords 0x10000 16 4096 d.zoneWords
  ws.foldr (fun p m => Memory.write m p.1 p.2) d.nonetWords

end Sys2Proof.Machine
end

