-- ==== Sys2Proof/Machine/Mirror.lean ====
section
/-!
DEFINITION. The mirror port: reads, holds and flips (spec 13, R362–R368, R376, R377).
-/

namespace Sys2Proof.Machine

def fFlips : Fld := ⟨0x0480, 35, 0⟩
def fDeferred : Fld := ⟨0x0481, 35, 18⟩
def fMissed : Fld := ⟨0x0481, 17, 0⟩
def fReads : Fld := ⟨0x0482, 35, 0⟩
def fHoldAlarms : Fld := ⟨0x0483, 35, 18⟩
def fHoldMax : Fld := ⟨0x0484, 35, 0⟩

def Dev.setMir (d : Dev) (m : Mirror) : Dev := { d with mir := m }

/-- The time at which the ledger engine took its first commit since the start (R367), where an entry that shows it is still held;
0 for one long gone, none while there was no commit. -/
def Dev.firstCommitT (d : Dev) : Option Nat :=
  if d.led.csn ≤ d.mir.csn0 then none
  else
    let es := ((d.led.openB.map OpenBlock.entries).getD []) ++ (d.led.blocks.flatMap fun b => b.2.entries)
    some (((es.find? fun e => e.csn == d.mir.csn0).map Entry.time).getD 0)

/-- Scheduled instants that have passed and are not dealt with (R364, R365, R367): none before the ledger's first commit. -/
def Dev.flipsDue (d : Dev) : Nat :=
  match d.firstCommitT with
  | none => 0
  | some t =>
    if d.mir.epoch == 0 && decide (t ≤ d.now) then d.epochIdx d.now - max d.mir.last (d.epochIdx t) else d.epochsPassed

/-- The port serves reads: PD46 is ON (R362). -/
def Dev.mirrorOn (d : Dev) : Bool := d.domOn 46

/-- A flip takes effect (R364, R367): EPOCH_NO goes up, from 2³⁶ − 1 to 1, and the bank read holds the committed state as of
now. -/
def Dev.flip (d : Dev) (deferred : Bool) : Dev :=
  let d1 := d.settleBp.count fFlips
  let d2 := d1.setMir { d1.mir with
    epoch := if d1.mir.epoch + 1 < 2 ^ 36 then d1.mir.epoch + 1 else 1
    last := d1.epochIdx d1.now }
  d2.setMir { d2.mir with bank := d2.bankOf deferred }

/-- MIRROR_FLIP (R364): at a scheduled instant the filled bank becomes the one that is read, unless a hold defers it. -/
def execMirrorFlip (t : Nat) (s : State) : Result := run t s fun d =>
  if d.mirrorOn && d.tb.set && d.mir.held.isNone && d.onEpoch d.now && d.flipsDue != 0 then d.flip false else d

/-- An edge that samples MCS_N or MHOLD_N low holds the bank (R365). A flip due at that very instant is deferred (R377). -/
def Dev.hold (d : Dev) : Dev :=
  if d.mir.held.isSome then d
  else d.setMir { d.mir with
    held := some d.clk, told := false
    last := d.epochIdx d.now - (if d.onEpoch d.now && d.flipsDue != 0 then 1 else 0) }

/-- MIRROR_READ (R363, R365, R376): a read edge drives the word at MA and holds the bank. While PD46 is not ON, MD is
high-impedance. -/
def execMirrorRead (t addr : Nat) (s : State) : Result := run t s fun d =>
  if d.mirrorOn then (d.hold.count fReads).emit (.md (some (Memory.read d.mir.bank (addr % 2 ^ 20)))) else d.emit (.md none)

/-- EPOCH_HOLD (R365): MHOLD_N low holds the bank while MCS_N is high, which leaves MD high-impedance. -/
def execEpochHold (t : Nat) (s : State) : Result := run t s fun d =>
  (if d.mirrorOn then d.hold else d).emit (.md none)

/-- MIRROR_HOLD_RELEASE (R365, R376, R377): both sampled high. One flip follows if scheduled instants passed, and those after the
first count as missed. -/
def execMirrorHoldRelease (t : Nat) (s : State) : Result := run t s fun d =>
  match d.mir.held with
  | some t0 =>
    if !d.mirrorOn then d.emit (.md none)
    else
      let n := d.flipsDue
      let us := (d.clk - t0) * 1000000 / 2 ^ 36
      let d1 := (d.setMir { d.mir with held := none, told := false }).setCtr fHoldMax (max us (d.ctr fHoldMax))
      (if n == 0 || !d.tb.set then d1 else ((d1.count fDeferred).countN fMissed (n - 1)).flip true).emit (.md none)
  | none => d.emit (.md none)

/-- MIRROR_HOLD (R366): a hold has lasted longer than HOLD_ALARM_MS; one event a hold. -/
def execMirrorHold (t : Nat) (s : State) : Result := run t s fun d =>
  match d.mir.held with
  | some t0 =>
    if d.mirrorOn && !d.mir.told && d.holdAlarmMs != 0 && !d.withinUs t0 (d.holdAlarmMs * 1000) then
      ((d.setMir { d.mir with told := true }).count fHoldAlarms).raise 0x080 [(d.clk - t0) * 1000 / 2 ^ 36]
    else d
  | none => d

end Sys2Proof.Machine
end

