-- ==== Sys2Proof/Machine/LocalExec.lean ====
section
/-!
DEFINITION. MIRROR_READ over a UART, and the service card (spec 21, R516, R517, R519–R527).
-/

namespace Sys2Proof.Machine

/-- The octets of a card's object: a configuration copy and a package travel as double words of 9 octets (R436, R522); the most
that the staging regions hold (R442, R448). -/
def stageOctets (kind : Nat) : Nat := if kind == 1 then (fwStageEnd - 256 + 1) / 2 * 9 else (cfgStageEnd - 16) / 2 * 9

/-- Areas of `n` blocks from `a` and of `m` from `b` share no block. -/
def apart (a n b m : Nat) : Bool := n == 0 || m == 0 || decide (a + n ≤ b) || decide (b + m ≤ a)

/-- An area of a container lies between block 2 and NBLK − 1 (R521). -/
def CardHdr.inside (h : CardHdr) (a n : Nat) : Bool := n == 0 || (decide (2 ≤ a) && decide (a + n ≤ h.nblk))

/-- The header in block 0 of a file of `n` blocks (R521). -/
def CardHdr.ofBlock (os : List Octet) (n : Nat) (fresh : Bool) : CardHdr :=
  let num (a k : Nat) : Nat := ofBE ((os.drop a).take k)
  { sound := os.length == 65536 && os.take 8 == ascii "AXSVCNT1" && num 65532 4 == crc32c (os.take 65532), blocks := n
    id := num 8 8, nblk := num 16 4, logFirst := num 20 4, logCount := num 24 4, impFirst := num 28 4, impCount := num 32 4
    kind := num 36 1, flags := num 37 1, octets := num 38 4, from' := num 42 1, fresh := fresh }

/-- A container is valid (R520, R521). -/
def CardHdr.valid (h : CardHdr) : Bool :=
  h.sound && h.id != 0 && decide (3 ≤ h.nblk) && decide (h.nblk ≤ 65536) && h.blocks == h.nblk && decide (h.kind ≤ 2)
    && decide (h.flags < 2) && h.inside h.logFirst h.logCount && h.inside h.impFirst h.impCount
    && apart h.logFirst h.logCount h.impFirst h.impCount && decide (h.octets ≤ h.impCount * 65532)
    && decide (h.octets ≤ stageOctets h.kind)

/-- The block a log block stands at (R522). -/
def CardHdr.place (h : CardHdr) (bseq : Nat) : Nat := h.logFirst + (bseq - 1) % h.logCount

/-! UARTs. -/

/-- UART `u` serves MIRROR_READ, its pins in use (R515–R517). -/
def Dev.mirrorUart (d : Dev) (u : Nat) : Bool :=
  decide (u < 4) && d.pinsRun && d.domOn 55 && bitOf (d.uartW u) 35 && !bitOf (d.uartW u) 27

/-- The answer to a request for `n` words from `a` on (R517). -/
def Dev.uartAnswer (d : Dev) (u a n : Nat) : List Octet :=
  let bad := n == 0 || decide (64 < n) || decide (2 ^ 20 < a + n)
  let shut := !d.mirrorOn || d.mir.epoch == 0
  let status := if bad then 1 else if shut then 2 else 0
  let ws := if status == 0 then Memory.readAll d.mir.bank a n else []
  let os := [BitVec.ofNat 8 (fld (d.uartW u) 26 19), 0x72#8, BitVec.ofNat 8 status]
    ++ octetsBE (if d.mirrorOn then d.mir.epoch else 0) 5 ++ ws.flatMap fun w => octetsBE w.toNat 5
  os ++ octetsBE (crc32c os) 4

/-- A whole request of 10 octets (R517). The answer begins between 2 bit times and 2 ms from now; when is a free value, and UART_DE is
active from one bit time before it (R516). -/
def Dev.uartTake (d : Dev) (u : Nat) (os : List Octet) : Dev :=
  if ofBE (os.drop 6) != crc32c (os.take 6) then d.count (fUartCrc u)
  else if (os.getD 0 0).toNat != fld (d.uartW u) 26 19 || os.getD 1 0 != 0x52#8 then d
  else
    let a := d.uartAnswer u (ofBE ((os.drop 2).take 3)) (os.getD 5 0).toNat
    let t0 := d.clk + d.uartBit u 1 + Config.uartWait u d.clk % (usT 2000 - d.uartBit u 2)
    ((d.setUart u { d.uart u with de := t0, busy := t0 + d.uartTime u a.length }).count (fUartFrames u)).emit (.uart u a)

/-- UART_REQUEST (R516, R517): octets received on UART `u`; `bad` says that a character had a framing or parity error, which
discards the frame being received. -/
def execUartRequest (t u : Nat) (os : List Octet) (bad : Bool) (s : State) : Result := run t s fun d =>
  if !d.mirrorUart u then d
  else
    let x := d.uart u
    let part := x.part ++ os
    if bad then (d.setUart u { x with part := [], heard := d.clk }).count (fUartFraming u)
    else if part.length < 10 then d.setUart u { x with part := part, heard := d.clk }
    else (d.setUart u { x with part := part.drop 10, heard := d.clk }).uartTake u (part.take 10)

/-- UART_GAP (R517): a gap of more than 1.5 character times discards a partial request. -/
def execUartGap (t u : Nat) (s : State) : Result := run t s fun d =>
  if d.mirrorUart u && decide (3 * d.uartBits u * 2 ^ 36 < 2 * d.uartBaud u * (d.clk - (d.uart u).heard)) then
    d.setUart u { d.uart u with part := [] }
  else d

/-! The service card. -/

def fRewrite : Fld := ⟨0x04F3, 35, 18⟩
def fVerifyFail : Fld := ⟨0x04F3, 17, 0⟩

/-- CSTATE (R523). -/
def csAbsent : Nat := 0
def csInit : Nat := 1
def csVerify : Nat := 2
def csImport : Nat := 3
def csReady : Nat := 4
def csWriting : Nat := 5
def csFault : Nat := 6

def Dev.setCard (d : Dev) (c : Card) : Dev := { d with loc := { d.loc with card := c } }

/-- The card enters a state. -/
def Dev.cardTo (d : Dev) (st : Nat) : Dev := d.setCard { d.loc.card with st := st, since := d.clk }

/-- CARD_EN and the kinds an import may have, as R526 and R525 give them. -/
def Dev.cardEn (d : Dev) : Bool := !d.boot.cfgOn || bitOf (d.cfgW (blkLocal + 52)) 35
def Dev.cardKinds (d : Dev) : Nat := if d.boot.cfgOn then fld (d.cfgW (blkLocal + 52)) 34 33 else 2

/-- CARD_INSERT (R519, R523, R527, R549): SD_CD_N has read low for 100 ms; in an outage it is ignored. Card power is removed for 10 ms. -/
def execCardInsert (t : Nat) (s : State) : Result := run t s fun d =>
  if d.domOn 55 && d.cardEn && d.pw.hu.isNone && d.loc.card.st == csAbsent then
    ((d.setCard { d.loc.card with hdr := none, done := false, power := false }).cardTo csInit).emit (.sdPower false)
  else d

/-- CARD_REMOVE (R519, R523–R525): an unconfirmed block stays unconfirmed, an object not whole is not staged. -/
def execCardRemove (t : Nat) (s : State) : Result := run t s fun d =>
  if d.domOn 55 && d.loc.card.st != csAbsent then
    (d.setCard { d.loc.card with hdr := none, done := false }).cardTo csAbsent
  else d

/-- A card with another CARD_ID than PD1 holds begins at BSEQ 1: from OLDEST_SEQ with LOG_FROM 1 or where it is new, else from the
newest record (R524). -/
def Dev.cardBegin (d : Dev) (h : CardHdr) : Dev :=
  let c := d.loc.card
  if c.id == h.id then d.setCard { c with hdr := some h }
  else d.setCard { c with
    hdr := some h, id := h.id, ok := 0, cur := none
    next := if h.from' == 1 || h.fresh then d.oldestSeq else max 1 d.evr.newest }

/-- CARD_IDENTIFIED (R520, R521, R523): block 0 of AXSVC.BIN and the blocks the file holds, none where no card answers or it has no file
as R520 asks; `fresh` says that no log block of this CARD_ID stands on the card. -/
def execCardIdentified (t : Nat) (blk : Option (List Octet)) (blocks : Nat) (fresh : Bool) (s : State) : Result := run t s fun d =>
  if !d.domOn 55 || d.loc.card.st != csInit || !d.loc.card.power then d
  else match blk.map fun os => CardHdr.ofBlock os blocks fresh with
    | some x => if x.valid then (d.cardBegin x).cardTo csVerify else d.cardTo csFault
    | none => d.cardTo csFault

/-- The octets of a log block: its records from `first` to `last` (R522). -/
def Dev.logBlock (d : Dev) (bseq first last : Nat) : List Octet :=
  let text := (List.range (last + 1 - first)).flatMap fun i =>
    match NMap.find d.evr.fmt (first + i) with
    | some r => r.text ++ [13#8, 10#8]
    | none => []
  let head := ascii "AXLG" ++ octetsBE d.loc.card.id 8 ++ octetsBE bseq 8 ++ octetsBE first 5 ++ octetsBE last 5
    ++ octetsBE text.length 4
  let os := head ++ List.replicate 30 0#8 ++ text
  let b := os ++ List.replicate (65532 - os.length) 0#8
  b ++ octetsBE (crc32c b) 4

/-- Every record of a block is still held. -/
def Dev.recsHeld (d : Dev) (first last : Nat) : Bool :=
  (List.range (last + 1 - first)).all fun i => (NMap.find d.evr.fmt (first + i)).isSome

/-- The unconfirmed block is written again with its BSEQ and records, and confirmed (R524). -/
def Dev.rewriteCur (d : Dev) (h : CardHdr) : Dev :=
  match d.loc.card.cur with
  | some (b, first, last) =>
    ((d.setCard { d.loc.card with ok := b, cur := none, next := last + 1 }).count fRewrite).emit
      (.card (h.place b) (d.logBlock b first last))
  | none => d

/-- The highest confirmed block as read: where its CRC fails that counts, and it is written again if the records that its header names
are still held (R522, R524). -/
def Dev.repairBlock (d : Dev) (h : CardHdr) (os : List Octet) : Dev :=
  let ok := d.loc.card.ok
  if ok == 0 || (os.length == 65536 && ofBE (os.drop 65532) == crc32c (os.take 65532)) then d
  else
    let d1 := d.count fVerifyFail
    let first := ofBE ((os.drop 20).take 5)
    let last := ofBE ((os.drop 25).take 5)
    if first ≤ last && last ≤ d.evr.newest && d.recsHeld first last then d1.emit (.card (h.place ok) (d.logBlock ok first last)) else d1

/-- VERIFY is over: IMPORT where there is an object that may be imported and this insertion has imported none, else READY
(R523, R525, R526). -/
def Dev.afterVerify (d : Dev) (h : CardHdr) : Dev :=
  if h.octets != 0 && h.impCount != 0 && h.kind != 0 && !d.loc.card.done && bitOf (W d.cardKinds) (h.kind - 1) then
    d.cardTo csImport
  else (d.setCard { d.loc.card with wrote := d.clk }).cardTo csReady

/-- CARD_VERIFY_DONE (R523, R524): the log blocks have been read, the highest confirmed one as `last`; none where the card no longer
answers. -/
def execCardVerifyDone (t : Nat) (last : Option (List Octet)) (s : State) : Result := run t s fun d =>
  if !d.domOn 55 || d.loc.card.st != csVerify then d
  else match d.loc.card.hdr, last with
    | some h, some os => if h.logCount == 0 then d.afterVerify h else ((d.repairBlock h os).rewriteCur h).afterVerify h
    | some _, none => d.cardTo csFault
    | none, _ => d

/-- The result in block 1 (R522). -/
def Dev.writeResult (d : Dev) (h : CardHdr) : Dev :=
  let fw := h.kind == 1
  d.emit (.cardResult h.kind (if fw then d.boot.fStage else d.boot.cStage) (if fw then d.boot.fWhy else d.boot.cWhy) d.idn.serial
    d.seqInForce d.boot.fwVer d.now d.loc.card.ok)

/-- The cold start a card asked for after its INSTALL, as a restart accepted with FLAG 1 (R445, R521, R523). -/
def Dev.cardRestart (d : Dev) : Dev :=
  if d.boot.card && d.boot.cStage == 3 && d.boot.restart.isNone && d.pw.hu.isNone then
    ({ d with boot := { d.boot with card := false } } : Dev).beginRestart 0 true
  else { d with boot := { d.boot with card := false } }

/-- The result is written; READY, or a cold start with RESTART (R523). -/
def Dev.importEnds (d : Dev) (h : CardHdr) : Dev :=
  ((d.writeResult h).setCard { d.loc.card with wrote := d.clk }).cardTo csReady |>.cardRestart

/-- The words of the object in the import blocks as read: every block's CRC passes, and they hold its octets (R522, R525). -/
def importWords (h : CardHdr) (bs : List (List Octet)) : Option (List Word) :=
  let os := (bs.flatMap fun b => b.take 65532).take h.octets
  if bs.length == cdiv h.octets 65532 && bs.all (fun b => b.length == 65536 && ofBE (b.drop 65532) == crc32c (b.take 65532)) then
    some ((List.range (h.octets / 9)).flatMap fun i => dw (ofBE ((os.drop (9 * i)).take 9)))
  else none

/-- The object is staged, and INSTALL or APPLY is run (R525). -/
def cardRun (h : CardHdr) (ws : List Word) (st : Stores) (d : Dev) : Stores × Dev :=
  if h.kind == 1 then
    (fwWord 0 (pk [(1, 35, 32)]) { st with fwStage := Memory.writeAll [] 0 ws } d).2.2
  else
    let r := (cfgWord 0 (pk [(2, 35, 32)]) { st with cfgStage := Memory.writeAll [] 0 ws } d).2.2
    (r.1, { r.2 with boot := { r.2.boot with card := bitOf (W h.flags) 0 } })

/-- CARD_IMPORT_DONE (R523, R525, R527): first, the import blocks have been read, and the object is staged and run, unless a block CRC
failed or its region is taken; and again, once that has ended, the result is written. -/
def execCardImportDone (t : Nat) (blks : Option (List (List Octet))) (s : State) : Result := runS t s fun st d =>
  let d0 := d.setCard { d.loc.card with done := true }
  if !d.domOn 55 || d.loc.card.st != csImport then (st, d)
  else match d.loc.card.hdr, (d.loc.card.hdr.bind fun h => blks.bind fun bs => importWords h bs) with
    | some h, some ws =>
      let busy := if h.kind == 1 then d0.fwBusy else d0.cfgBusy
      if d.loc.card.done then (st, if busy then d else d.importEnds h)
      else if busy then (st, d0.importEnds h)
      else
        let r := cardRun h ws st d0
        if (if h.kind == 1 then r.2.fwBusy else r.2.cfgBusy) then r else (r.1, r.2.importEnds h)
    | some h, none =>
      if d.loc.card.done then (st, if (if h.kind == 1 then d0.fwBusy else d0.cfgBusy) then d else d.importEnds h)
      else (st, d0.importEnds h)
    | none, _ => (st, d)

/-- CONFIG_WRITE_DONE (R441, R442, R525): the copy is in the NOR, its header programmed last; or the NOR failed. Where the card
whose object it was has been removed meanwhile, the restart it asked for follows. -/
def execConfigWriteDone (t : Nat) (ok : Bool) (s : State) : Result := runS t s fun st d =>
  if d.boot.cStage != 2 then (st, d)
  else if ok then
    let b := d.installsB
    let m := Memory.writeAll [] 0 (Memory.readAll st.cfgStage 0 cfgLength)
    let d1 := (d.setSeq b (cpSeq m)).cfgStage 3 (0, 0, 0)
    (st.setNor b m, if d1.loc.card.st == csImport then d1 else d1.cardRestart)
  else (st, d.cfgStage 4 (11, 0, 0))

/-- The last of the records from `q` on whose lines fit `room` octets, up to NEWEST `n`; with `q − 1` none does. -/
def Dev.lastFitting (d : Dev) (q n room : Nat) : Nat → Nat
  | 0 => q - 1
  | fuel + 1 =>
    let len := ((NMap.find d.evr.fmt q).map fun r => r.text.length + 2).getD 0
    if n < q || room < len then q - 1 else Dev.lastFitting d (q + 1) n (room - len) fuel

/-- LOG_BLOCK_DUE (R522, R523): in READY, records wait that fill a block, or 60 s have passed since the last. -/
def execLogBlockDue (t : Nat) (s : State) : Result := run t s fun d =>
  let c := d.loc.card
  match c.hdr with
  | some h =>
    let n := d.evr.newest
    let first := if (NMap.find d.evr.fmt c.next).isSome then c.next else max c.next d.oldestSeq
    let last := d.lastFitting first n (65532 - 64) 65536
    if d.domOn 55 && c.st == csReady && h.logCount != 0 && decide (c.next ≤ n) && decide (first ≤ last)
        && (decide (last < n) || d.passedMs c.wrote 60000) then
      ((d.setCard { c with cur := some (c.ok + 1, first, last), wrote := d.clk }).cardTo csWriting).emit
        (.card (h.place (c.ok + 1)) (d.logBlock (c.ok + 1) first last))
    else d
  | none => d

/-- CARD_WRITE_CONFIRMED (R523, R524): the card has left busy with good status. -/
def execCardWriteConfirmed (t : Nat) (s : State) : Result := run t s fun d =>
  let c := d.loc.card
  match c.cur with
  | some (b, _, last) =>
    if d.domOn 55 && c.st == csWriting then
      (d.setCard { c with ok := b, cur := none, next := last + 1 }).cardTo csReady
    else d
  | none => d

/-- CARD_BUSY_TIMEOUT (R523): busy has not ended within 500 ms, or the card reports a write error. -/
def execCardBusyTimeout (t : Nat) (err : Bool) (s : State) : Result := run t s fun d =>
  if d.domOn 55 && d.loc.card.st == csWriting && (err || d.passedMs d.loc.card.since 500) then d.cardTo csFault else d

end Sys2Proof.Machine
end

