-- ==== Sys2Proof/Machine/MetroExec.lean ====
section
/-!
DEFINITION. Resets of the metrology chain from the SYNC_DEC ball and by command, and the pulses on local pins (spec 09,
R267–R269; 11, R326).
-/

namespace Sys2Proof.Machine

/-- A reset waits for the next change boundary; a further one of its kind before that boundary adds nothing (R267, R268).
Answers the CSN of its event. -/
def Dev.metroReset (d : Dev) (k : ChangeKind) : Nat × Dev :=
  let x : Change := ⟨k, d.nextBoundary, 0, 0⟩
  if d.met.pend.any fun y => y.kind == k && y.at' == x.at' then (0, d)
  else
    let e := d.changeEvent x
    (d.queueChange x).raiseNow e.1 e.2

/-- SYNC_DEC (R267): an edge of the ball, rising or falling. After mains loss an edge is ignored and counted. -/
def execSyncDec (t : Nat) (rising : Bool) (s : State) : Result := run t s fun d =>
  if !d.syncEn || rising == d.syncFall then d
  else if d.pw.hu.isSome then d.count fSyncIgnored
  else if d.met.run.isNone then d
  else (d.metroReset .resetBall).2

/-- METRO_RESET (R268, R349): FLAG, ARG and a chain that does not run make no difference to the answer OK; the response names
the event's CSN. -/
def execMetroReset (t : Nat) (c : Control) (s : State) : Result := run t s fun d =>
  d.control c fun d =>
    let x := if d.met.run.isNone then (0, d) else d.metroReset .resetCxp
    x.2.controlResp c 0 x.1

/-- PPS (R326): 10 µs from each whole second of device time on every pin with the function. -/
def execPps (t : Nat) (s : State) : Result := run t s fun d =>
  if !d.tb.set || d.nowS == d.loc.pps || !d.pinsRun || !d.domOn 55 then d
  else
    let d1 := { d with loc := { d.loc with pps := d.nowS } }
    ((List.range 48).filter fun p => d.pinFunc p == 8).foldl (fun (x : Dev) p => x.pulse p 10) d1

/-- The number of the cycle that has begun last, in multiples of CYCLE_MS of device time. -/
def Dev.cycleNo (d : Dev) : Nat := d.now * 1000 / 2 ^ 36 / max 1 d.cycleMs

/-- CYCLE_PULSE (R326): 10 µs from each whole multiple of CYCLE_MS; with CYCLE_MS 0 there are none. -/
def execCyclePulse (t : Nat) (s : State) : Result := run t s fun d =>
  if !d.tb.set || d.cycleMs == 0 || d.cycleNo == d.loc.cycle || !d.pinsRun || !d.domOn 55 then d
  else
    let d1 := { d with loc := { d.loc with cycle := d.cycleNo } }
    ((List.range 48).filter fun p => d.pinFunc p == 9).foldl (fun (x : Dev) p => x.pulse p 10) d1

end Sys2Proof.Machine
end

