-- ==== Sys2Proof/Machine/ObjSpace.lean ====
section
/-!
DEFINITION. The object space: reads of every region, the writes that have effects of their own, and reads of the event window
(spec 12, R350–R355, R359; 06, R162; 07, R232; 08, R240; 09, R265, R271; 10, R289; 15, R411; 17, R442, R448).
-/

namespace Sys2Proof.Machine

/-! What each region reads as (R350). -/

/-- Region 0x00. -/
def Dev.identityRegion (d : Dev) : List Word :=
  [d.variant.partId] ++ dw d.now
  ++ [W d.seqInForce, W d.boot.fwVer, W d.leg.check, pk [(d.leg.ver, 35, 28), (d.role, 27, 26)], W d.epochSaid]
  ++ dw d.lastCsn ++ [W d.bnoSealed, W d.led.acked, pk [(d.boot.dramGiw, 35, 28)]]

/-- CSTATE as R232 codes it: CONFIRMING from ACT_S on. -/
def Dev.campStateCode (d : Dev) (c : Camp) : Nat :=
  if (c.st == 3 || c.st == 4) && c.actS != 0 && decide (c.actS ≤ d.nowS) then 5 else c.st

/-- The highest round started on a target: one that waits for its round or its horn call has not started it (R232). -/
def Target.started (g : Target) : Nat := if g.phase == 0 || g.phase == 4 || g.phase == 5 then g.round - 1 else g.round

/-- A campaign's status block, its counters apart (R232). -/
def Dev.campWords (d : Dev) (id : Nat) : List Word :=
  match d.camp? id with
  | none => []
  | some c =>
    let n (p : Nat → Bool) : Nat := (c.members.filter fun m => p (d.stateIn id m.1)).length
    [pk [(d.campStateCode c, 35, 33), ((c.targets.map Target.started).foldl max 0, 32, 25), (c.members.length + c.toArm.length, 24, 3)],
      pk [(n fun x => 1 ≤ x && x ≤ 4, 35, 14)], pk [(n fun x => 5 ≤ x && x ≤ 7, 35, 14)], pk [(n fun x => x == 9, 35, 14)],
      pk [(n fun x => 9 < x, 35, 14)], pk [(c.mcCtr - 1, 35, 4)]]

/-- A group's or a channel's word as R271 lays it out, its W fields as they are in force. -/
def Dev.metroWord (d : Dev) (off : Nat) : Word :=
  if off < 4 then
    let g := d.group off
    pk [(g.preset, 35, 33), (b2n g.scs, 32, 32)]
  else
    let c := off - 0x10
    pk [(b2n (d.chanEn c), 35, 35), ((d.chan c).gain, 34, 31), ((d.chan c).source, 30, 29), (d.chanFs c, 28, 0)]

/-- Status words of region 0x0A (R442). -/
def Dev.cfgRegion (d : Dev) : List Word :=
  let b := d.boot
  [0, pk [(b.cStage, 35, 33), (b.cWhy, 32, 25), (b.cBlock, 24, 17), (b.cWord, 16, 0)], W b.seqA, W b.seqB,
    pk [(b2n b.copyB, 35, 35)]]

/-- Status words of region 0x0B (R448). -/
def Dev.fwRegion (d : Dev) (st : Stores) : List Word :=
  let b := d.boot
  [0, pk [(b.fStage, 35, 33), (b.fWhy, 32, 25), (b.fBlocks, 24, 12)]] ++ b.br.heads.drop 2 ++ [W (d.legalOther st)]

/-- The word at an offset of a region, and whether it is a word of a slot that is not assigned (R350, R351). -/
def Dev.objWord (d : Dev) (st : Stores) (region off : Nat) : Word × Bool :=
  let slot (n : Nat) (f : MeterRec → Word) : Word × Bool :=
    match d.rec? n with
    | some r => (f r, false)
    | none => (0, true)
  match region with
  | 0x00 => (d.identityRegion.getD off 0, false)
  | 0x01 => (Memory.read d.mir.bank off, false)
  | 0x02 => (d.statusWord off, false)
  | 0x03 => slot (off / 32) fun r => r.words.getD (off % 32) 0
  | 0x04 => slot (off / 16) fun _ => (d.keyBlock (off / 16)).words.getD (off % 16) 0
  | 0x05 => slot off fun _ => d.memWord off
  | 0x06 =>
    if off < 0x1000 then (0, false)
    else (((NMap.find d.leg.snaps ((off - 0x1000) / 2048)).map fun p => p.words.getD ((off - 0x1000) % 2048) 0).getD 0, false)
  | 0x07 => ((d.campWords (off / 8)).getD (off % 8) 0 ||| d.ctrWord (0x10000 + off), false)
  | 0x09 => (d.metroWord off, false)
  | 0x0A => (if off < 16 then d.cfgRegion.getD off 0 else Memory.read st.cfgStage (off - 16), false)
  | 0x0B => (if off < 256 then (d.fwRegion st).getD off 0 else Memory.read st.fwStage (off - 256), false)
  | _ => (0, false)

/-- An offset that may be read (R350): the mirror image up to 0x9_FFFF, the counter region, and every region but 0x08. -/
def readOk (region off : Nat) : Bool :=
  match region with
  | 0x01 => decide (off < 0xA0000)
  | 0x02 => decide (0x0400 ≤ off) && decide (off < 0x4000)
  | 0x08 => false
  | _ => offsetOk region off

/-- What refuses an OBJ_READ (R351, R443). -/
def Dev.readRefusal (d : Dev) (r : ObjRead) : Option Nat :=
  if r.count == 0 then some orBadArg
  else if 4096 < r.count then some orTooLong
  else if d.boot.recovery != 0 && !([0x00, 0x0A, 0x0B].contains r.region) then some orBadAddr
  else if !(List.range r.count).all fun i => readOk r.region (r.offset + i) then some orBadAddr
  else none

/-- A read through CXP clears the counters of the words it returns (R18, R350). -/
def Dev.clearRead (d : Dev) (r : ObjRead) : Dev :=
  match r.region with
  | 0x02 => (List.range r.count).foldl (fun x i => x.clearCtrs (r.offset + i)) d
  | 0x07 => (List.range r.count).foldl (fun x i => x.clearCtrs (0x10000 + r.offset + i)) d
  | _ => d

/-- The body of an OBJ_READ_RESP (R351). -/
def Dev.readBody (d : Dev) (r : ObjRead) (res : Nat) (data : List Word) : List Word :=
  [W r.req, pk [(res, 35, 28), (data.length, 27, 15), (if res == orBusy then d.busyRetryMs else 0, 14, 0)],
    if r.region == 0x01 then W d.mir.epoch else 0] ++ dw d.lastCsn ++ data

/-- An OBJ_READ that is served (R351, R354). -/
def Dev.readServe (d0 : Dev) (st : Stores) (r : ObjRead) : Dev :=
  let d := if r.region == 0x02 then d0.settleBp else d0
  let answer (x : Dev) (body : List Word) : Dev :=
    if r.region == 0x02 then x.answerKept 0x21 r.req r.ref body else x.send 0 0x21 r.ref body
  match d.readRefusal r with
  | some res => answer d (d.readBody r res [])
  | none =>
    let ws := (List.range r.count).map fun i => d.objWord st r.region (r.offset + i)
    let res := if ws.any fun w => w.2 then orUnassigned else orOk
    answer (d.clearRead r) (d.readBody r res (ws.map fun w => w.1))

/-- OBJ_READ (R351, R354, R359): answered BUSY after mains loss and, but for the mirror image, while step 1 of shedding holds; a
repeat of a read of region 0x02 is answered as before. -/
def execObjRead (t : Nat) (r : ObjRead) (s : State) : Result := runS t s fun st d =>
  if d.pw.hu.isSome || (d.up.shed != 0 && r.region != 0x01) then
    (st, (d.send 0 0x21 r.ref (d.readBody r orBusy [])).count fBusySent)
  else match if r.region == 0x02 then d.keptAnswer r.req else none with
    | some a => (st, d.send 0 a.1 r.ref a.2)
    | none => (st, d.readServe st r)

/-! Writes. -/

/-- OBJ_WRITE (R350, R353): the image staging, staging words of the configuration and firmware regions and OPs that have no row,
and words of a region that do nothing. -/
def execObjWrite (t : Nat) (w : ObjWrite) (s : State) : Result :=
  runWrite t w .other s fun a =>
    match w.region with
    | 0x08 => writeWords (fun off x st d => (orOk, 0, { st with campStage := Memory.write st.campStage off x }, d)) w.offset a w.data
    | 0x0A => writeWords cfgWord w.offset a w.data
    | 0x0B => writeWords fwWord w.offset a w.data
    | _ => writeWords (fun off _ st d => (if off == 0 then orOk else orDenied, 0, st, d)) w.offset a w.data

/-- The W fields of record word `i` under a MEDIUM (R162); none where no bit of the word may be written by an OBJ_WRITE (R350,
R353). -/
def recordMask (pl : Bool) (i : Nat) : Option Nat :=
  let bits (h l : Nat) : Nat := 2 ^ (h + 1) - 2 ^ l
  match i with
  | 0 => some (bits 34 33 + bits 20 3)
  | 14 => some (bits 35 0)
  | 21 => some (if pl then 0 else bits 35 4)
  | 22 => some (if pl then 0 else bits 35 1)
  | 23 => some (if pl then 0 else bits 35 10)
  | 24 => some 0
  | 25 => some 0
  | 26 => some (if pl then 0 else bits 35 4)
  | _ => none

/-- One word of a record write (R353). -/
def recordWord (off : Nat) (x : Word) (st : Stores) (d : Dev) : Nat × Nat × Stores × Dev :=
  let n := off / 32
  match d.rec? n, recordMask (((d.rec? n).map MeterRec.pl).getD false) (off % 32) with
  | _, none => (orDenied, 0, st, d)
  | none, _ => (orUnassigned, 0, st, d)
  | some r, some m =>
    let old := r.words.getD (off % 32) 0
    let new : Word := (old &&& ~~~(W m)) ||| (x &&& W m)
    let r1 := MeterRec.ofWords (r.words.set (off % 32) new)
    if memZv (d.memWord n) && r1.ivlMin != d.balIvlMin then (0x07, 0, st, d)
    else if !r1.valuesOk || (off % 32 == 23 && !r1.offsetOk) then (orBadArg, 0, st, d)
    else (orOk, 0, st, d.setRec n r1)

/-- The slots that a record write has touched each have their STATE entry, with the words of the record in the journal (R353,
R392). -/
def recordCommits (off : Nat) (a : Written) : Written :=
  let slots := ((List.range a.applied).map fun i => (off + i) / 32).eraseDups
  slots.foldl (fun (a : Written) n =>
    let c := a.dev.stateByCommand n (a.dev.nonet n)
    { a with csn := c.1, dev := c.2.journal c.1 (((c.2.rec? n).map MeterRec.words).getD []) }) a

/-- RECORD_WRITE (R353). Where no ledger runs nothing can be committed: BUSY (DESIGN CHOICE, notes/assumptions/40.md). -/
def execRecordWrite (t : Nat) (w : ObjWrite) (s : State) : Result :=
  runWrite t w .record s fun a =>
    if !a.dev.ledgerRuns then { a with res := orBusy } else recordCommits w.offset (writeWords recordWord w.offset a w.data)

/-- MEMBERSHIP_WRITE (R239, R240, R353). -/
def execMembershipWrite (t : Nat) (w : ObjWrite) (s : State) : Result :=
  runWrite t w .membership s fun a =>
    if !a.dev.ledgerRuns then { a with res := orBusy }
    else writeWords (fun off x st d =>
      match d.memberRefusal off x with
      | some res => (res, 0, st, d.count fMemberRefused)
      | none =>
        let c := d.memberWrite off x
        (orOk, c.1, st, c.2)) w.offset a w.data

/-- A field of the chain takes a value: at the next change boundary, with its event, while the chain runs; at once while it does
not (R265, R271; DESIGN CHOICE, notes/assumptions/40.md). -/
def Dev.metroChange (d : Dev) (xs : List (ChangeKind × Nat)) (n : Nat) : Nat × Dev :=
  let cs : List Change := xs.map fun x => ⟨x.1, d.nextBoundary, n, x.2⟩
  if d.met.run.isNone then
    (0, cs.foldl (fun (x : Dev) c =>
      match c.kind with
      | .gain => x.setChan n { x.chan n with gain := c.val }
      | .source => x.setChan n { x.chan n with source := c.val }
      | .preset => x.setGroup n { x.group n with preset := c.val }
      | _ => x.setGroup n { x.group n with scs := c.val == 1 }) d)
  else
    let d1 := cs.foldl (fun x c => x.queueChange c) d
    let es := (cs.map d.changeEvent).eraseDups
    es.foldl (fun (p : Nat × Dev) e => p.2.raiseNow e.1 e.2) (0, d1)

/-- What a field holds or is about to hold: its last pending change, else what is in force. -/
def Dev.metroNow (d : Dev) (k : ChangeKind) (n cur : Nat) : Nat :=
  match (d.met.pend.filter fun x => x.kind == k && x.n == n).getLast? with
  | some x => x.val
  | none => cur

/-- The fields of a word that a write changes; where it changes none, the first stands for the write (R265). -/
def changed (fs : List (ChangeKind × Nat × Nat)) : List (ChangeKind × Nat) :=
  let cs := fs.filter fun f => f.2.1 != f.2.2
  (if cs.isEmpty then fs.take 1 else cs).map fun f => (f.1, f.2.2)

/-- One word of a metrology write: a group's PRESET and SCS, or a channel's GAIN and SOURCE (R258, R263, R271). -/
def metroWrite (off : Nat) (x : Word) (st : Stores) (d : Dev) : Nat × Nat × Stores × Dev :=
  if off < 4 then
    let p := fld x 35 33
    let s := bitOf x 32
    if !d.presetOk off p s then (orBadArg, 0, st, d)
    else
      let g := d.group off
      let c := d.metroChange (changed [(.preset, d.metroNow .preset off g.preset, p), (.scs, d.metroNow .scs off (b2n g.scs), b2n s)]) off
      (orOk, c.1, st, c.2)
  else
    let n := off - 0x10
    let gain := fld x 34 31
    let src := fld x 30 29
    if !gainOk n gain || src == 3 then (orBadArg, 0, st, d)
    else
      let h := d.chan n
      let c := d.metroChange (changed [(.gain, d.metroNow .gain n h.gain, gain), (.source, d.metroNow .source n h.source, src)]) n
      (orOk, c.1, st, c.2)

/-- METROLOGY_WRITE (R265, R271, R353). -/
def execMetrologyWrite (t : Nat) (w : ObjWrite) (s : State) : Result :=
  runWrite t w .metrology s fun a => writeWords metroWrite w.offset a w.data

/-- BILL_REQ (R289): a close is requested at the next demand boundary; further writes before it add nothing. -/
def execBillReq (t : Nat) (w : ObjWrite) (s : State) : Result :=
  runWrite t w .billReq s fun a =>
    writeWords (fun off _ st d =>
      if off == 0 then (orOk, 0, st, (d.setLeg { d.leg.st with bill := true }).legSave) else (orDenied, 0, st, d)) w.offset a w.data

/-! The event window over CXP. -/

/-- Records from `cursor` on, at most `count` (R355, R411): LOST, and the records. -/
def Dev.eventsFrom (d : Dev) (cursor count : Nat) : Bool × List EvRec :=
  let q := d.evr.newest
  let old := d.oldestSeq
  let take (a b : Nat) : List EvRec :=
    (List.range (min count (b + 1 - a))).filterMap fun i => NMap.find d.evr.fmt (a + i)
  if q < cursor then (false, [])
  else if old ≤ cursor then (false, take cursor q)
  else if cursor != 0 && !d.recOverwrite && decide (cursor ≤ d.recN) then (false, take cursor (min q d.recN))
  else (true, take old q)

/-- EVENT_READ (R355, R359, R411, R412). -/
def execEventRead (t ref req cursor count : Nat) (s : State) : Result := run t s fun d =>
  let answer (x : Dev) (res : Nat) (lost : Bool) (rs : List EvRec) : Dev :=
    x.send 0 0x31 ref ([W req, pk [(res, 35, 28), (rs.length, 27, 19), (b2n lost, 18, 18)], W ((rs.head?.map EvRec.seq).getD 0),
      W x.oldestSeq, W x.evr.newest] ++ rs.flatMap EvRec.words)
  if d.pw.hu.isSome || d.up.shed != 0 then (answer d orBusy false []).count fBusySent
  else if 256 < count then answer d orBadArg false []
  else
    let e := d.eventsFrom cursor count
    answer d orOk e.1 e.2

end Sys2Proof.Machine
end

