-- ==== Sys2Proof/Machine/PlAccess.lean ====
section
/-!
DEFINITION. Powerline channel access: contention, transmission, responses awaited and the end of jobs (spec 05,
R135, R144, R145, R149).
-/

namespace Sys2Proof.Machine

/-- The powerline stream a job goes out on: the one it names, or that of its meter's route. -/
def Dev.plJobStream (d : Dev) (j : Job) : Option Nat :=
  match j.via, j.slot with
  | some v, _ => some v.1
  | none, some n => ((d.rec? n).bind MeterRec.route).map Route.stream
  | none, none => none

/-- The job as its first hop has it: a frame that goes by a route is addressed to its next hop and secured with that neighbour's key and
counter (R137, R149; DEDUCED, notes/assumptions/64.md). -/
def Dev.plHop (d : Dev) (j : Job) : Job :=
  match j.via, j.slot with
  | none, some n => { j with slot := some ((((d.rec? n).bind MeterRec.route).map Route.next).getD n) }
  | _, _ => j

/-- The headers before the payload of a powerline job (R149): the mesh header of what goes to a meter by its route. -/
def Dev.plPre (d : Dev) (j : Job) : List Octet :=
  match j.via, j.slot with
  | none, some n => d.meshHeader (.ext (((d.rec? n).map MeterRec.eui).getD 0))
  | _, _ => []

/-- The carriers not used and the modulation of a frame on a stream (R132, R136): the static mask, and for a neighbour what its tone map
leaves; in ROBO to everybody else. -/
def Dev.plTone (d : Dev) (s : Nat) (nbr : Option Nat) : Nat × Nat :=
  match nbr.bind (NMap.find d.pl.tones) with
  | some m => (d.plToneMask s ||| ((2 ^ 72 - 1) ^^^ (m.1 % 2 ^ 72)), m.2)
  | none => (d.plToneMask s, 0)

/-- Octets of a powerline job's frame. -/
def Dev.plPsdu (d : Dev) (j : Job) : Nat :=
  match j.frame with
  | some f => f.length
  | none => d.jobPsdu (d.plHop j) + (d.plPre j).length

/-- Air time of a powerline job's frame in µs. -/
def Dev.plAirOf (d : Dev) (s : Nat) (j : Job) : Nat :=
  let m := d.plTone s (d.plHop j).slot
  Config.plAirUs (b2n (d.plFcc s)) m.1 m.2 (d.plPsdu j)

/-- Air time of what a lane sends in µs. -/
def Dev.plSendUs (d : Dev) (s : Nat) (l : PlLane) : Nat := Config.plAirUs (b2n (d.plFcc s)) l.tone.1 l.tone.2 l.octets.length

/-- The eligible job of a stream that comes first: class, earliest time tag (R145). -/
def Dev.plBest (d : Dev) (s : Nat) : Option (Nat × Job) :=
  bestBy (fun a b => before (a.2.cls, a.2.start, s, 0) (b.2.cls, b.2.start, s, 0)) (d.pl.jobs.filter fun p =>
    p.2.lane.isNone && decide (p.2.start ≤ d.clk) && decide (d.clk < p.2.deadline) && d.plJobStream p.2 == some s)

/-- The slot a job draws: C0 and C1 in the priority window, C2 to C4 in the backoff after it (R144). -/
def Dev.plDraw (d : Dev) (cls be : Nat) : Nat × Dev := d.draw (if cls ≤ 1 then max 1 d.plPcw else 2 ^ be)

/-- A powerline job changed. -/
def Dev.updPlJob (d : Dev) (i : Nat) (f : Job → Job) : Dev :=
  match NMap.find d.pl.jobs i with
  | some j => { d with pl := { d.pl with jobs := NMap.put d.pl.jobs i (f j) } }
  | none => d

/-- An IDLE lane resumes its job, or takes the eligible one that comes first, and waits in ACCESS (R135, R145). -/
def Dev.plKick (d : Dev) (s : Nat) : Dev :=
  let l := d.plLane s
  if l.st != .idle || d.quiet || d.plKeeps s then d
  else
    match l.job.bind fun i => (NMap.find d.pl.jobs i).map fun j => (i, j) with
    | some (_, j) =>
      let r := d.plDraw j.cls l.be
      r.2.setPlLane s { l with st := .access, draw := r.1, since := d.clk }
    | none =>
      match d.plBest s with
      | some (i, j) =>
        let r := d.plDraw j.cls d.plMinBe
        (r.2.setPlLane s { l with st := .access, job := some i, be := d.plMinBe, busy := 0, draw := r.1, since := d.clk }).updPlJob i
          fun x => { x with lane := some s }
      | none => d.setPlLane s { l with job := none }

/-- Every powerline lane that is IDLE takes up what it may. -/
def Dev.plKickAll (d : Dev) : Dev := (List.range 32).foldl Dev.plKick d

/-- The lane is IDLE, its medium since now, and takes up its job or another. -/
def Dev.plFree (d : Dev) (s : Nat) : Dev := (d.plIdle s).plKick s

/-- The lane is IDLE, its medium from an instant on, and takes up its job or another (R144). -/
def Dev.plFreeFrom (d : Dev) (s idle : Nat) : Dev := (d.plIdleFrom s idle).plKick s

/-- A powerline job ends with a result; a sweep's goes to its sweep (R118, R154). -/
def Dev.plEndJob (d : Dev) (i res : Nat) : Dev :=
  match NMap.find d.pl.jobs i with
  | none => d
  | some j =>
    let d1 := d.endJob true i res
    if j.who == .sweep then d1.sweepJobDone ((j.via.map (·.1)).getD 0) res j else d1

/-- A lane that holds a job holds it no longer. -/
def Dev.plUnjob (d : Dev) (s : Nat) : Dev := d.setPlLane s { d.plLane s with job := none, be := 0, busy := 0 }

/-- Every attempt of a job on its route's first hop has ended NO_ACK (R149): that candidate goes, the route is no longer valid, and the
job starts afresh on the next best, once. None where it cannot. -/
def Dev.plReroute (d : Dev) (i : Nat) (j : Job) : Dev × Bool :=
  match j.via, j.slot, (j.slot.bind d.rec?).bind fun r => r.route.map fun a => (r, a) with
  | none, some n, some (r, a) =>
    let r1 := r.dropHop a.stream a.next
    let r2 := if j.again then r1 else r1.adopt n d.nowS
    let fresh (x : Job) : Job := { x with tries := 0, naks := 0, again := true, frame := none, lane := none }
    if r2.route.isSome then ((d.setRec n r2).updPlJob i fresh, true) else (d.setRec n r2, false)
  | _, _, _ => (d, false)

/-- A job is done with its attempts: it has no retry left, or is past its deadline. A frame to a group is never retried (R114, R145). -/
def Dev.plSpent (d : Dev) (j : Job) : Bool :=
  (j.slot.isNone && j.who != .sweep) || decide (j.deadline ≤ d.clk) || decide (d.plMaxRetries ≤ j.tries)

/-- An attempt of a powerline job has failed (R145, R149): a retry is used up; with none left the job starts afresh on
another route or ends. -/
def Dev.plAttemptFailed (d : Dev) (s i res : Nat) : Dev :=
  match NMap.find d.pl.jobs i with
  | none => (d.plUnjob s).plFree s
  | some j =>
    let naks := j.naks + b2n (res == 2)
    if !d.plSpent j then
      ((d.updPlJob i fun x => { x with tries := x.tries + 1, res := res, naks := naks }).setPlLane s
        { d.plLane s with be := d.plMinBe, busy := 0 }).plFree s
    else
      let x := if naks == j.tries + 1 && decide (d.plMaxRetries ≤ j.tries) then d.plReroute i j else (d, false)
      if x.2 then ((x.1.plUnjob s).plFree s).plKickAll else ((x.1.plUnjob s).plEndJob i res).plFree s

/-- Some other stream of the coverage set transmits (R144). -/
def Dev.plOthersSend (d : Dev) (s : Nat) : Bool :=
  d.plOverlap s != 0 && d.pl.lanes.any fun p =>
    p.1 != s && (p.2.st == .tx || p.2.st == .resp) && d.plOverlap p.1 == d.plOverlap s

/-- A transmission on a stream has ended: the medium of its coverage set turns idle (R144). -/
def Dev.plQuietens (d : Dev) (s : Nat) : Dev :=
  { d with pl := { d.pl with lanes := NMap.mapAll d.pl.lanes fun k l =>
      if k != s && d.plOverlap s != 0 && d.plOverlap k == d.plOverlap s then { l with idle := max l.idle d.clk } else l } }

/-- A lane's job goes back to the job table, and the lane is IDLE. -/
def Dev.plGiveBack (d : Dev) (s : Nat) : Dev := ((d.plReturnJob s).plUnjob s).plIdle s

/-- The two octets of a frame's FCS, which its acknowledgement carries (R143). -/
def frameCheck (f : List Octet) : Nat := ofBE (f.drop (f.length - 2))

/-- A lane sends its job's frame from now on (R135, R144): what it addresses to a neighbour whose tone map it has not got asks for one
(DESIGN CHOICE, notes/assumptions/62.md). -/
def Dev.plSend (d : Dev) (lane : Nat) (j : Job) : Dev :=
  let nbr := (d.plHop j).slot
  let f := j.frame.getD []
  let tone := d.plTone lane nbr
  (((d.setPlLane lane { d.plLane lane with
      st := .tx, first := d.axis + d.plLead lane, octets := f, tone := tone, since := d.clk }).count (fPlTxFrames lane)).countCampFrame j).emit
    (.plFrame lane tone.1 tone.2 (d.plAtten lane) ((nbr.map fun n => (NMap.find d.pl.tones n).isNone).getD false) f)

/-- A lane that may send its job `i` builds the job's frame and sends it (R117, R144, R219). -/
def Dev.plLaunch (d : Dev) (lane i : Nat) (j0 : Job) : Dev :=
  let first := d.axis + d.plLead lane
  let r := d.lateNow j0 first
  if !r.1 then (if d.ledgerRuns then (r.2.2.skipLate j0).plFree lane else d.plGiveBack lane)
  else
    let j1 := d.atSending r.2.1 first (Config.plPreUs (b2n (d.plFcc lane)))
    match r.2.2.buildFrame (d.plHop j1) (d.plPre j1) with
    | none => ((r.2.2.plUnjob lane).jobCounterEnd true i (d.plHop j0)).plFree lane
    | some (j2, x) =>
      let j := { j1 with seq := j2.seq, frame := j2.frame }
      ((x.updPlJob i fun _ => j).plSend lane j)

/-- PL_ACCESS_SLOT (R134, R144): the job's slot is reached with the medium idle, and its frame fits before its
deadline; where nothing may be sent, or the job's route no longer is on this stream, the job goes back to its table (R149, R466). -/
def execPlAccessSlot (t lane : Nat) (s : State) : Result := run t s fun d =>
  let l := d.plLane lane
  match l.st, l.job.bind (NMap.find d.pl.jobs) with
  | .access, some j =>
    if d.quiet then d.plGiveBack lane
    else if d.plJobStream j != some lane then (d.plGiveBack lane).plKickAll
    else if decide (d.clk < d.plStartAt lane j.cls) || d.plOthersSend lane
        || decide (j.deadline < d.clk + d.plLead lane + usT (d.plAirOf lane j)) then d
    else d.plLaunch lane (l.job.getD 0) j
  | _, _ => d

/-- The last sample of a lane has left: it blanks its stream for 40 µs more (R134). -/
def PlLane.sent (l : PlLane) (clk : Nat) : PlLane := { l with blank := clk + usT 40, since := clk }

/-- A lane has sent its last sample. -/
def Dev.plStopped (d : Dev) (lane us : Nat) : Bool := decide ((d.plLane lane).first + usT us ≤ d.axis)

/-- PL_TX_END (R135). -/
def execPlTxEnd (t lane : Nat) (s : State) : Result := run t s fun d =>
  let l := d.plLane lane
  match l.st, l.job.bind (NMap.find d.pl.jobs) with
  | .tx, some j =>
    if !d.plStopped lane (d.plSendUs lane l) then d
    else
      let d1 := (d.setPlLane lane (l.sent d.clk)).plQuietens lane
      if j.ar then d1.setPlLane lane { l.sent d.clk with st := .await }
      else ((d1.plUnjob lane).plEndJob (l.job.getD 0) 1).plFree lane
  | _, _ => d

/-- PL_RESPONSE (R135, R143, R145): an ACK with the frame-check value of the frame sent ends the job ACKED; a NACK is an attempt without
acknowledgement. One with another value answers another frame and is not heard. -/
def execPlResponse (t lane : Nat) (ack : Bool) (check : Nat) (s : State) : Result := run t s fun d =>
  let l := d.plLane lane
  match l.st, l.job with
  | .await, some i =>
    if check != frameCheck l.octets then d
    else if ack then ((d.plUnjob lane).plEndJob i 0).plFree lane
    else (d.count (fPlNoAck lane)).plAttemptFailed lane i 2
  | _, _ => d

/-- How long after its time tag a powerline lane sees a sample (R112). -/
def Dev.plSeesT (d : Dev) (s : Nat) : Nat :=
  if d.plSrcLink s then (d.link (d.plLink s)).delay.toNat + usT 70 else usT 30

/-- PL_AWAIT_TIMEOUT (R112, R135): the turnaround and two slots have passed, as the lane sees it. -/
def execPlAwaitTimeout (t lane : Nat) (s : State) : Result := run t s fun d =>
  let l := d.plLane lane
  match l.st, l.job with
  | .await, some i =>
    if d.clk < l.since + usT (d.plAckUs + 2 * d.plSlotUs lane) + d.plSeesT lane then d
    else (d.count (fPlNoAck lane)).plAttemptFailed lane i 2
  | _, _ => d

/-- JOB_DEADLINE (R113, R149): a job not started by its deadline leaves its table; one whose attempt is on air, or
awaits its acknowledgement, finishes that attempt. NO_ROUTE counts on the stream of the meter's last candidate, for a meter that never had
one on stream 0: the spec does not say on which (DESIGN CHOICE, notes/assumptions/64.md). -/
def execJobDeadline (t : Nat) (pl : Bool) (job : Nat) (s : State) : Result := run t s fun d =>
  match NMap.find (if pl then d.pl.jobs else d.air.jobs) job with
  | none => d
  | some j =>
    if d.clk < j.deadline then d
    else if d.jobOnAir pl j then d
    else if pl then
      let res := d.lateResult true j
      let d1 := if res == 7 then d.count (fPlNoRoute ((j.slot.bind d.lastStream).getD 0)) else d
      match j.lane with
      | some n =>
        let d2 := (d1.plUnjob n).plEndJob job res
        if (d2.plLane n).st == .access then d2.plFree n else d2
      | none => d1.plEndJob job res
    else
      let d1 := match j.lane with | some n => d.letGo n | none => d
      d1.endJob false job (d.lateResult false j)

/-- JOB_TABLE_ENTRY (R113, R145). -/
def execJobTableEntry (t : Nat) (s : State) : Result := run t s fun d => d.enterJob.plKickAll

/-- JOB_ASSIGN (R115, R135): a free lane takes the best eligible RF job, and each IDLE powerline lane its own. -/
def execJobAssign (t : Nat) (s : State) : Result := run t s fun d => d.assignJob.plKickAll

end Sys2Proof.Machine
end

