-- ==== Sys2Proof/Machine/PlReceive.lean ====
section
/-!
DEFINITION. Powerline lanes receiving: preamble, frame end, hold close, reassembly and responses (spec 05, R135–R143,
R147). PRESUMED: what octets the adaptation layer's headers and messages are made of is notes/assumptions/62.md's.
-/

namespace Sys2Proof.Machine

/-- Powerline duplicate groups nobody refers to any longer are closed. -/
def Dev.plPrune (d : Dev) : Dev :=
  let busy (g : Nat) : Bool := d.pl.lanes.any fun p =>
    p.2.grp == g && (p.2.st == .rx || p.2.st == .hold || (p.2.st == .off && p.2.frame.isSome))
  { d with pl := { d.pl with grps := NMap.keep d.pl.grps fun g _ => busy g } }

/-- The group of a preamble: the conditions of R89 with powerline coverage sets (R142). -/
def Dev.plGroupOf (d : Dev) (s tag : Nat) : Nat × Dev :=
  let band : Int := (b2n (d.plFcc s) : Nat)
  let joins (g : DupGroup) : Bool :=
    g.kept.isNone && d.plOverlap s != 0 && d.plOverlap g.stream == d.plOverlap s && g.freq == band
      && decide (((tag : Int) - g.tag).natAbs * 1000000 ≤ 50 * 2 ^ 36)
  match d.pl.grps.find? fun p => joins p.2 with
  | some p => (p.1, d)
  | none =>
    let g := d.pl.nextG
    let own : DupGroup := ⟨tag, s, band, ⟨false, 0, 0, false⟩, none, none⟩
    (g, { d with pl := { d.pl with grps := NMap.put d.pl.grps g own, nextG := (g + 1) % 4096 } })

/-- Antenna time of what a powerline stream's samples place at `raw` (R73, R132, R133): on a link Reed-head time less the link's offset, on
a local front end device time; less ANT_DELAY. -/
def Dev.plAntTag (d : Dev) (s raw : Nat) : Nat :=
  let ant := cdiv (d.plAntNs s * 2 ^ 36) 1000000000
  if d.plSrcLink s then d.extend (toTwos 64 ((raw : Int) - (d.link (d.plLink s)).offset - ant)) else raw - ant

/-- Link quality of a powerline signal-to-noise ratio in 0.25 dB (R138). -/
def plLq (snr : Int) : Nat := lqOf (snr + 40)

/-- A lane detects the preamble: it keeps no frame under back-pressure, is not blanked by what it sends, and the correlation exceeds the
noise floor, the running RMS, by DET_THR (R132, R134, R139). -/
def Dev.plHears (d : Dev) (s corr : Nat) : Bool :=
  !d.plKeeps s && !d.plBlanked s && decide (corr + d.plDetThr s ≤ d.plNoise s)

/-- PL_PREAMBLE (R135, R145, R153): a lane that is IDLE or in ACCESS receives; a job waiting in ACCESS meets a busy
medium. -/
def execPlPreamble (t lane : Nat) (x : PlHeard) (s : State) : Result := run t s fun d0 =>
  let l := d0.plLane lane
  if (l.st != .idle && l.st != .access) || !d0.plHears lane x.corr then d0
  else
    let w := d0.sweep lane
    let d := if w.st == .wait then d0.setSweep lane { w with heard := true } else d0
    let tag := d.plAntTag lane x.raw
    let lq := plLq x.snr
    let g := d.plGroupOf lane tag
    let rx (x : Dev) (y : PlLane) : Dev :=
      x.setPlLane lane { PlLane.init with
        st := .rx, tag := tag, lq := lq, grp := g.1, job := y.job, be := y.be, busy := y.busy, idle := y.idle, blank := y.blank
        since := x.clk }
    match l.st, l.job.bind (NMap.find d.pl.jobs) with
    | .access, some j =>
      let d1 := g.2.count (fPlCcaBusy lane)
      if d.plMaxCsma ≤ l.busy + 1 then
        let d2 := (d1.count (fPlLbtFail lane))
        let i := l.job.getD 0
        if d.plSpent j then (rx d2 { l with job := none, be := 0, busy := 0 }).plEndJob i 3
        else rx (d2.updPlJob i fun x => { x with tries := x.tries + 1, res := 3 }) { l with be := d.plMinBe, busy := 0 }
      else rx d1 { l with be := if j.cls ≤ 1 then l.be else min (l.be + 1) d.plMaxBe, busy := l.busy + 1 }
    | _, _ => rx g.2 l

/-- µs the medium stays busy after a frame that requests an acknowledgement (R144). -/
def Dev.plTailUs (d : Dev) (s : Nat) (ar : Bool) : Nat := if ar then d.plAckUs + Config.plRespUs (b2n (d.plFcc s)) else 0

/-- A response may be sent: the link's delay allows it (R143). -/
def Dev.plCanRespond (d : Dev) (s : Nat) : Bool :=
  !(d.plSrcLink s && decide ((d.plAckUs - 320) * 500 < (d.link (d.plLink s)).fullNs))

/-- When the medium is idle again after the frame a lane has received (R144): at its end, and for one that asks for an acknowledgement
after the turnaround and one ACK more. -/
def Dev.plIdleAfter (d : Dev) (s endT : Nat) (ar : Bool) : Nat := d.clkAt endT + usT (d.plTailUs s ar)

/-- A lane has done with the frame it has received. -/
def Dev.plDone (d : Dev) (s endT : Nat) (ar : Bool) : Dev := (d.plFreeFrom s (d.plIdleAfter s endT ar)).plPrune

/-- A lane turns to its response, or is freed and counted where the link's delay forbids it (R143); it is
freed where nothing may be sent (R466). -/
def Dev.plRespond (d : Dev) (s endT check : Nat) (ack : Bool) : Dev :=
  if d.quiet then d.plDone s endT true
  else if d.plCanRespond s then
    (d.setPlLane s { d.plLane s with
      st := if ack then .turn else .nack, ack := ack, frame := none, endT := endT, ar := true, check := check, since := d.clk }).plPrune
  else (d.count (fPlAckLate s)).plDone s endT true

/-- The device answers, or is done, as the frame asks. -/
def Dev.plAnswer (d : Dev) (s endT check : Nat) (ar ack : Bool) : Dev :=
  if ar then d.plRespond s endT check ack else d.plDone s endT false

/-! What a frame's octets say. -/

/-- The mesh addressing header octets begin with: its originator and its octets. A short address stands as the number it is. -/
def meshAt (os : List Octet) : Option (Eui × Nat) :=
  let b := ofLE (os.take 1)
  let i := if b % 16 == 15 then 2 else 1
  let a := if b.testBit 5 then 2 else 8
  let n := i + a + (if b.testBit 4 then 2 else 8)
  if b / 64 == 2 && decide (n ≤ os.length) then some (BitVec.ofNat 64 (ofBE ((os.drop i).take a)), n) else none

/-- The fragmentation header octets begin with, and its octets. -/
def fragAt (os : List Octet) : Option (PlFrag × Nat) :=
  let w := ofBE (os.take 2)
  let f (n : Nat) : PlFrag := ⟨ofBE ((os.drop 2).take 2), w % 2048, 8 * n⟩
  if w / 2048 == 24 && decide (4 ≤ os.length) then some (f 0, 4)
  else if w / 2048 == 28 && decide (5 ≤ os.length) then some (f (ofBE ((os.drop 4).take 1)), 5)
  else none

/-- The routing message octets are. -/
def routeAt (os : List Octet) : Option RouteMsg :=
  let g (i n : Nat) : Nat := ofBE ((os.drop i).take n)
  if os.length == 14 && os.take 2 == [0x40, 0x01] && decide (g 2 1 ≤ 2) then
    some ⟨g 2 1, g 3 1, g 4 2, BitVec.ofNat 64 (g 6 8)⟩
  else none

/-- A frame that has passed its checks taken apart (R136): the MAC payload `p` of what R105 keeps, by its adaptation headers. -/
def PlRx.of (h : MacHdr) (f : PlFrame) (e : RxDone) : PlRx :=
  let p := e.octets.drop e.hdrLen
  let mesh := meshAt p
  let n := (mesh.map (·.2)).getD 0
  let frag := fragAt (p.drop n)
  let q := p.drop (n + (frag.map (·.2)).getD 0)
  { hdr := h, done := e, modn := f.modn, tmReq := f.tmReq, orig := mesh.map (·.1), mesh := p.take n, frag := frag.map (·.1)
    route := routeAt q, payload := q }

/-- Who a frame comes from: its mesh originator, or its MAC source. -/
def PlRx.from' (f : PlRx) : Eui := f.orig.getD f.hdr.srcEui

/-- A MAC segment joins those of its source (R136): the octets of the frame once its last one is there. The MAC header of the first stands for
all; a segment out of turn gives up what was there. -/
def Dev.plSegment (d : Dev) (s : Nat) (h : MacHdr) (f : PlFrame) (os : List Octet) : Option (List Octet) × Dev :=
  let xs := NMap.look d.pl.segs s []
  let rest := xs.filter fun x => x.src != h.srcEui
  let put (ys : List Segs) : Dev := { d with pl := { d.pl with segs := NMap.put d.pl.segs s ys } }
  let so := if f.seg == 0 then some os else (xs.find? fun x => x.src == h.srcEui && x.next == f.seg).map fun x => x.octets ++ os.drop h.octets
  match so with
  | none => (none, put rest)
  | some y => if f.last then (some y, put rest) else (none, put (rest ++ [⟨h.srcEui, f.seg + 1, y⟩]))

/-! Frames at their end. -/

/-- The frame goes to a sweep at its frame end (R152). -/
def Dev.plForSweep (d : Dev) (s : Nat) (f : PlRx) : Bool :=
  let st := (d.sweep s).st
  (st == .wait || st == .confirm) && !f.hdr.sec && f.hdr.ftype == 1 && f.payload.head? == some 0xD1

/-- A frame whose hop checks pass: slot and class, and HOLD (R90, R140, R142). -/
def Dev.plToHold (d : Dev) (s : Nat) (f : PlRx) (nbr slot : Option Nat) (cls : Nat) : Dev :=
  let l := d.plLane s
  let e := f.done
  let own : DupGroup := ⟨l.tag, s, (b2n (d.plFcc s) : Nat), ⟨false, 0, 0, false⟩, some e.endT, none⟩
  match holdIn d.pl.grps d.pl.nextG l.grp own (frameContent f.hdr e) e.endT with
  | none => d.plDone s e.endT f.hdr.ar
  | some (g, gs, ng) =>
    (({ d with pl := { d.pl with grps := gs, nextG := ng } } : Dev).setPlLane s
      { l with
        st := .hold, grp := g, frame := some f, endT := e.endT, ar := f.hdr.ar, check := e.fcsVal, nbr := nbr, slot := slot, cls := cls
        lq := e.lq, since := d.clk }).plPrune

/-- A tone map response of a neighbour (R136): its modulation and the carriers it wants used. -/
def Dev.plToneMap (d : Dev) (nbr : Nat) (os : List Octet) : Dev :=
  let m : Nat × Nat := (ofBE ((os.drop 2).take 9), ofBE ((os.drop 1).take 1))
  { d with pl := { d.pl with tones := NMap.put d.pl.tones nbr m } }

/-- The answer to a neighbour's tone map request (R136). -/
def Dev.toneMapReply (d : Dev) (s nbr lq : Nat) : Dev :=
  d.queueJob { Job.base .toneMap (some nbr) 1 d.clk (d.clk + secT d.plRreqS) ([0x0A] ++ octetsBE (Config.toneMap s lq) 10) with
    via := some (s, 0, ⟨false, 0, 0, false⟩), ar := false, pl := true }

/-- A MAC command frame from a neighbour in the directory: a tone map response is taken (R136), every other refused (R100). -/
def Dev.plCommand (d : Dev) (s nbr : Nat) (f : PlRx) : Dev :=
  let os := f.done.octets.drop f.done.hdrLen
  if os.length == 11 && os.head? == some 0x0A then
    ((d.plToneMap nbr os).updRec nbr fun r => { r with rxCtr := max r.rxCtr f.done.fctr }).plAnswer s f.done.endT f.done.fcsVal f.hdr.ar true
  else d.plDone s f.done.endT f.hdr.ar

/-- The checks of a frame that has passed its FCS (R137, R140): `os` without it. -/
def Dev.plJudge (d : Dev) (s endT fcsVal : Nat) (h : MacHdr) (f : PlFrame) (os : List Octet) : Dev :=
  let lq := plLq f.snr
  match d.lookup h.srcEui with
  | none =>
    let x := PlRx.of h f (plainDone endT fcsVal lq h os)
    if d.plForSweep s x then
      ((d.sweepTake s ⟨h.srcEui, x.payload, lq⟩).plAnswer s endT fcsVal h.ar true)
    else d.plToHold s x none none 4
  | some n =>
    let y := PlRx.of h f (plainDone endT fcsVal lq h os)
    if d.plForSweep s y then ((d.sweepTake s ⟨h.srcEui, y.payload, lq⟩).plAnswer s endT fcsVal h.ar true)
    else
      let r := openDone endT fcsVal lq (d.clearKeys n (d.keysOf n)) (((d.rec? n).map MeterRec.rxCtr).getD 0) h h.srcEui os
      let x := PlRx.of h f r.2
      match r.1 with
      | .secFail => (d.count (fPlSecFail s)).plDone s endT h.ar
      | .replay => (d.count (fPlReplay s)).plDone s endT h.ar
      | .counterEnd => (d.raise 0x020 [r.2.keyIdx] (some n)).plDone s endT h.ar
      | .pass =>
        let d1 := if f.tmReq then d.toneMapReply s n lq else d
        if h.ftype == 3 then d1.plCommand s n x
        else
          let slot := match x.orig with
            | some e => d.lookup e
            | none => some n
          d1.plToHold s x (some n) slot (d.finalClass slot x.payload.head?)

/-- A frame is addressed to the device itself. -/
def Dev.plToUs (d : Dev) (h : MacHdr) : Bool :=
  match h.dst with
  | .short a => a == d.netShort
  | .ext e => e == d.netEui
  | .none => false

/-- A frame whose MAC header has passed the filter, at its end (R135, R140, R143). -/
def Dev.plEnded (d : Dev) (s endT : Nat) (h : MacHdr) (f : PlFrame) : Dev :=
  let os := dropTail 2 f.psdu
  let fcsVal := frameCheck f.psdu
  if h.sec && (d.lookup h.srcEui).isNone then (d.count (fPlUnknownSrc s)).plDone s endT h.ar
  else
    let d1 := d.count (fPlRxFrames s)
    if !fcsPass true f.psdu then
      let d2 := d1.count (fPlFcsErr s)
      if h.ar && d.plToUs h then d2.plRespond s endT fcsVal false else d2.plDone s endT h.ar
    else
      match d1.plSegment s h f os with
      | (some whole, d2) => d2.plJudge s endT fcsVal h f whole
      | (none, d2) => d2.plAnswer s endT fcsVal h.ar true

/-- PL_FRAME_END (R135, R136, R140, R143, R152). -/
def execPlFrameEnd (t lane : Nat) (f : PlFrame) (s : State) : Result := run t s fun d =>
  if (d.plLane lane).st != .rx then d
  else if !f.fchOk then ((d.count (fPlFchErr lane)).plFree lane).plPrune
  else
    let endT := d.plAntTag lane f.raw
    match parseMac f.psdu with
    | none => d.plDone lane endT false
    | some h => if d.macFilter h then d.plEnded lane endT h f else d.plDone lane endT h.ar

/-! Kept copies. -/

/-- The packet of a kept powerline frame, without its data (R105, R141). -/
def PlLane.packet (l : PlLane) (s : Nat) (f : PlRx) : Packet :=
  { cls := l.cls, len := 0, qseq := 0, time := l.tag, slot := l.slot, dup := some l.grp, stream := s, sub := 0, lq := f.done.lq, data := []
    item := .frame ⟨f.done.hdrLen + f.mesh.length, f.from', f.done.fctr, f.done.keyIdx, l.tag, true, s⟩ }

/-- What stands before a packet's payload: the MAC and auxiliary security headers and the mesh header (R141). -/
def PlRx.head (f : PlRx) : List Octet := f.done.octets.take f.done.hdrLen ++ f.mesh

/-- A packet with its octets. -/
def Packet.withOctets (p : Packet) (os : List Octet) : Packet := { p with len := os.length, data := packOctets os }

/-- The datagram's octets so far, by offset; none where two pieces differ on an octet. -/
def mergeParts : List (Nat × List Octet) → NMap Octet → Option (NMap Octet)
  | [], m => some m
  | (o, os) :: r, m =>
    let ps := (List.range os.length).map fun i => (o + i, os.getD i 0)
    if ps.any fun q => (NMap.find m q.1).map (· != q.2) == some true then none
    else mergeParts r (ps.foldl (fun a q => NMap.put a q.1 q.2) m)

def Dev.setReasm (d : Dev) (s : Nat) (xs : List Reasm) : Dev :=
  { d with pl := { d.pl with reasm := NMap.put d.pl.reasm s xs } }

/-- A kept fragment (R141). One that reaches past its datagram's declared size discards the entry as OVERSIZE, and one that declares another
size is held to the first one's: the spec gives neither case (DESIGN CHOICE, notes/assumptions/64.md). -/
def Dev.plFragment (d : Dev) (s : Nat) (l : PlLane) (f : PlRx) (g : PlFrag) : Dev :=
  let xs := NMap.look d.pl.reasm s []
  let mine (x : Reasm) : Bool := x.orig == f.from' && x.tag == g.tag
  if g.size == 0 then d.count (fMalformed l.cls)
  else if !xs.any mine && 16 ≤ xs.length then d.count (fPlReasmFull s)
  else
    let x := (xs.find? mine).getD ⟨f.from', g.tag, g.size, d.clk, [], none⟩
    let rest := xs.filter fun y => !mine y
    let head := if g.offset == 0 then some (l.packet s f, f.head) else x.head
    let hl := (head.map fun h => h.2.length).getD 0
    if 1280 < g.size || 1280 < hl + x.size || x.size < g.offset + f.payload.length then (d.setReasm s rest).count (fOversize l.cls)
    else
      let parts := x.parts ++ [(g.offset, f.payload)]
      match mergeParts parts [] with
      | none => (d.setReasm s rest).count (fMalformed l.cls)
      | some m =>
        match head with
        | some (p, hs) =>
          if m.length == x.size then (d.setReasm s rest).enqueue 1 p.cls (p.withOctets (hs ++ m.map (·.2)))
          else d.setReasm s (rest ++ [{ x with parts := parts, head := head }])
        | none => d.setReasm s (rest ++ [{ x with parts := parts, head := none }])

/-- A routing message of meter `m` kept from neighbour `n` (R136, R147, R149): a request or reply gives a candidate, the first reply to
the device's request adopts a route at once, a request for the device is answered, and an error ends the route it names. -/
def Dev.plRouting (d : Dev) (s n m cost : Nat) (f : PlRx) (q : RouteMsg) : Dev :=
  if q.kind == 2 then
    match d.lookup q.dst with
    | some k => d.updRec k fun r => r.dropHop s n
    | none => d
  else
    let d1 := d.candidate m s n (q.hops + 1) (q.cost + cost)
    if q.kind == 1 then
      if (NMap.find d.pl.rreq m).isSome then d1.updRec m fun r => if r.route.isNone then r.adopt m d1.nowS else r else d1
    else if q.dst == d.netEui then d1.routeReply s n f.from' else d1

/-- The candidates a kept frame gives (R147), and what its routing message does. -/
def Dev.plCandidates (d : Dev) (s : Nat) (l : PlLane) (f : PlRx) : Dev :=
  match l.nbr with
  | none => d
  | some n =>
    let cost := d.linkCost f.modn f.done.lq
    let d1 := d.candidate n s n 1 cost
    match f.route, l.slot with
    | some q, some m => d1.plRouting s n m cost f q
    | _, _ => d1

/-- A kept powerline copy: the neighbour's counter, routes, the queue or the reassembly table, and the response (R91,
R141–R143). -/
def Dev.plKeep (d : Dev) (s : Nat) (l : PlLane) (f : PlRx) : Dev :=
  let d1 := (match l.nbr with
    | some n => d.updRec n fun r => { r with rxCtr := max r.rxCtr f.done.fctr }
    | none => d).plCandidates s l f
  let os := f.head ++ f.payload
  let d2 :=
    if f.route.isSome then d1
    else match f.frag with
      | some g => d1.plFragment s l f g
      | none =>
        if 1280 < os.length then d1.count (fOversize l.cls) else d1.enqueue 1 l.cls ((l.packet s f).withOctets os)
  if l.st == .off then d2.setPlLane s PlLane.init else d2.plAnswer s l.endT l.check f.hdr.ar true

/-- The longest of the times after which a lane of a group that still receives a copy or holds one sees a sample (R90, R112). -/
def Dev.plLateT (d : Dev) (g : Nat) : Nat :=
  ((d.pl.lanes.filter fun p => p.2.grp == g && (p.2.st == .rx || p.2.st == .hold)).map fun p => d.plSeesT p.1).foldl max (usT 30)

/-- A powerline copy whose frame ended after its group's hold had closed (R91, R142): late and dropped, or a frame of its
own. -/
def Dev.plLateCopy (d : Dev) (s : Nat) (l : PlLane) : Dev :=
  match l.frame, l.st with
  | some f, .hold => d.plToHold s f l.nbr l.slot l.cls
  | _, _ => d.setPlLane s PlLane.init

/-- The hold of a powerline group closes (R90, R142). -/
def Dev.plCloseHold (d : Dev) (g : Nat) : Dev :=
  match NMap.find d.pl.grps g with
  | none => d
  | some x =>
    match x.hold, x.kept with
    | some h0, none =>
      if d.axis < h0 + usT 200 + d.plLateT g then d
      else
        let inTime (l : PlLane) : Bool := decide (l.endT ≤ h0 + usT 200)
        let held := d.pl.lanes.filter fun p => p.2.grp == g && p.2.frame.isSome && (p.2.st == .hold || p.2.st == .off)
        let hs := held.filter fun p => inTime p.2
        let con (l : PlLane) : Content := (l.frame.map fun f => frameContent f.hdr f.done).getD ⟨0, 0, 0⟩
        let key (p : Nat × PlLane) : Nat × Nat × Nat × Nat := (255 - p.2.lq, p.2.tag, p.1, 0)
        let best (p : Nat × PlLane) : Bool :=
          (bestBy (fun a b => before (key a) (key b)) (hs.filter fun q => con q.2 == con p.2)).map (·.1) == some p.1
        let d1 : Dev := { d with pl := { d.pl with
          grps := NMap.put d.pl.grps g { x with kept := some (hs.map fun p => con p.2).eraseDups } } }
        let step (y : Dev) (p : Nat × PlLane) : Dev :=
          match best p, p.2.frame with
          | true, some f => y.plKeep p.1 p.2 f
          | _, _ =>
            let z := y.count (fPlDupDrop p.1)
            if p.2.st == .off then z.setPlLane p.1 PlLane.init else z.plDone p.1 p.2.endT p.2.ar
        ((held.filter fun p => !inTime p.2).foldl (fun (y : Dev) p => y.plLateCopy p.1 p.2) (hs.foldl step d1)).plPrune
    | _, _ => d

/-- HOLD_CLOSE (R90, R142). -/
def execHoldClose (t : Nat) (pl : Bool) (grp : Nat) (s : State) : Result := run t s fun d =>
  if pl then d.plCloseHold grp else d.closeHold grp

/-- REASM_TIMEOUT (R141). -/
def execReasmTimeout (t stream : Nat) (orig : Eui) (tag : Nat) (s : State) : Result := run t s fun d =>
  let xs := NMap.look d.pl.reasm stream []
  let over' (x : Reasm) : Bool := x.orig == orig && x.tag == tag && d.passedMs x.since (d.reasmS * 1000)
  (d.setReasm stream (xs.filter fun x => !over' x)).countN (fPlReasmTo stream) (xs.filter over').length

/-- A response's octets: whether it is an ACK, and the frame-check value of the frame it answers (R143). -/
def responseOctets (ack : Bool) (check : Nat) : List Octet := octetsBE (b2n ack) 1 ++ octetsBE check 2

/-- PL_RESP_START (R112, R143): the first sample leaves the coupler PL_ACK_US after the frame end, and the device as much earlier as it is
on its way. -/
def execPlRespStart (t lane : Nat) (s : State) : Result := run t s fun d =>
  let l := d.plLane lane
  let first := l.endT + usT d.plAckUs
  if !(l.st == .turn || l.st == .nack) || decide (d.axis + d.plLead lane < first) then d
  else if d.quiet then d.plFree lane
  else
    ((d.setPlLane lane { l with
        st := .resp, first := first, octets := responseOctets l.ack l.check, tone := d.plTone lane none, since := d.clk }).count
      (if l.ack then fPlAckSent lane else fPlNackSent lane)).emit (.plResp lane l.ack l.check)

/-- PL_RESP_END (R135). -/
def execPlRespEnd (t lane : Nat) (s : State) : Result := run t s fun d =>
  let l := d.plLane lane
  if l.st == .resp && d.plStopped lane (Config.plRespUs (b2n (d.plFcc lane))) then
    ((d.setPlLane lane (l.sent d.clk)).plQuietens lane).plFree lane
  else d

end Sys2Proof.Machine
end

