-- ==== Sys2Proof/Machine/Dispatch.lean ====
section
/-!
DEFINITION. The dispatch: one arm for each command, each one direct call of its meaning.
-/

namespace Sys2Proof.Machine

def exec (i : Instr) (s : State) : Host.Outcome State Fault Refusal :=
  match i with
  | .packetWrite t g b => Sys2Proof.Machine.execPacketWrite t g b s
  | .staleTimeout t g c => Sys2Proof.Machine.execStaleTimeout t g c s
  | .flush t g c => Sys2Proof.Machine.execFlush t g c s
  | .mireFill t g c bad => Sys2Proof.Machine.execMireFill t g c bad s
  | .linkFrameSend t link => Sys2Proof.Machine.execLinkFrameSend t link s
  | .linkFrame t link f => Sys2Proof.Machine.execLinkFrame t link f s
  | .delayReq t link => Sys2Proof.Machine.execDelayReq t link s
  | .delayResp t link t1 t2 t3 t4 => Sys2Proof.Machine.execDelayResp t link t1 t2 t3 t4 s
  | .status t link body => Sys2Proof.Machine.execStatus t link body s
  | .alarm t link bits => Sys2Proof.Machine.execAlarm t link bits s
  | .reedSilent t link => Sys2Proof.Machine.execReedSilent t link s
  | .blockLock t link line => Sys2Proof.Machine.execBlockLock t link line s
  | .blockLockLost t link line => Sys2Proof.Machine.execBlockLockLost t link line s
  | .alignTimeout t link => Sys2Proof.Machine.execAlignTimeout t link s
  | .lostTimeout t link => Sys2Proof.Machine.execLostTimeout t link s
  | .startBlockTimeout t link => Sys2Proof.Machine.execStartBlockTimeout t link s
  | .streamGainChange t stream gain => Sys2Proof.Machine.execStreamGainChange t stream gain s
  | .detection t x => Sys2Proof.Machine.execDetection t x s
  | .phrClassMark t stream sub mark => Sys2Proof.Machine.execPhrClassMark t stream sub mark s
  | .pendingGrant t => Sys2Proof.Machine.execPendingGrant t s
  | .starved t stream sub group => Sys2Proof.Machine.execStarved t stream sub group s
  | .phrDecoded t lane p => Sys2Proof.Machine.execPhrDecoded t lane p s
  | .macHeaderComplete t lane os => Sys2Proof.Machine.execMacHeaderComplete t lane os s
  | .directoryLookup t lane => Sys2Proof.Machine.execDirectoryLookup t lane s
  | .frameEnd t lane e => Sys2Proof.Machine.execFrameEnd t lane e s
  | .holdClose t pl grp => Sys2Proof.Machine.execHoldClose t pl grp s
  | .ackStart t lane => Sys2Proof.Machine.execAckStart t lane s
  | .ackEnd t lane => Sys2Proof.Machine.execAckEnd t lane s
  | .mailWindowEnd t slot => Sys2Proof.Machine.execMailWindowEnd t slot s
  | .jobTableEntry t => Sys2Proof.Machine.execJobTableEntry t s
  | .jobAssign t => Sys2Proof.Machine.execJobAssign t s
  | .backoffEnd t lane => Sys2Proof.Machine.execBackoffEnd t lane s
  | .ccaEnd t lane powers => Sys2Proof.Machine.execCcaEnd t lane powers s
  | .slottedCca t job => Sys2Proof.Machine.execSlottedCca t job s
  | .txStart t lane => Sys2Proof.Machine.execTxStart t lane s
  | .blankEnd t stream => Sys2Proof.Machine.execBlankEnd t stream s
  | .txEnd t lane => Sys2Proof.Machine.execTxEnd t lane s
  | .ackReceived t lane a => Sys2Proof.Machine.execAckReceived t lane a s
  | .ackWaitTimeout t lane => Sys2Proof.Machine.execAckWaitTimeout t lane s
  | .jobDeadline t pl job => Sys2Proof.Machine.execJobDeadline t pl job s
  | .dwellBucket t stream chan => Sys2Proof.Machine.execDwellBucket t stream chan s
  | .hornListenStart t slot => Sys2Proof.Machine.execHornListenStart t slot s
  | .hornListenEnd t slot => Sys2Proof.Machine.execHornListenEnd t slot s
  | .hornCountReset t => Sys2Proof.Machine.execHornCountReset t s
  | .plPreamble t lane x => Sys2Proof.Machine.execPlPreamble t lane x s
  | .plFrameEnd t lane f => Sys2Proof.Machine.execPlFrameEnd t lane f s
  | .reasmTimeout t stream orig tag => Sys2Proof.Machine.execReasmTimeout t stream orig tag s
  | .plRespStart t lane => Sys2Proof.Machine.execPlRespStart t lane s
  | .plRespEnd t lane => Sys2Proof.Machine.execPlRespEnd t lane s
  | .plAccessSlot t lane => Sys2Proof.Machine.execPlAccessSlot t lane s
  | .plTxEnd t lane => Sys2Proof.Machine.execPlTxEnd t lane s
  | .plResponse t lane ack check => Sys2Proof.Machine.execPlResponse t lane ack check s
  | .plAwaitTimeout t lane => Sys2Proof.Machine.execPlAwaitTimeout t lane s
  | .routeRecompute t => Sys2Proof.Machine.execRouteRecompute t s
  | .routeRequest t slot => Sys2Proof.Machine.execRouteRequest t slot s
  | .sweepPeriod t stream => Sys2Proof.Machine.execSweepPeriod t stream s
  | .sweepReply t stream r => Sys2Proof.Machine.execSweepReply t stream r s
  | .sweepWindowEnd t stream => Sys2Proof.Machine.execSweepWindowEnd t stream s
  | .validateFrame t pl => Sys2Proof.Machine.execValidateFrame t pl s
  | .verifyDone t slot => Sys2Proof.Machine.execVerifyDone t slot s
  | .indexLookup t slot => Sys2Proof.Machine.execIndexLookup t slot s
  | .commit t => Sys2Proof.Machine.execCommit t s
  | .blockTimeLimit t => Sys2Proof.Machine.execBlockTimeLimit t s
  | .blockSigned t => Sys2Proof.Machine.execBlockSigned t s
  | .staleScan t => Sys2Proof.Machine.execStaleScan t s
  | .rebuildWalkDone t err => Sys2Proof.Machine.execRebuildWalkDone t err s
  | .rebuildReleaseEnd t => Sys2Proof.Machine.execRebuildReleaseEnd t s
  | .rebuildAbort t => Sys2Proof.Machine.execRebuildAbort t s
  | .read t m => Sys2Proof.Machine.execRead t m s
  | .disconnect t m => Sys2Proof.Machine.execDisconnect t m s
  | .reconnect t m => Sys2Proof.Machine.execReconnect t m s
  | .tariffPush t m => Sys2Proof.Machine.execTariffPush t m s
  | .keyRotate t m => Sys2Proof.Machine.execKeyRotate t m s
  | .campaignCreate t m => Sys2Proof.Machine.execCampaignCreate t m s
  | .campaignStart t m => Sys2Proof.Machine.execCampaignStart t m s
  | .campaignActivate t m => Sys2Proof.Machine.execCampaignActivate t m s
  | .campaignCancel t m => Sys2Proof.Machine.execCampaignCancel t m s
  | .cancel t m => Sys2Proof.Machine.execCancel t m s
  | .enrol t m => Sys2Proof.Machine.execEnrol t m s
  | .remove t m => Sys2Proof.Machine.execRemove t m s
  | .clearQuar t m => Sys2Proof.Machine.execClearQuar t m s
  | .rebuild t m => Sys2Proof.Machine.execRebuild t m s
  | .sweepStart t m => Sys2Proof.Machine.execSweepStart t m s
  | .sweepStop t m => Sys2Proof.Machine.execSweepStop t m s
  | .transactionOpen t cmd slot => Sys2Proof.Machine.execTransactionOpen t cmd slot s
  | .respWaitExpiry t cmd slot => Sys2Proof.Machine.execRespWaitExpiry t cmd slot s
  | .transactionDeadline t cmd slot => Sys2Proof.Machine.execTransactionDeadline t cmd slot s
  | .tariffCut t cmd => Sys2Proof.Machine.execTariffCut t cmd s
  | .tariffSwitch t cmd => Sys2Proof.Machine.execTariffSwitch t cmd s
  | .arming t camp => Sys2Proof.Machine.execArming t camp s
  | .roundStart t camp tgt => Sys2Proof.Machine.execRoundStart t camp tgt s
  | .reportWindowEnd t camp tgt => Sys2Proof.Machine.execReportWindowEnd t camp tgt s
  | .actCutoff t camp => Sys2Proof.Machine.execActCutoff t camp s
  | .confirmQuery t camp slot => Sys2Proof.Machine.execConfirmQuery t camp slot s
  | .noConfirm t camp slot => Sys2Proof.Machine.execNoConfirm t camp slot s
  | .campaignDeadline t camp => Sys2Proof.Machine.execCampaignDeadline t camp s
  | .membershipWrite t w => Sys2Proof.Machine.execMembershipWrite t w s
  | .zoneReference t z endS => Sys2Proof.Machine.execZoneReference t z endS s
  | .balWaitExpiry t z endS => Sys2Proof.Machine.execBalWaitExpiry t z endS s
  | .correlatorRun t => Sys2Proof.Machine.execCorrelatorRun t s
  | .changeBoundary t => Sys2Proof.Machine.execChangeBoundary t s
  | .syncDec t rising => Sys2Proof.Machine.execSyncDec t rising s
  | .metroReset t c => Sys2Proof.Machine.execMetroReset t c s
  | .metrologyWrite t w => Sys2Proof.Machine.execMetrologyWrite t w s
  | .tickEnd t => Sys2Proof.Machine.execTickEnd t s
  | .boundary t => Sys2Proof.Machine.execBoundary t s
  | .billReq t w => Sys2Proof.Machine.execBillReq t w s
  | .buttonPress t => Sys2Proof.Machine.execButtonPress t s
  | .scrollAdvance t => Sys2Proof.Machine.execScrollAdvance t s
  | .scrollResume t => Sys2Proof.Machine.execScrollResume t s
  | .announce t p dom f utc leap => Sys2Proof.Machine.execAnnounce t p dom f utc leap s
  | .sync t p dom seq t1 => Sys2Proof.Machine.execSync t p dom seq t1 s
  | .ptpDelayReq t p => Sys2Proof.Machine.execPtpDelayReq t p s
  | .ptpDelayResp t p dom seq t4 => Sys2Proof.Machine.execPtpDelayResp t p dom seq t4 s
  | .syncSend t p => Sys2Proof.Machine.execSyncSend t p s
  | .syncTimeout t => Sys2Proof.Machine.execSyncTimeout t s
  | .stepTakeEffect t => Sys2Proof.Machine.execStepTakeEffect t s
  | .timeStep t c => Sys2Proof.Machine.execTimeStep t c s
  | .timeSet t c => Sys2Proof.Machine.execTimeSet t c s
  | .leap t c => Sys2Proof.Machine.execLeap t c s
  | .leapSecond t => Sys2Proof.Machine.execLeapSecond t s
  | .startWaitExpiry t => Sys2Proof.Machine.execStartWaitExpiry t s
  | .beacon t stream pl => Sys2Proof.Machine.execBeacon t stream pl s
  | .rtcMeasure t err temp => Sys2Proof.Machine.execRtcMeasure t err temp s
  | .outageRtcUpdate t raw temp => Sys2Proof.Machine.execOutageRtcUpdate t raw temp s
  | .pps t => Sys2Proof.Machine.execPps t s
  | .cyclePulse t => Sys2Proof.Machine.execCyclePulse t s
  | .tsqExpired t p id => Sys2Proof.Machine.execTsqExpired t p id s
  | .mirrorRead t addr => Sys2Proof.Machine.execMirrorRead t addr s
  | .mirrorHoldRelease t => Sys2Proof.Machine.execMirrorHoldRelease t s
  | .mirrorFlip t => Sys2Proof.Machine.execMirrorFlip t s
  | .mirrorHold t => Sys2Proof.Machine.execMirrorHold t s
  | .portLinkUp t port => Sys2Proof.Machine.execPortLinkUp t port s
  | .portLinkDown t port => Sys2Proof.Machine.execPortLinkDown t port s
  | .handshakeDone t sess c => Sys2Proof.Machine.execHandshakeDone t sess c s
  | .handshakeTimeout t sess failed => Sys2Proof.Machine.execHandshakeTimeout t sess failed s
  | .sessionTimeout t sess => Sys2Proof.Machine.execSessionTimeout t sess s
  | .sessionBackoffEnd t sess => Sys2Proof.Machine.execSessionBackoffEnd t sess s
  | .keyUpdate t sess => Sys2Proof.Machine.execKeyUpdate t sess s
  | .cxpSegment t g => Sys2Proof.Machine.execCxpSegment t g s
  | .reasmTo t peer seq => Sys2Proof.Machine.execReasmTo t peer seq s
  | .ledgerAck t port ref bno csn => Sys2Proof.Machine.execLedgerAck t port ref bno csn s
  | .blockReq t ref first last => Sys2Proof.Machine.execBlockReq t ref first last s
  | .ledgerBlock t ref ws => Sys2Proof.Machine.execLedgerBlock t ref ws s
  | .blockResend t bno => Sys2Proof.Machine.execBlockResend t bno s
  | .objRead t r => Sys2Proof.Machine.execObjRead t r s
  | .objWrite t w => Sys2Proof.Machine.execObjWrite t w s
  | .recordWrite t w => Sys2Proof.Machine.execRecordWrite t w s
  | .eventRead t ref req cursor count => Sys2Proof.Machine.execEventRead t ref req cursor count s
  | .heartbeat t => Sys2Proof.Machine.execHeartbeat t s
  | .lease t req epoch grant fence => Sys2Proof.Machine.execLease t req epoch grant fence s
  | .leaseExpiry t => Sys2Proof.Machine.execLeaseExpiry t s
  | .pairHbSend t => Sys2Proof.Machine.execPairHbSend t s
  | .pairHb t path role healthy epoch csn swap => Sys2Proof.Machine.execPairHb t path role healthy epoch csn swap s
  | .lastGasp t body => Sys2Proof.Machine.execLastGasp t body s
  | .configCheck t w => Sys2Proof.Machine.execConfigCheck t w s
  | .configInstall t w => Sys2Proof.Machine.execConfigInstall t w s
  | .configClear t w => Sys2Proof.Machine.execConfigClear t w s
  | .configWriteDone t ok => Sys2Proof.Machine.execConfigWriteDone t ok s
  | .fwApply t w => Sys2Proof.Machine.execFwApply t w s
  | .fwClear t w => Sys2Proof.Machine.execFwClear t w s
  | .fwAbort t w => Sys2Proof.Machine.execFwAbort t w s
  | .fwBuildDone t bad nor => Sys2Proof.Machine.execFwBuildDone t bad nor s
  | .fwVerifyDone t => Sys2Proof.Machine.execFwVerifyDone t s
  | .warmRestart t c => Sys2Proof.Machine.execWarmRestart t c s
  | .warmRestartFirmware t c => Sys2Proof.Machine.execWarmRestartFirmware t c s
  | .warmRestartLegal t c => Sys2Proof.Machine.execWarmRestartLegal t c s
  | .warmRestartResume t => Sys2Proof.Machine.execWarmRestartResume t s
  | .swap t c => Sys2Proof.Machine.execSwap t c s
  | .storeWrite t => Sys2Proof.Machine.execStoreWrite t s
  | .checkpoint t => Sys2Proof.Machine.execCheckpoint t s
  | .checkpointValid t => Sys2Proof.Machine.execCheckpointValid t s
  | .stripeTimeout t => Sys2Proof.Machine.execStripeTimeout t s
  | .scrub t band stripe die plain sets dead => Sys2Proof.Machine.execScrub t band stripe die plain sets dead s
  | .dieLost t die => Sys2Proof.Machine.execDieLost t die s
  | .storeCopyDone t => Sys2Proof.Machine.execStoreCopyDone t s
  | .dayIndex t day => Sys2Proof.Machine.execDayIndex t day s
  | .archiveExpiry t => Sys2Proof.Machine.execArchiveExpiry t s
  | .discardDone t slot => Sys2Proof.Machine.execDiscardDone t slot s
  | .discardTimeout t slot erase => Sys2Proof.Machine.execDiscardTimeout t slot erase s
  | .eventIntake t => Sys2Proof.Machine.execEventIntake t s
  | .eventFormat t => Sys2Proof.Machine.execEventFormat t s
  | .mainsLoss t => Sys2Proof.Machine.execMainsLoss t s
  | .lastGaspRepeat t => Sys2Proof.Machine.execLastGaspRepeat t s
  | .holdupMetroEnd t => Sys2Proof.Machine.execHoldupMetroEnd t s
  | .holdupSeal t => Sys2Proof.Machine.execHoldupSeal t s
  | .holdupStoreDone t => Sys2Proof.Machine.execHoldupStoreDone t s
  | .holdupEnd t => Sys2Proof.Machine.execHoldupEnd t s
  | .holdCrit t => Sys2Proof.Machine.execHoldCrit t s
  | .comparatorCrossing t chan up => Sys2Proof.Machine.execComparatorCrossing t chan up s
  | .bandFiltered t chan above => Sys2Proof.Machine.execBandFiltered t chan above s
  | .tamper t chan => Sys2Proof.Machine.execTamper t chan s
  | .domainReady t dom => Sys2Proof.Machine.execDomainReady t dom s
  | .wakeFail t dom => Sys2Proof.Machine.execWakeFail t dom s
  | .domainIdle t dom => Sys2Proof.Machine.execDomainIdle t dom s
  | .closeDone t dom => Sys2Proof.Machine.execCloseDone t dom s
  | .switchDone t dom => Sys2Proof.Machine.execSwitchDone t dom s
  | .suppliesGood t => Sys2Proof.Machine.execSuppliesGood t s
  | .supplyTimeout t => Sys2Proof.Machine.execSupplyTimeout t s
  | .supplyFault t => Sys2Proof.Machine.execSupplyFault t s
  | .thermalTrip t => Sys2Proof.Machine.execThermalTrip t s
  | .coldStart t f => Sys2Proof.Machine.execColdStart t f s
  | .ledgerReady t => Sys2Proof.Machine.execLedgerReady t s
  | .trialConfirm t revoke => Sys2Proof.Machine.execTrialConfirm t revoke s
  | .trialTimeout t => Sys2Proof.Machine.execTrialTimeout t s
  | .hbInterval t => Sys2Proof.Machine.execHbInterval t s
  | .peerWaitExpiry t => Sys2Proof.Machine.execPeerWaitExpiry t s
  | .shipRetry t => Sys2Proof.Machine.execShipRetry t s
  | .ckptShip t p => Sys2Proof.Machine.execCkptShip t p s
  | .takeoverTimeout t => Sys2Proof.Machine.execTakeoverTimeout t s
  | .autoReturn t => Sys2Proof.Machine.execAutoReturn t s
  | .handoverTimeout t => Sys2Proof.Machine.execHandoverTimeout t s
  | .displayCommit t addr mode image temp => Sys2Proof.Machine.execDisplayCommit t addr mode image temp s
  | .frameTick t temp => Sys2Proof.Machine.execFrameTick t temp s
  | .railsReady t => Sys2Proof.Machine.execRailsReady t s
  | .railFault t => Sys2Proof.Machine.execRailFault t s
  | .railHoldExpiry t => Sys2Proof.Machine.execRailHoldExpiry t s
  | .dischargeDone t temp => Sys2Proof.Machine.execDischargeDone t temp s
  | .tempRecheck t temp => Sys2Proof.Machine.execTempRecheck t temp s
  | .uartRequest t u os bad => Sys2Proof.Machine.execUartRequest t u os bad s
  | .uartGap t u => Sys2Proof.Machine.execUartGap t u s
  | .cardInsert t => Sys2Proof.Machine.execCardInsert t s
  | .cardRemove t => Sys2Proof.Machine.execCardRemove t s
  | .cardIdentified t blk blocks fresh => Sys2Proof.Machine.execCardIdentified t blk blocks fresh s
  | .cardVerifyDone t last => Sys2Proof.Machine.execCardVerifyDone t last s
  | .cardImportDone t blks => Sys2Proof.Machine.execCardImportDone t blks s
  | .logBlockDue t => Sys2Proof.Machine.execLogBlockDue t s
  | .cardWriteConfirmed t => Sys2Proof.Machine.execCardWriteConfirmed t s
  | .cardBusyTimeout t err => Sys2Proof.Machine.execCardBusyTimeout t err s
  | .coreWatchdog t => Sys2Proof.Machine.execCoreWatchdog t s
  | .epochHold t => Sys2Proof.Machine.execEpochHold t s
  | .vbakLow t low => Sys2Proof.Machine.execVbakLow t low s
  | .vbakLoss t => Sys2Proof.Machine.execVbakLoss t s
  | .announceReceiptTimeout t p => Sys2Proof.Machine.execAnnounceReceiptTimeout t p s
  | .followUp t p dom seq t1 => Sys2Proof.Machine.execFollowUp t p dom seq t1 s
  | .announceSend t p => Sys2Proof.Machine.execAnnounceSend t p s
  | .ptpDelayReqReceived t p dom seq sender sport => Sys2Proof.Machine.execPtpDelayReqReceived t p dom seq sender sport s
  | .fatalAlert t sess => Sys2Proof.Machine.execFatalAlert t sess s
  | .arpRequest t port addr => Sys2Proof.Machine.execArpRequest t port addr s
  | .echoRequest t port body => Sys2Proof.Machine.execEchoRequest t port body s
  | .pageProgramDone t die temp ok => Sys2Proof.Machine.execPageProgramDone t die temp ok s
  | .pairBlockLock t line => Sys2Proof.Machine.execPairBlockLock t line s
  | .pairBlockLockLost t line => Sys2Proof.Machine.execPairBlockLockLost t line s

end Sys2Proof.Machine
end

