-- ==== Sys2Proof/Machine/Step.lean ====
section
/-!
DEFINITION. One step: the command at the front of the queue, or an idle block.
-/

namespace Sys2Proof.Machine

/-- The state with a command put at the front of the queue. -/
def State.put (s : State) (c : Instr) : State := { s with pending := c :: s.pending }

/-- The command at the front of the queue takes effect on a state that holds the queue's rest; with none waiting the block idles
(DESIGN CHOICE, notes/assumptions/2.md). -/
def step (s : State) : Host.Outcome State Fault Refusal :=
  match s.pending with
  | [] => .next s
  | c :: rest => exec c { s with pending := rest }

/-- The state with the command that a word spells at the front of its queue; unchanged where the word spells none. -/
def State.withFetchWord (s : State) (nbits w : Nat) : State :=
  match decodeTableWord nbits w with
  | some c => s.put c
  | none => s

end Sys2Proof.Machine
end

