-- ==== Sys2Proof/Safety.lean ====
section
/-!
DEFINITION. What statements about the block speak of: the canonical form of every word memory, what a consumer sees of a class
queue, queues without back-pressure, a sound directory set, the instant of a command, and which commands write the word memories and images.
-/

namespace Sys2Proof.Machine

/-- Every word memory has its canonical form: both configuration copies and the three staging areas. -/
def Stores.wf (st : Stores) : Bool :=
  Memory.wf st.norA && Memory.wf st.norB && Memory.wf st.cfgStage && Memory.wf st.fwStage && Memory.wf st.campStage

/-- The invariant of every step. -/
def State.sound (s : State) : Prop := s.stores.wf = true

/-- What a consumer sees of a class queue, in the order it will see it: the ring, then the Mire chain (R54). -/
def CQueue.visible (q : CQueue) : List Packet := q.ring ++ q.chain.map (·.2)

/-- No queue applies back-pressure, and none has a packet waiting for room: whole, or kept by a unit (R48, R55). -/
def Dev.calm (d : Dev) : Bool :=
  d.q.bp.isEmpty && (List.range 8).all fun g => (List.range 5).all fun c =>
    let q := d.queue g c
    q.held.isEmpty && q.bp.isNone && !(q.part.map Partial.whole).getD false

/-- A directory set is sound (R158, R160): each table entry stands at a position of its EUI, the positions rise, no EUI stands
twice, and the stash holds at most 64 entries. -/
def DirSet.Sound (s : DirSet) : Prop :=
  (∀ p ∈ s.tab, ∃ i, i < 4 ∧ p.1 = s.key i p.2.1) ∧ (s.tab.map (·.1)).Pairwise (· < ·) ∧
  (s.entries.map (·.1)).Nodup ∧ s.stash.length ≤ 64

end Sys2Proof.Machine

namespace Sys2Proof

/-- The instant at which a command falls, on the running axis (notes/assumptions/1.md). -/
def Instr.instant : Instr → Nat
  | .packetWrite t _ _ => t
  | .staleTimeout t _ _ => t
  | .flush t _ _ => t
  | .mireFill t _ _ _ => t
  | .linkFrameSend t _ => t
  | .linkFrame t _ _ => t
  | .delayReq t _ => t
  | .delayResp t _ _ _ _ _ => t
  | .status t _ _ => t
  | .alarm t _ _ => t
  | .reedSilent t _ => t
  | .blockLock t _ _ => t
  | .blockLockLost t _ _ => t
  | .alignTimeout t _ => t
  | .lostTimeout t _ => t
  | .startBlockTimeout t _ => t
  | .streamGainChange t _ _ => t
  | .detection t _ => t
  | .phrClassMark t _ _ _ => t
  | .pendingGrant t => t
  | .starved t _ _ _ => t
  | .phrDecoded t _ _ => t
  | .macHeaderComplete t _ _ => t
  | .directoryLookup t _ => t
  | .frameEnd t _ _ => t
  | .holdClose t _ _ => t
  | .ackStart t _ => t
  | .ackEnd t _ => t
  | .mailWindowEnd t _ => t
  | .jobTableEntry t => t
  | .jobAssign t => t
  | .backoffEnd t _ => t
  | .ccaEnd t _ _ => t
  | .slottedCca t _ => t
  | .txStart t _ => t
  | .blankEnd t _ => t
  | .txEnd t _ => t
  | .ackReceived t _ _ => t
  | .ackWaitTimeout t _ => t
  | .jobDeadline t _ _ => t
  | .dwellBucket t _ _ => t
  | .hornListenStart t _ => t
  | .hornListenEnd t _ => t
  | .hornCountReset t => t
  | .plPreamble t _ _ => t
  | .plFrameEnd t _ _ => t
  | .reasmTimeout t _ _ _ => t
  | .plRespStart t _ => t
  | .plRespEnd t _ => t
  | .plAccessSlot t _ => t
  | .plTxEnd t _ => t
  | .plResponse t _ _ _ => t
  | .plAwaitTimeout t _ => t
  | .routeRecompute t => t
  | .routeRequest t _ => t
  | .sweepPeriod t _ => t
  | .sweepReply t _ _ => t
  | .sweepWindowEnd t _ => t
  | .validateFrame t _ => t
  | .verifyDone t _ => t
  | .indexLookup t _ => t
  | .commit t => t
  | .blockTimeLimit t => t
  | .blockSigned t => t
  | .staleScan t => t
  | .rebuildWalkDone t _ => t
  | .rebuildReleaseEnd t => t
  | .rebuildAbort t => t
  | .read t _ => t
  | .disconnect t _ => t
  | .reconnect t _ => t
  | .tariffPush t _ => t
  | .keyRotate t _ => t
  | .campaignCreate t _ => t
  | .campaignStart t _ => t
  | .campaignActivate t _ => t
  | .campaignCancel t _ => t
  | .cancel t _ => t
  | .enrol t _ => t
  | .remove t _ => t
  | .clearQuar t _ => t
  | .rebuild t _ => t
  | .sweepStart t _ => t
  | .sweepStop t _ => t
  | .transactionOpen t _ _ => t
  | .respWaitExpiry t _ _ => t
  | .transactionDeadline t _ _ => t
  | .tariffCut t _ => t
  | .tariffSwitch t _ => t
  | .arming t _ => t
  | .roundStart t _ _ => t
  | .reportWindowEnd t _ _ => t
  | .actCutoff t _ => t
  | .confirmQuery t _ _ => t
  | .noConfirm t _ _ => t
  | .campaignDeadline t _ => t
  | .membershipWrite t _ => t
  | .zoneReference t _ _ => t
  | .balWaitExpiry t _ _ => t
  | .correlatorRun t => t
  | .changeBoundary t => t
  | .syncDec t _ => t
  | .metroReset t _ => t
  | .metrologyWrite t _ => t
  | .tickEnd t => t
  | .boundary t => t
  | .billReq t _ => t
  | .buttonPress t => t
  | .scrollAdvance t => t
  | .scrollResume t => t
  | .announce t _ _ _ _ _ => t
  | .sync t _ _ _ _ => t
  | .ptpDelayReq t _ => t
  | .ptpDelayResp t _ _ _ _ => t
  | .syncSend t _ => t
  | .syncTimeout t => t
  | .stepTakeEffect t => t
  | .timeStep t _ => t
  | .timeSet t _ => t
  | .leap t _ => t
  | .leapSecond t => t
  | .startWaitExpiry t => t
  | .beacon t _ _ => t
  | .rtcMeasure t _ _ => t
  | .outageRtcUpdate t _ _ => t
  | .pps t => t
  | .cyclePulse t => t
  | .tsqExpired t _ _ => t
  | .mirrorRead t _ => t
  | .mirrorHoldRelease t => t
  | .mirrorFlip t => t
  | .mirrorHold t => t
  | .portLinkUp t _ => t
  | .portLinkDown t _ => t
  | .handshakeDone t _ _ => t
  | .handshakeTimeout t _ _ => t
  | .sessionTimeout t _ => t
  | .sessionBackoffEnd t _ => t
  | .keyUpdate t _ => t
  | .cxpSegment t _ => t
  | .reasmTo t _ _ => t
  | .ledgerAck t _ _ _ _ => t
  | .blockReq t _ _ _ => t
  | .ledgerBlock t _ _ => t
  | .blockResend t _ => t
  | .objRead t _ => t
  | .objWrite t _ => t
  | .recordWrite t _ => t
  | .eventRead t _ _ _ _ => t
  | .heartbeat t => t
  | .lease t _ _ _ _ => t
  | .leaseExpiry t => t
  | .pairHbSend t => t
  | .pairHb t _ _ _ _ _ _ => t
  | .lastGasp t _ => t
  | .configCheck t _ => t
  | .configInstall t _ => t
  | .configClear t _ => t
  | .configWriteDone t _ => t
  | .fwApply t _ => t
  | .fwClear t _ => t
  | .fwAbort t _ => t
  | .fwBuildDone t _ _ => t
  | .fwVerifyDone t => t
  | .warmRestart t _ => t
  | .warmRestartFirmware t _ => t
  | .warmRestartLegal t _ => t
  | .warmRestartResume t => t
  | .swap t _ => t
  | .storeWrite t => t
  | .checkpoint t => t
  | .checkpointValid t => t
  | .stripeTimeout t => t
  | .scrub t _ _ _ _ _ _ => t
  | .dieLost t _ => t
  | .storeCopyDone t => t
  | .dayIndex t _ => t
  | .archiveExpiry t => t
  | .discardDone t _ => t
  | .discardTimeout t _ _ => t
  | .eventIntake t => t
  | .eventFormat t => t
  | .mainsLoss t => t
  | .lastGaspRepeat t => t
  | .holdupMetroEnd t => t
  | .holdupSeal t => t
  | .holdupStoreDone t => t
  | .holdupEnd t => t
  | .holdCrit t => t
  | .comparatorCrossing t _ _ => t
  | .bandFiltered t _ _ => t
  | .tamper t _ => t
  | .domainReady t _ => t
  | .wakeFail t _ => t
  | .domainIdle t _ => t
  | .closeDone t _ => t
  | .switchDone t _ => t
  | .suppliesGood t => t
  | .supplyTimeout t => t
  | .supplyFault t => t
  | .thermalTrip t => t
  | .coldStart t _ => t
  | .ledgerReady t => t
  | .trialConfirm t _ => t
  | .trialTimeout t => t
  | .hbInterval t => t
  | .peerWaitExpiry t => t
  | .shipRetry t => t
  | .ckptShip t _ => t
  | .takeoverTimeout t => t
  | .autoReturn t => t
  | .handoverTimeout t => t
  | .displayCommit t _ _ _ _ => t
  | .frameTick t _ => t
  | .railsReady t => t
  | .railFault t => t
  | .railHoldExpiry t => t
  | .dischargeDone t _ => t
  | .tempRecheck t _ => t
  | .uartRequest t _ _ _ => t
  | .uartGap t _ => t
  | .cardInsert t => t
  | .cardRemove t => t
  | .cardIdentified t _ _ _ => t
  | .cardVerifyDone t _ => t
  | .cardImportDone t _ => t
  | .logBlockDue t => t
  | .cardWriteConfirmed t => t
  | .cardBusyTimeout t _ => t
  | .coreWatchdog t => t
  | .epochHold t => t
  | .vbakLow t _ => t
  | .vbakLoss t => t
  | .announceReceiptTimeout t _ => t
  | .followUp t _ _ _ _ => t
  | .announceSend t _ => t
  | .ptpDelayReqReceived t _ _ _ _ _ => t
  | .fatalAlert t _ => t
  | .arpRequest t _ _ => t
  | .echoRequest t _ _ => t
  | .pageProgramDone t _ _ _ => t
  | .pairBlockLock t _ => t
  | .pairBlockLockLost t _ => t

/-- The commands that may write configuration copies, firmware slots, legal images or staging areas (R355, R441, R442, R448, R449,
R488, R525; every start clears the staging areas). -/
def Instr.writesStores : Instr → Bool
  | .objWrite .. | .configCheck .. | .configInstall .. | .configClear .. | .configWriteDone .. | .fwApply .. | .fwClear .. | .fwAbort ..
  | .fwBuildDone .. | .cardImportDone .. | .tamper .. | .coldStart .. | .warmRestartResume .. => true
  | _ => false

end Sys2Proof
end

