-- ==== Sys2Proof/Certificates/Slice0/Obligations.lean ====
section
/-!
DEFINITION. The statements about the block that are to be proved, chapter by chapter.
-/

open Sys2Proof Sys2Proof.Machine

/-- A step runs the command at the front of the queue on a state that holds the queue's rest. The queue is the model's own way of
taking commands (notes/assumptions/2.md). -/
def Obligations.StepRunsTheFrontCommand : Prop :=
  ∀ (c : Instr) (s : State), step { s with pending := c :: s.pending } = exec c s

/-- Every command answers a next state, in every state: none faults and none is refused. It leaves the queue alone, the word memories
and images too unless it is one that writes them, and the running axis stands at the command's instant or, where it was later already,
where it stood. With no command waiting the block idles. The axis and the queue are the model's own, notes/assumptions/1.md and 2.md. -/
def Obligations.EveryCommandAnswers : Prop :=
  (∀ s : State, s.pending = [] → step s = .next s) ∧
  ∀ (c : Instr) (s : State), ∃ s' : State, exec c s = .next s' ∧ s'.pending = s.pending ∧ s'.dev.clk = max s.dev.clk c.instant ∧
    (c.writesStores = false → s'.stores = s.stores)

/-- Every step keeps the canonical form of the word memories: configuration copies A and B in the NOR, and the staging of
configuration, firmware and campaign images. -/
def Obligations.StoresStayCanonical : Prop :=
  ∀ s s' : State, s.stores.wf = true → step s = .next s' → s'.stores.wf = true

/-- The values the spec gives for reset, and the invariant of StoresStayCanonical. A register without one has the value that
notes/assumptions/30.md names; none of those stands here. -/
def Obligations.ResetLeavesWhatTheSpecGives : Prop :=
  State.reset.pending = [] ∧ State.reset.stores.wf = true ∧
  let d := State.reset.dev
  (∀ f, d.ctr f = 0) ∧ d.tb.set = false ∧ d.nowS = 0 ∧ d.pair.epoch = 0 ∧ d.led.csn = 1 ∧ d.led.enrolled = false ∧ d.led.accepts = false ∧
  d.boot.phase = 0 ∧ (∀ n, 2 ≤ n → d.domOn n = false) ∧ d.up.lease = none ∧ (∀ i, d.sessUp i = false) ∧ d.mir.epoch = 0 ∧ d.met.run = none ∧
  (∀ g c, (d.queue g c).ring = []) ∧ d.pair.st = 0 ∧ d.disp.st = 0 ∧ d.loc.card.st = 0 ∧ d.boot.cStage = 0 ∧ d.boot.fStage = 0 ∧
  d.evr.newest = 0 ∧ d.sto.st = 0 ∧ d.cmd.tab = [] ∧ d.cmd.camps = [] ∧ d.air.jobs = [] ∧ d.pl.jobs = []

/-- PACKET_WRITE, STALE_TIMEOUT, FLUSH and MIRE_FILL (R43–R56): the state each answers. -/
def Obligations.QueueCommandsComplete : Prop :=
  (∀ (t g : Nat) (b : Burst) (ws : List Word) (s : State),
    let D := s.dev.advance t
    let p : Packet := { Packet.ofTags ws with data := b.words }
    let q := D.queue g b.queueOf
    g < 8 → b.tags = some ws → q.part = none →
    (b.bad = false → b.last = true → p.wellMade = true → p.len ≤ groupMax g → q.chain = [] → D.calm = true →
      4 * (q.ringWords + p.words) ≤ 3 * groupRing g →
      let q' := { q with ring := q.ring ++ [{ p with qseq := q.qseq }], qseq := (q.qseq + 1) % 65536, drop := false }
      exec (.packetWrite t g b) s = .next { s with dev := D.setQueue g p.cls q' }) ∧
    (b.bad = true →
      exec (.packetWrite t g b) s = .next { s with dev := D.setQueue g b.queueOf { q with drop := !b.last } }) ∧
    (b.bad = false → groupMax g < (unpackOctets b.words).length →
      exec (.packetWrite t g b) s =
        .next { s with dev := (D.setQueue g b.queueOf { q with drop := !b.last }).count (fOversize b.queueOf) }) ∧
    (b.bad = false → b.last = true → (unpackOctets b.words).length ≤ groupMax g → p.wellMade = false →
      exec (.packetWrite t g b) s =
        .next { s with dev := (D.setQueue g b.queueOf { q with drop := false }).count (fMalformed b.queueOf) })) ∧
  (∀ (t g : Nat) (b : Burst) (p : Partial) (s : State),
    let D := s.dev.advance t
    let q := D.queue g b.cls
    let k : Packet := { p.pkt with data := p.pkt.data ++ b.words }
    g < 8 → b.cls < 5 → b.tags = none → b.last = true → b.bad = false → q.part = some p → p.flush = true →
    D.isStale g b.cls = false → D.calm = true → k.wellMade = true → k.len ≤ groupMax g →
    exec (.packetWrite t g b) s =
      .next { s with dev := (D.setQueue g b.cls { q with part := none, qseq := (q.qseq + 1) % 65536 }).count (fFlushed b.cls) }) ∧
  (∀ (t g c : Nat) (p : Partial) (s : State),
    let D := s.dev.advance t
    let q := D.queue g c
    q.part = some p → q.pressing = false → D.staleUs * 2 ^ 36 < (D.clk - p.last) * 1000000 →
    exec (.staleTimeout t g c) s =
      .next { s with dev := (D.setQueue g c { q with part := none, drop := true }).count (fStale c) }) ∧
  (∀ (t g c : Nat) (s : State),
    let D := s.dev.advance t
    let q := D.queue g c
    g < 8 → c < 5 → D.calm = true →
    ∃ d', exec (.flush t g c) s = .next { s with dev := d' } ∧
      d' = { D.countN (fFlushed c) (q.ring.length + q.chain.length) with q := d'.q } ∧ d'.q.bp = D.q.bp ∧
      d'.queue g c = { q with ring := [], chain := [], wr := 0, part := q.part.map fun p => { p with flush := true } } ∧
      ∀ g' c', g' * 5 + c' ≠ g * 5 + c → d'.queue g' c' = D.queue g' c') ∧
  (∀ (t g c : Nat) (bad : Option Nat) (s : State),
    let D := s.dev.advance t
    let q := D.queue g c
    let x := match bad with
      | none => ([], q.chain)
      | some k => splitPage k q.chain
    let f := fillRing (groupRing g) q.ringWords x.2
    g < 8 → c < 5 → D.calm = true → q.chain ≠ [] → 2 * q.ringWords < groupRing g →
    ∃ d', exec (.mireFill t g c bad) s = .next { s with dev := d' } ∧
      d' = { D.countN (fEcc c) x.1.length with q := d'.q } ∧ d'.q.bp = D.q.bp ∧
      d'.queue g c = { q with ring := q.ring ++ f.1, chain := f.2, wr := if f.2.isEmpty then 0 else q.wr } ∧
      ∀ g' c', g' * 5 + c' ≠ g * 5 + c → d'.queue g' c' = D.queue g' c')

/-- Packets of one class queue reach the consumer in the order in which they became visible (R54). -/
def Obligations.ClassQueuesKeepTheirOrder : Prop :=
  (∀ (d d' : Dev) (g c : Nat) (p : Packet), d.place g c p = some d' →
    (d'.queue g c).visible = (d.queue g c).visible ++ [{ p with qseq := (d.queue g c).qseq }] ∧
    (∀ g' c', g' * 5 + c' ≠ g * 5 + c → d'.queue g' c' = d.queue g' c')) ∧
  (∀ (depth used : Nat) (l : List (Nat × Packet)),
    (fillRing depth used l).1 ++ (fillRing depth used l).2.map (·.2) = l.map (·.2)) ∧
  (∀ (d d' : Dev) (g : Nat) (p : Packet), d.takePacket g = some (p, d') →
    ∃ c, c < 5 ∧ ∃ r, (d.queue g c).visible = p :: r ∧ ∀ c', c' < c → (d.queue g c').ring = [])

/-- A counter stops at its all-ones value and stays there (R18); fields of one word do not touch each other. -/
def Obligations.CountersStopAtAllOnes : Prop :=
  ∀ (d : Dev) (f : Fld) (n : Nat),
    (d.countN f n).ctr f = min (d.ctr f + n) (2 ^ (f.hi + 1 - f.lo) - 1) ∧
    (d.ctr f = f.top → (d.countN f n).ctr f = f.top) ∧
    (∀ f' : Fld, f'.addr ≠ f.addr ∨ f'.lo ≠ f.lo → f.lo < 36 → f'.lo < 36 → (d.countN f n).ctr f' = d.ctr f') ∧
    (d.countN f n) = { d with ctrs := (d.countN f n).ctrs }

/-- The link state machine (R66, R75, R76): BLOCK_LOCK, BLOCK_LOCK_LOST, ALIGN_TIMEOUT, START_BLOCK_TIMEOUT and LOST_TIMEOUT. -/
def Obligations.LinkStatesMove : Prop :=
  (∀ (t k : Nat) (s : State), let D := s.dev.advance t; let l := D.link k
    let lost : Dev := (((D.setLink k { l with st := .lost, since := D.clk, ctlQ := [] }).count (fLockLoss k)).streamsDown k).raise 0x011 [k]
    (∀ line : List LineBlock, l.st = .locking → line.length = 64 → line.all LineBlock.valid = true →
      exec (.blockLock t k line) s = .next { s with dev := D.setLink k { l with st := .aligning, since := D.clk, scrR := (descramble 0 line).2, good := 0, bad := 0, rxSeq := none, req := none, exch := false, sent := 1000, started := D.clk } }) ∧
    (∀ line : List LineBlock, l.st = .aligning ∨ l.st = .up → line.length ≤ 64 → 16 ≤ (line.filter fun b => !b.valid).length →
      exec (.blockLockLost t k line) s = .next { s with dev := { lost with clk := D.clk } }) ∧
    (l.st = .aligning → D.passedMs l.since 100 = true →
      exec (.alignTimeout t k) s = .next { s with dev := { lost with clk := D.clk } }) ∧
    (l.st = .up → D.passedUs l.started 60 = true →
      exec (.startBlockTimeout t k) s = .next { s with dev := { lost with clk := D.clk } }) ∧
    (l.st = .lost → D.passedMs l.since 1 = true →
      exec (.lostTimeout t k) s = .next { s with dev := D.setLink k { l with st := .locking, since := D.clk } })) ∧
  (∀ (d : Dev) (k : Nat),
    (∀ n, (d.streamsOf k).contains ((d.streamsDown k).lane n).det.stream = true →
      ¬ [LaneSt.rx, .turn, .ack, .tx, .cca].contains ((d.streamsDown k).lane n).st) ∧
    ∀ r ∈ (d.streamsDown k).fr.pend, (d.streamsOf k).contains r.det.stream = false)

/-- LINK_FRAME_SEND, LINK_FRAME, DELAY_REQ and DELAY_RESP (R68–R75). -/
def Obligations.LinkFramesAreExchanged : Prop :=
  (∀ (t k : Nat) (s : State), let D := s.dev.advance t; let l := D.link k
    (l.st ≠ .off → l.txK ≠ some (ticks20 D.axis) →
      let emit := cdiv (ticks20 D.axis * 2 ^ 36) 50000 + l.delay.toNat + usT 20
      let fit := fitCtrl (D.linkCtrlBlocks k * 8) l.ctlQ
      let bs := D.frameBlocks k (emit % 2 ^ 64) l.txSeq (fit.1.flatMap fun m => m.sent D.linkTime emit)
      let line := scramble l.scrT (bs ++ List.replicate (3125 - bs.length) (ctlBlock 0x1E 0))
      let l' := { l with scrT := line.2, txK := some (ticks20 D.axis), txSeq := (l.txSeq + 1) % 65536, sent := l.sent + 1, ctlQ := fit.2, req := if fit.1.any (fun m => m.typ == 1) then some D.linkTime else l.req }
      exec (.linkFrameSend t k) s = .next { s with dev := (D.setLink k l').emit (.linkFrame k line.1) }) ∧
    (∀ f : LinkFrame,
      let x := descramble l.scrR f.line
      let r := readFrame x.1
      let good := { l with scrR := x.2, rxSeq := some r.fseq, lastOk := r.fseq, good := if l.since ≤ f.arr then l.good + 1 else l.good, bad := 0, started := f.arr }
      (l.st = .up → r.crcOk = true → r.version = 1 → r.count = D.linkCount k → r.mode = D.linkPl k → r.orderOk = true →
        r.termOk = true → (∀ q, l.rxSeq = some q → r.fseq = (q + 1) % 65536) → ctrlMsgs 128 r.ctrl = [] →
        exec (.linkFrame t k f) s = .next { s with dev := ((((D.setLink k good).count (fFramesOk k)).overranges k r).plTakeFrame k (r.samples.map fun e => (e.1, blockSamples e.2))) }) ∧
      (l.st = .up → r.crcOk = false → l.bad + 1 < 4 →
        let bad := { l with scrR := x.2, rxSeq := l.rxSeq.map fun q => (q + 1) % 65536, good := 0, bad := l.bad + 1, started := f.arr }
        exec (.linkFrame t k f) s = .next { s with dev := { ((((D.setLink k bad).count (fCrcErr k)).countN (fSeqGap k) 0).linkGap k) with clk := D.clk } }) ∧
      (l.st = .aligning → l.exch = true → 7 ≤ l.good → l.since ≤ f.arr → r.crcOk = true → r.version = 1 → r.count = D.linkCount k →
        r.mode = D.linkPl k → r.orderOk = true → r.termOk = true → (∀ q, l.rxSeq = some q → r.fseq = (q + 1) % 65536) →
        ctrlMsgs 128 r.ctrl = [] →
        let up := ((((D.setLink k { good with st := .up, since := D.clk, silent := false }).count (fFramesOk k)).raise 0x010 [k]).streamSets k)
        exec (.linkFrame t k f) s = .next { s with dev := { ((up.plStreamsOf k).foldl Dev.plRefresh up) with clk := D.clk } })) ∧
    (l.hears = true → 1000 ≤ l.sent →
      exec (.delayReq t k) s = .next { s with dev := D.setLink k { l with sent := 0, ctlQ := l.ctlQ ++ [⟨1, 8, []⟩] } }) ∧
    (∀ t1 t2 t3 t4 : Nat, l.st = .up → l.req = some (t1 % 2 ^ 64) → t1 ≤ t4 → t2 ≤ t3 → t4 - t1 < 2 ^ 63 → t3 - t2 < 2 ^ 63 →
      t1 ≤ t2 → t2 - t1 < 2 ^ 63 →
      let delay : Int := (((t4 : Int) - t1) - ((t3 : Int) - t2)) / 2
      let off : Int := ((t2 : Int) - t1) - delay
      let d1 := D.setLink k { l with req := none, exch := true, delay := delay, offset := off }
      exec (.delayResp t k t1 t2 t3 t4) s = .next { s with dev :=
        if 100 * 2 ^ 36 < off.natAbs * 1000000000 then d1.queueCtrl k ⟨3, 8, octetsBE (toTwos 64 (-off)) 8⟩ else d1 }) ∧
    (∀ t1 t2 t3 t4 : Nat, l.hears = true → l.req ≠ some (t1 % 2 ^ 64) →
      exec (.delayResp t k t1 t2 t3 t4) s = .next { s with dev := D.count (fCtrlDrop k) })) ∧
  (∀ (d : Dev) (k : Nat),
    (∀ n, ((d.linkGap k).lane n).st = .rx → (d.streamsOf k).contains ((d.linkGap k).lane n).det.stream = false) ∧
    ∀ r ∈ (d.linkGap k).fr.pend, (d.streamsOf k).contains r.det.stream = false)

/-- STATUS, ALARM, REED_SILENT (R72) and STREAM_GAIN_CHANGE (R63). -/
def Obligations.LinkMessagesAct : Prop :=
  ∀ (t k : Nat) (s : State), let D := s.dev.advance t; let l := D.link k
    (∀ body : List Octet, l.st = .aligning ∨ l.st = .up →
      exec (.status t k body) s = .next { s with dev := D.setLink k { l with status := D.clk, silent := false, body := body } }) ∧
    (∀ bits : Nat, l.st = .aligning ∨ l.st = .up →
      let new (i : Nat) : Bool := bits / 2 ^ i % 2 == 1 && l.alarm / 2 ^ i % 2 == 0
      let d1 := (D.setLink k { l with alarm := bits % 8 }).onlyIf (new 1) fun x => x.raise 0x012 [k]
      let d2 := (d1.onlyIf (new 0) fun x => x.raise 0x013 [k]).onlyIf (new 2) fun x => x.raise 0x014 [k]
      exec (.alarm t k bits) s = .next { s with dev := d2 }) ∧
    (l.st = .up → l.silent = false → D.passedMs (max l.status l.since) 3000 = true →
      exec (.reedSilent t k) s = .next { s with dev := (D.setLink k { l with silent := true }).raise 0x015 [k] }) ∧
    (l.silent = true → exec (.reedSilent t k) s = .next { s with dev := D }) ∧
    (∀ st gain : Nat, D.rfEn st = true → gain ≤ (if D.rfSrcLink st then 63 else 15) →
      let at' := cdiv (cdiv (D.axis * 50000) (2 ^ 36) * 2 ^ 36) 50000
      let d1 : Dev := { D with fr := { D.fr with due := NMap.put D.fr.due st (at', gain) } }
      let d2 := (if D.rfSrcLink st then d1.streamSet (D.rfLink st) (D.rfPos st) (D.rfCentreKhz st) gain else d1).openDue
      exec (.streamGainChange t st gain) s = .next { s with dev := { d2 with clk := D.clk } } ∧
      (at' = D.axis → D.fr.due = [] → d2.rfGain st = gain ∧ ∀ sub, d2.blanked st [sub] = true))

/-- DETECTION, PHR_CLASS_MARK, PENDING_GRANT and STARVED (R82–R89). -/
def Obligations.DetectionsAreGranted : Prop :=
  (∀ (t : Nat) (h : Heard) (s : State), let D := s.dev.advance t; let x := D.detectOf h
    D.searching x.stream = true → D.searches x.stream x.sub x.phy = true → D.blanked x.stream x.subs = false →
    D.quiet = false → D.aboveFloor h = true →
    (D.detPending x = true ∨ D.detGranted x = true →
      exec (.detection t h) s = .next { s with dev := D.count (fBusySub x.stream) }) ∧
    (D.detPending x = false → D.detGranted x = false → D.selfHeard x.stream x.subs = true →
      exec (.detection t h) s = .next { s with dev := D.count (fSelfSupp x.stream) }) ∧
    (∀ n : Nat, D.detGranted x = false → D.selfHeard x.stream x.subs = false → D.fr.pend = [] → D.freeLane? = some n →
      let y := (D.count (fDetect x.stream)).groupOf x
      let rx := { Lane.idle with st := .rx, det := x, cls := 2, grp := y.1, since := D.clk }
      exec (.detection t h) s = .next { s with dev := ((y.2.setLane n rx).count (fGranted x.stream)).hearBusy x })) ∧
  (∀ (t stream sub mark : Nat) (s : State), let D := s.dev.advance t
    D.rfClassMark stream = true →
    let mk (r : Request) : Request :=
      if r.det.stream = stream ∧ r.det.sub = sub ∧ r.det.phy.ofdm = false then
        { r with cls := if mark = 1 then 0 else if mark = 2 then 1 else 2 } else r
    exec (.phrClassMark t stream sub mark) s = .next { s with dev := { D with fr := { D.fr with pend := D.fr.pend.map mk } } }) ∧
  (∀ (t n : Nat) (r : Request) (s : State), let D := s.dev.advance t
    bestBy rankedFirst D.fr.pend = some r → D.freeLane? = some n → (∀ j, D.bestJob = some j → r.cls ≤ j.2.1) →
    let d1 : Dev := { D with fr := { D.fr with pend := D.fr.pend.filter fun q => q != r } }
    let rx := { Lane.idle with st := .rx, det := r.det, cls := r.cls, grp := r.grp, since := D.clk }
    exec (.pendingGrant t) s = .next { s with dev := (d1.setLane n rx).count (fGranted r.det.stream) }) ∧
  (∀ (t stream sub : Nat) (group : Bool) (s : State), let D := s.dev.advance t
    let late (r : Request) : Bool :=
      r.det.stream == stream && r.det.sub == sub && r.det.group == group && D.passedUs r.det0 D.grantWaitUs
    let d1 : Dev := { D with fr := { D.fr with pend := D.fr.pend.filter fun r => !late r } }
    exec (.starved t stream sub group) s = .next { s with dev :=
      ((D.fr.pend.filter late).foldl (fun x r => x.count (fStarved r.det.stream)) d1).pruneGroups })

/-- PHR_DECODED, MAC_HEADER_COMPLETE, DIRECTORY_LOOKUP and FRAME_END (R91, R96–R106). -/
def Obligations.LanesReceiveFrames : Prop :=
  (∀ (t n : Nat) (s : State), let D := s.dev.advance t; let l := D.lane n
    let freed (d : Dev) (f : Nat → Fld) : Dev :=
      ((d.count (f l.det.stream)).setLane n { Lane.idle with st := if D.domOn (17 + n / 8) then .idle else .off, since := D.clk }).pruneGroups
    l.st = .rx →
    (∀ p : Phr, l.phr = none →
      (p.valid l.det.phy = true →
        let phy := if l.det.phy.ofdm then { l.det.phy with mcs := p.mcs, il := p.il } else l.det.phy
        exec (.phrDecoded t n p) s = .next { s with dev := D.setLane n { l with phr := some p, det := { l.det with phy := phy } } }) ∧
      (p.valid l.det.phy = false → exec (.phrDecoded t n p) s = .next { s with dev := freed D fPhrErr })) ∧
    (∀ (p : Phr) (os : List Octet), l.phr = some p → l.hdr = none →
      (parseMac os = none → exec (.macHeaderComplete t n os) s =
        .next { s with dev := freed D (if p.len ≤ os.length + p.fcsLen then fPhrErr else fAddrFilter) }) ∧
      (∀ h : MacHdr, parseMac os = some h →
        (p.len < h.octets + p.fcsLen → exec (.macHeaderComplete t n os) s = .next { s with dev := freed D fPhrErr }) ∧
        (h.octets + p.fcsLen ≤ p.len → D.macFilter h = true →
          exec (.macHeaderComplete t n os) s = .next { s with dev := D.setLane n { l with hdr := some h } }) ∧
        (h.octets + p.fcsLen ≤ p.len → D.macFilter h = false →
          exec (.macHeaderComplete t n os) s = .next { s with dev := freed D fAddrFilter }))) ∧
    (∀ h : MacHdr, l.hdr = some h → l.looked = false →
      (∀ m, D.lookup h.srcEui = some m → h.ftype ≠ 3 →
        let l' := { l with looked := true, slot := some m, rxCtr := ((D.rec? m).map MeterRec.rxCtr).getD 0, keys := D.keysOf m }
        exec (.directoryLookup t n) s = .next { s with dev := D.setLane n l' }) ∧
      (∀ m, D.lookup h.srcEui = some m → h.ftype = 3 →
        exec (.directoryLookup t n) s = .next { s with dev := freed D fAddrFilter }) ∧
      (D.lookup h.srcEui = none → h.sec = false →
        exec (.directoryLookup t n) s = .next { s with dev := D.setLane n { l with looked := true, slot := none, cls := 4 } }) ∧
      (D.lookup h.srcEui = none → h.sec = true →
        exec (.directoryLookup t n) s = .next { s with dev := freed D fUnknownSrc })) ∧
    (∀ (p : Phr) (h : MacHdr) (e : RxEnd), l.phr = some p → l.hdr = some h → l.looked = true →
      let psdu := e.psdu.take p.len
      let os := dropTail p.fcsLen psdu
      let fcsVal := ofBE (psdu.drop os.length)
      let endT := D.antTag l.det.stream e.raw
      (fcsPass p.fcs2 psdu = false → exec (.frameEnd t n e) s = .next { s with dev := freed D fFcsErr }) ∧
      (fcsPass p.fcs2 psdu = true → l.slot = none →
        exec (.frameEnd t n e) s = .next { s with dev := { (D.toHold n l h (plainDone endT fcsVal (lqOf e.snr) h os)) with clk := D.clk } }) ∧
      (∀ m, fcsPass p.fcs2 psdu = true → l.slot = some m →
        let r := openDone endT fcsVal (lqOf e.snr) (D.clearKeys m l.keys) l.rxCtr h h.srcEui os
        (r.1 = .pass → exec (.frameEnd t n e) s = .next { s with dev := { (D.toHold n l h r.2) with clk := D.clk } }) ∧
        (r.1 = .secFail → exec (.frameEnd t n e) s = .next { s with dev := freed D fSecFail }) ∧
        (r.1 = .replay → exec (.frameEnd t n e) s = .next { s with dev := freed D fReplay }) ∧
        (r.1 = .counterEnd → exec (.frameEnd t n e) s =
          .next { s with dev := freed (D.raise 0x020 [r.2.keyIdx] (some m)) fCounterEnd })))) ∧
  (∀ (d : Dev) (n : Nat) (h : MacHdr) (e : RxDone) (x : DupGroup), let l := d.lane n
    NMap.find d.fr.grps l.grp = some x →
    (x.kept = none →
      let gs := NMap.put d.fr.grps l.grp { x with hold := some (min e.endT (x.hold.getD e.endT)) }
      let l' := { l with st := .hold, fin := some e, cls := d.finalClass l.slot e.first, since := d.clk }
      d.toHold n l h e = (({ d with fr := { d.fr with grps := gs } } : Dev).setLane n l').pruneGroups) ∧
    (∀ ks, x.kept = some ks → ks.contains (frameContent h e) = true → d.toHold n l h e =
      ((d.count (fLateDup l.det.stream)).setLane n
        { Lane.idle with st := if d.domOn (17 + n / 8) then .idle else .off, since := d.clk }).pruneGroups))

/-- The address filter of R100, the checks of R103 and R104, the keys of R101, and the final class of R106. -/
def Obligations.FrameChecksOfARecord : Prop :=
  (∀ (d : Dev) (h : MacHdr), d.macFilter h = true ↔
    (h.ftype = 1 ∨ h.ftype = 3) ∧ (h.version = 1 ∨ h.version = 2) ∧ (∀ p, h.dstPan = some p → p = d.panId ∨ p = 0xFFFF) ∧
    (h.dst = .short d.netShort ∨ h.dst = .short 0xFFFF ∨ h.dst = .ext d.netEui) ∧ ∃ e, h.src = .ext e) ∧
  (∀ (keys : List (Nat × List Octet)) (c : Nat) (h : MacHdr) (src : Eui) (os : List Octet),
    (openFrame keys c h src os).1 = .pass ↔
    h.sec = true ∧ ∃ x k, parseAux (os.drop h.octets) = some x ∧ (x.level = 5 ∨ x.level = 6 ∨ x.level = 7) ∧ x.kim = 1 ∧
      (keys.find? fun k => k.1 == x.keyIdx) = some k ∧
      (ccmOpen k.2 (secNonce src x.fctr x.level) (os.take (h.octets + x.octets)) (os.drop (h.octets + x.octets)) (micOf x.level)).2 = true ∧
      x.fctr ≠ 0xFFFFFFFF ∧ c < x.fctr) ∧
  (∀ (d : Dev) (n : Nat) (r : MeterRec), d.rec? n = some r →
    (d.keysOf n).map (fun k => k.2.1) = r.keyCur :: (if r.keyNextV ∧ (NMap.find d.led.keys n).isSome then [r.keyNext] else [])) ∧
  (∀ (d : Dev) (o : Option Octet), d.finalClass none o = 4) ∧
  (∀ (d : Dev) (n : Nat) (r : MeterRec) (o : Option Octet), d.rec? n = some r → d.finalClass (some n) o =
    match o.bind d.classOfOctet with
    | some c => if r.openTx = 0 then c else min c 1
    | none => if r.openTx = 0 then 2 else 1)

/-- HOLD_CLOSE, ACK_START, ACK_END, MAIL_WINDOW_END and BLANK_END (R63, R90–R92, R105, R108–R111). -/
def Obligations.KeptCopiesAreAcknowledged : Prop :=
  (∀ (t n : Nat) (s : State), let D := s.dev.advance t; let l := D.lane n
    (∀ (g h0 : Nat) (x : DupGroup) (h : MacHdr) (e : RxDone), NMap.find D.fr.grps g = some x → x.hold = some h0 → x.kept = none →
      D.groupLanes g = [(n, l)] → l.st = .hold → l.hdr = some h → l.fin = some e → e.endT ≤ h0 + usT 200 →
      h0 + usT 200 + max (usT 30) (D.seesT l.det.stream) ≤ D.axis →
      let d1 : Dev := { D with fr := { D.fr with grps := NMap.put D.fr.grps g { x with kept := some [frameContent h e] } } }
      let d2 := (d1.keptRecord l.slot l.det.tag e.fctr l.det.phy.shrUs).enqueue 0 l.cls (l.packet n e)
      let d3 := (if h.ar = true ∧ D.quiet = false then d2.enterTurn n l h e else d2.freeLane n).pruneGroups
      exec (.holdClose t false g) s = .next { s with dev := { d3 with clk := D.clk } }) ∧
    (∀ x : Tx, l.st = .turn → D.txOf n = some x → x.first ≤ D.axis → D.quiet = false →
      let d1 := ((D.unreserve n).dwellCharge x.stream x.subs x.first (x.phy.airUs x.octets.length)).startTx n
      let d2 := ((d1.count (fAckSent x.stream)).setLane n { l with st := .ack, since := D.clk }).emit (.ack x.stream x.sub x.phy x.octets)
      exec (.ackStart t n) s = .next { s with dev := { d2 with clk := D.clk } }) ∧
    (l.st = .ack → D.passedUs l.since (l.det.phy.airUs l.ackOctets) = true →
      let d1 := (D.stopTx n).freeLane n
      (l.slot = none ∨ l.fpend = false ∨ D.mailMs = 0 → exec (.ackEnd t n) s = .next { s with dev := { d1 with clk := D.clk } }) ∧
      (∀ m, l.slot = some m → l.fpend = true → 0 < D.mailMs →
        let w : Window := ⟨l.det.stream, l.det.sub, l.det.phy, D.clk, D.clk + usT (D.mailMs * 1000), true, false⟩
        let d2 : Dev := { d1 with air := { d1.air with mail := NMap.put d1.air.mail m w } }
        exec (.ackEnd t n) s = .next { s with dev := { (d2.unhold fun j => j.slot == some m) with clk := D.clk } })) ∧
    (∀ (m : Nat) (w : Window), NMap.find D.air.mail m = some w → w.closes ≤ D.clk →
      let d1 : Dev := { D with air := { D.air with mail := NMap.del D.air.mail m } }
      exec (.mailWindowEnd t m) s = .next { s with dev := { (d1.returnJobs m) with clk := D.clk } }) ∧
    (∀ st : Nat,
      let over' (x : Tx) : Bool := x.stream == st &&
        ((x.phase == .tail && D.passedUs x.since (D.rfTailUs st)) || (x.phase == .gain && D.passedUs x.since 50))
      ∃ cs, exec (.blankEnd t st) s =
        .next { s with dev := { D with fr := { D.fr with txs := D.fr.txs.filter fun x => !over' x, cuts := cs } } })) ∧
  (∀ (d : Dev) (n : Nat) (l : Lane) (h : MacHdr) (e : RxDone), let st := l.det.stream; let us := l.det.phy.airUs l.ackOctets
    let late : Prop := d.rfSrcLink st = true ∧ 340000 < (d.link (d.rfLink st)).fullNs
    (d.streamUp st = false → d.enterTurn n l h e = (d.count (fLinkAbort st)).freeLane n) ∧
    (d.streamUp st = true → 4 ≤ d.txCount st → d.enterTurn n l h e = (d.count (fAckDrop st)).freeLane n) ∧
    (d.streamUp st = true → d.txCount st < 4 →
      (d.dwellAckFits st l.det.subs us = false → d.enterTurn n l h e = (d.count (fAckDwell st)).freeLane n) ∧
      (d.dwellAckFits st l.det.subs us = true → late → d.enterTurn n l h e = (d.count (fAckLate st)).freeLane n) ∧
      (d.dwellAckFits st l.det.subs us = true → ¬ late →
        let mail := ((l.slot.bind d.rec?).map MeterRec.mail).getD false
        d.enterTurn n l h e = ((d.dwellReserve n st l.det.subs us).addTx (d.ackTx n l h e mail)).setLane n
          { l with st := .turn, fpend := mail, since := d.clk })))

/-- JOB_TABLE_ENTRY, JOB_ASSIGN, JOB_DEADLINE and DWELL_BUCKET (R113–R122, R145, R149). -/
def Obligations.JobsAreScheduled : Prop :=
  ∀ (t : Nat) (s : State), let D := s.dev.advance t
    (∀ (c : Nat) (p : Packet) (j : Job), let d := D.discard 3 true; let id := d.air.nextJ
      d.nextJob = some (c, p, j) →
      let d1 := d.takeOut 3 c p
      let d2 : Dev := { d1 with air := { d1.air with nextJ := id + 1 } }
      let mailed (x : Dev) : Dev := match j.slot with
        | some n => x.updRec n fun r => { r with mail := true }
        | none => x
      (j.pl = false →
        let d3 := mailed { d2 with air := { d2.air with jobs := NMap.put d2.air.jobs id j } }
        exec (.jobTableEntry t) s = .next { s with dev := { (((d3.judge id).callClusters).plKickAll) with clk := D.clk } }) ∧
      (j.pl = true →
        let d3 := mailed { d2 with pl := { d2.pl with jobs := NMap.put d2.pl.jobs id j } }
        exec (.jobTableEntry t) s = .next { s with dev := { d3.plKickAll with clk := D.clk } })) ∧
    (∀ (b : Nat × Nat × Nat × Nat × Nat) (lane st u : Nat) (p : Phy) (horn : Bool) (j : Job), let e := D.judgeAll
      e.bestJob = some b → e.freeLane? = some lane → (∀ r ∈ e.fr.pend, b.2.1 < r.cls) → NMap.find e.air.jobs b.1 = some j →
      (horn = false ∧ e.verdict j = .go st u p ∨ horn = true ∧ e.verdict j = .horn st u ∧ p = hornPhy) →
      let w := e.draw (2 ^ e.minBe)
      let l : Lane := { Lane.idle with st := .cca, det := ⟨st, u, false, p, 0, 0⟩, job := some b.1, be := e.minBe, wait := w.1, horn := horn, since := e.clk }
      exec (.jobAssign t) s = .next { s with dev :=
        { (((w.2.setLane lane l).updJob b.1 fun j => { j with lane := some lane }).plKickAll) with clk := D.clk } }) ∧
    (∀ (id : Nat) (j : Job), j.deadline ≤ D.clk →
      (NMap.find D.air.jobs id = some j → D.jobOnAir false j = false →
        let d1 := match j.lane with | some n => D.letGo n | none => D
        exec (.jobDeadline t false id) s = .next { s with dev := { (d1.endJob false id
          (if j.res ≠ 15 then j.res else if j.held then 4 else if j.noSlot then 8 else 10)) with clk := D.clk } }) ∧
      (NMap.find D.pl.jobs id = some j → D.jobOnAir true j = false →
        let ended (d : Dev) (res : Nat) : Dev := match j.lane with
          | none => d.plEndJob id res
          | some n =>
            let d2 := (d.plUnjob n).plEndJob id res
            if (d2.plLane n).st == .access then d2.plFree n else d2
        (((j.slot.bind D.rec?).map fun r => r.route.isNone).getD false = true →
          let d1 := D.count (fPlNoRoute ((j.slot.bind D.lastStream).getD 0))
          exec (.jobDeadline t true id) s = .next { s with dev := { (ended d1 7) with clk := D.clk } }) ∧
        (((j.slot.bind D.rec?).map fun r => r.route.isNone).getD false = false → j.res ≠ 7 →
          exec (.jobDeadline t true id) s = .next { s with dev :=
            { (ended D (if j.res ≠ 15 then j.res else 10)) with clk := D.clk } }))) ∧
    (∀ (st ch : Nat) (e : Nat × DwellEntry), (D.entriesOf st).find? (fun e => e.1 == ch / 256) = some e →
      let d1 := D.updDwell st ch fun w => { w with used := NMap.keep w.used fun k _ => decide (e.2.bucket D.axis ≤ k + 32) }
      exec (.dwellBucket t st ch) s = .next { s with dev :=
        { ((d1.unhold fun j => (d1.jobPaths j).any fun q => q.1 == st).callClusters) with clk := D.clk } })

/-- BACKOFF_END, CCA_END, SLOTTED_CCA, TX_START, TX_END, ACK_RECEIVED, ACK_WAIT_TIMEOUT, HORN_LISTEN_START, HORN_LISTEN_END and
HORN_COUNT_RESET (R116, R117, R125–R129). -/
def Obligations.TransmissionsRun : Prop :=
  (∀ (t n : Nat) (s : State), let D := s.dev.advance t; let l := D.lane n; let st := l.det.stream
    (l.st = .cca → l.phase = 0 → D.passedUs l.since (20 * l.wait) = true →
      exec (.backoffEnd t n) s = .next { s with dev := D.setLane n { l with phase := 1, heard := D.detectorsBusy st l.det.subs, since := D.clk } }) ∧
    (∀ (id : Nat) (j : Job), l.job = some id → NMap.find D.air.jobs id = some j →
      (∀ powers : List Nat, l.st = .cca → l.phase = 1 → D.passedUs l.since D.ccaUs = true →
        (D.channelBusy l powers = true → let d1 := D.count (fCcaBusy st)
          (l.slotted = true →
            let d2 := ((d1.count (fSlotBusy st)).freeLane n).updJob id fun j => { j with lane := none, noSlot := true }
            exec (.ccaEnd t n powers) s = .next { s with dev := d2 }) ∧
          (l.slotted = false → l.busy + 1 < D.maxCca →
            let be := min (l.be + 1) D.maxBe
            let w := d1.draw (2 ^ be)
            let l' := { l with be := be, busy := l.busy + 1, phase := 0, wait := w.1, heard := false, since := D.clk }
            exec (.ccaEnd t n powers) s = .next { s with dev := w.2.setLane n l' }) ∧
          (l.slotted = false → D.maxCca ≤ l.busy + 1 →
            let d2 := ((d1.count (fLbtFail st)).freeLane n).updJob id fun j => if l.horn then j else { j with last := some st }
            exec (.ccaEnd t n powers) s = .next { s with dev := { (d2.attemptFailed id 3) with clk := D.clk } })) ∧
        (D.channelBusy l powers = false →
          (l.horn = true →
            let x := D.plannedTx n l (hornBurst (D.wakeOf j) j.slot.isNone) D.hornRepeat
            exec (.ccaEnd t n powers) s = .next { s with dev := (D.setLane n { l with phase := 2, since := D.clk }).addTx x }) ∧
          (∀ (j1 j2 : Job) (d1 d2 : Dev), l.horn = false → D.lateNow j (D.firstAt st) = (true, j1, d1) →
            d1.buildFrame (D.atSending j1 (D.firstAt st) l.det.phy.shrUs) = some (j2, d2) →
            let d3 := d2.updJob id fun _ => j2
            let d4 := (d3.setLane n { l with phase := 2, since := D.clk }).addTx (d3.plannedTx n l (j2.frame.getD []) 0)
            exec (.ccaEnd t n powers) s = .next { s with dev := { d4 with clk := D.clk } }))) ∧
      (∀ x : Tx, D.txOf n = some x →
        (l.st = .cca → l.phase = 2 → x.first ≤ D.axis →
          (D.mayStart n l j x.us = false → exec (.txStart t n) s = .next { s with dev := { (D.giveBack n id) with clk := D.clk } }) ∧
          (D.mayStart n l j x.us = true →
            let d1 := (((D.dwellCharge st x.subs x.first x.us).startTx n).count (fTxFrames st)).setLane n { l with st := .tx, since := D.clk }
            (l.horn = true → exec (.txStart t n) s = .next { s with dev :=
              { (((d1.updJob id fun k => { k with noSlot := false }).count (fHornCalls st)).emit (.horn st x.sub x.octets x.horn)) with
                clk := D.clk } }) ∧
            (l.horn = false →
              let d2 := d1.updJob id fun k => { k with last := some st, noSlot := false }
              exec (.txStart t n) s = .next { s with dev :=
                { (((d2.callAnswered j).countCampFrame j).emit (.air st x.sub x.phy x.octets)) with clk := D.clk } }))) ∧
        (l.st = .tx → D.passedUs l.since x.us = true →
          (l.horn = true → exec (.txEnd t n) s = .next { s with dev := { (((D.stopTx n).freeLane n).hornSent id j l) with clk := D.clk } }) ∧
          (l.horn = false → j.ar = true →
            exec (.txEnd t n) s = .next { s with dev := (D.stopTx n).setLane n { l with st := .await, since := D.clk } }) ∧
          (l.horn = false → j.ar = false →
            exec (.txEnd t n) s = .next { s with dev := { (((D.stopTx n).freeLane n).endJob false id 1) with clk := D.clk } }))) ∧
      (∀ (a : AckHeard) (h : MacHdr), l.st = .await → fcsPass a.fcs2 a.psdu = true → parseMac a.psdu = some h → h.ftype = 2 →
        h.seq = j.seq → (h.dst = .none ∨ h.dst = .short D.netShort ∨ h.dst = .ext D.netEui) →
        (D.antTag st a.raw : Int) ≤ (l.since : Int) + D.tb.off + usT (1200 + l.det.phy.shrUs) →
        exec (.ackReceived t n a) s = .next { s with dev :=
          { (((D.count (fTxAcked st)).freeLane n).endJob false id 0) with clk := D.clk } }) ∧
      (l.st = .await → l.since + usT (1200 + l.det.phy.shrUs) + D.seesT st ≤ D.clk →
        let d1 := ((D.count (fNoAck st)).freeLane n).attemptFailed id 2
        ((∀ j', NMap.find d1.air.jobs id = some j' → ∀ s' u p, d1.verdict j' ≠ .go s' u p) →
          exec (.ackWaitTimeout t n) s = .next { s with dev := { d1 with clk := D.clk } }) ∧
        (∀ (j' : Job) (s' u : Nat) (p : Phy), NMap.find d1.air.jobs id = some j' → d1.verdict j' = .go s' u p → j'.held = false →
          (d1.lane n).st = .idle →
          exec (.ackWaitTimeout t n) s = .next { s with dev := { (d1.startCca n id s' u p false) with clk := D.clk } }))) ∧
    (∀ (id s' u : Nat) (p : Phy) (j : Job) (r : MeterRec), let e := D.judge id
      NMap.find e.air.jobs id = some j → e.slotPath j = some (r, s', u, p) →
      let lead := e.ccaUs + 20 + e.leadT s' * 1000000 / 2 ^ 36
      let c := r.slotInstant (r.slotNo (e.axisUs + lead + 1))
      (r.slotUsable c p = false →
        exec (.slottedCca t id) s = .next { s with dev := { (e.slotUnsync (j.slot.getD 0) c s') with clk := D.clk } }) ∧
      (∀ s'' u' p', r.slotUsable c p = true → (((e.axisUs + lead : Nat) : Int) - r.slotStart c).natAbs ≤ 1 → j.held = false →
        e.verdict j = .slotted s'' u' p' → e.freeLane? = some n → e.laneFor j s' u = true →
        let l' : Lane := { Lane.idle with st := .cca, det := ⟨s', u, false, p, 0, 0⟩, job := some id, phase := 1, slotted := true, heard := e.detectorsBusy s' (p.subs u), since := e.clk }
        exec (.slottedCca t id) s = .next { s with dev :=
          { ((e.setLane n l').updJob id fun x => { x with lane := some n }) with clk := D.clk } }))) ∧
  (∀ (d : Dev) (id res : Nat) (j : Job), NMap.find d.air.jobs id = some j →
    (d.maxRetries ≤ j.tries ∨ j.slot = none ∨ j.deadline ≤ d.clk → d.attemptFailed id res = d.endJob false id res) ∧
    (j.tries < d.maxRetries → j.slot ≠ none → d.clk < j.deadline → d.attemptFailed id res =
      (d.updJob id fun x => { x with tries := x.tries + 1, res := res, lane := none, held := false }).judge id)) ∧
  (∀ (t n : Nat) (s : State), let D := s.dev.advance t
    (∀ w : Window, NMap.find D.air.horn n = some w →
      (w.opens ≤ D.clk →
        let d1 : Dev := { D with air := { D.air with horn := NMap.put D.air.horn n { w with live := true } } }
        exec (.hornListenStart t n) s = .next { s with dev := { ((d1.unhold fun j => j.slot == some n).callClusters) with clk := D.clk } }) ∧
      (w.closes ≤ D.clk →
        let d1 := ({ D with air := { D.air with horn := NMap.del D.air.horn n } } : Dev).returnJobs n
        exec (.hornListenEnd t n) s = .next { s with dev :=
          { ((d1.air.jobs.filter fun p => p.2.slot == some n && p.2.horned).foldl (fun x p => x.callFailed p.1 p.2) d1) with clk := D.clk } })) ∧
    exec (.hornCountReset t) s = .next { s with dev :=
      { D with led := { D.led with recs := D.led.recs.map fun p => (p.1, { p.2 with horns := 0 }) } } })

/-- PL_PREAMBLE, PL_FRAME_END, HOLD_CLOSE, REASM_TIMEOUT, PL_RESP_START and PL_RESP_END (R134–R145, R152). -/
def Obligations.PowerlineFramesAreReceived : Prop :=
  (∀ (t n : Nat) (s : State), let D := s.dev.advance t; let l := D.plLane n
    (∀ x : PlHeard, D.plHears n x.corr = true →
      let d1 := if (D.sweep n).st == .wait then D.setSweep n { D.sweep n with heard := true } else D
      let tag := d1.plAntTag n x.raw
      let g := d1.plGroupOf n tag
      let rx (job : Option Nat) (be busy : Nat) : PlLane := { PlLane.init with st := .rx, tag := tag, lq := plLq x.snr, grp := g.1, job := job, be := be, busy := busy, idle := l.idle, blank := l.blank, since := D.clk }
      (l.st = .idle → exec (.plPreamble t n x) s = .next { s with dev := { (g.2.setPlLane n (rx l.job l.be l.busy)) with clk := D.clk } }) ∧
      (∀ (i : Nat) (j : Job), l.st = .access → l.job = some i → NMap.find D.pl.jobs i = some j →
        let d2 := g.2.count (fPlCcaBusy n)
        (l.busy + 1 < D.plMaxCsma →
          let be := if j.cls ≤ 1 then l.be else min (l.be + 1) D.plMaxBe
          exec (.plPreamble t n x) s = .next { s with dev := { (d2.setPlLane n (rx (some i) be (l.busy + 1))) with clk := D.clk } }) ∧
        (D.plMaxCsma ≤ l.busy + 1 → D.plSpent j = true →
          let d3 := ((d2.count (fPlLbtFail n)).setPlLane n (rx none 0 0)).plEndJob i 3
          exec (.plPreamble t n x) s = .next { s with dev := { d3 with clk := D.clk } }) ∧
        (D.plMaxCsma ≤ l.busy + 1 → D.plSpent j = false →
          let d3 := ((d2.count (fPlLbtFail n)).updPlJob i fun y => { y with tries := y.tries + 1, res := 3 }).setPlLane n (rx (some i) D.plMinBe 0)
          exec (.plPreamble t n x) s = .next { s with dev := { d3 with clk := D.clk } }))) ∧
    (∀ f : PlFrame, l.st = .rx → let endT := D.plAntTag n f.raw
      (f.fchOk = false → exec (.plFrameEnd t n f) s =
        .next { s with dev := { (((D.count (fPlFchErr n)).plFree n).plPrune) with clk := D.clk } }) ∧
      (f.fchOk = true → parseMac f.psdu = none →
        exec (.plFrameEnd t n f) s = .next { s with dev := { (D.plDone n endT false) with clk := D.clk } }) ∧
      (∀ h : MacHdr, f.fchOk = true → parseMac f.psdu = some h →
        (D.macFilter h = false → exec (.plFrameEnd t n f) s = .next { s with dev := { (D.plDone n endT h.ar) with clk := D.clk } }) ∧
        (D.macFilter h = true → h.sec = true → D.lookup h.srcEui = none →
          exec (.plFrameEnd t n f) s = .next { s with dev := { ((D.count (fPlUnknownSrc n)).plDone n endT h.ar) with clk := D.clk } }) ∧
        (D.macFilter h = true → (h.sec = false ∨ D.lookup h.srcEui ≠ none) → let d1 := D.count (fPlRxFrames n)
          (fcsPass true f.psdu = false → let d2 := d1.count (fPlFcsErr n)
            let d3 := if h.ar && D.plToUs h then d2.plRespond n endT (frameCheck f.psdu) false else d2.plDone n endT h.ar
            exec (.plFrameEnd t n f) s = .next { s with dev := { d3 with clk := D.clk } }) ∧
          (fcsPass true f.psdu = true → f.seg = 0 → f.last = true →
            let segs := (NMap.look D.pl.segs n []).filter fun x => x.src != h.srcEui
            let d2 : Dev := { d1 with pl := { d1.pl with segs := NMap.put d1.pl.segs n segs } }
            let d3 := d2.plJudge n endT (frameCheck f.psdu) h f (dropTail 2 f.psdu)
            exec (.plFrameEnd t n f) s = .next { s with dev := { d3 with clk := D.clk } })))) ∧
    (∀ (g h0 : Nat) (x : DupGroup) (f : PlRx), NMap.find D.pl.grps g = some x → x.hold = some h0 → x.kept = none →
      (D.pl.lanes.filter fun p => p.2.grp == g) = [(n, l)] → l.st = .hold → l.frame = some f → l.endT ≤ h0 + usT 200 →
      h0 + usT 200 + max (usT 30) (D.plSeesT n) ≤ D.axis →
      let d1 : Dev := { D with pl := { D.pl with grps := NMap.put D.pl.grps g { x with kept := some [frameContent f.hdr f.done] } } }
      exec (.holdClose t true g) s = .next { s with dev := { (d1.plKeep n l f).plPrune with clk := D.clk } }) ∧
    (∀ (orig : Eui) (tag : Nat),
      let late (x : Reasm) : Bool := x.orig == orig && x.tag == tag && D.passedMs x.since (D.reasmS * 1000)
      let xs := NMap.look D.pl.reasm n []
      let d1 : Dev := { D with pl := { D.pl with reasm := NMap.put D.pl.reasm n (xs.filter fun x => !late x) } }
      exec (.reasmTimeout t n orig tag) s = .next { s with dev := d1.countN (fPlReasmTo n) (xs.filter late).length }) ∧
    ((l.st = .turn ∨ l.st = .nack) → l.endT + usT D.plAckUs ≤ D.axis + D.plLead n → D.quiet = false →
      let l' := { l with st := .resp, first := l.endT + usT D.plAckUs, octets := responseOctets l.ack l.check, tone := D.plTone n none, since := D.clk }
      let d1 := (D.setPlLane n l').count (if l.ack then fPlAckSent n else fPlNackSent n)
      exec (.plRespStart t n) s = .next { s with dev := d1.emit (.plResp n l.ack l.check) }) ∧
    (l.st = .resp → D.plStopped n (Config.plRespUs (b2n (D.plFcc n))) = true →
      let d1 := ((D.setPlLane n { l with blank := D.clk + usT 40, since := D.clk }).plQuietens n).plFree n
      exec (.plRespEnd t n) s = .next { s with dev := { d1 with clk := D.clk } })) ∧
  (∀ (d : Dev) (n endT fcsVal : Nat) (h : MacHdr) (f : PlFrame) (os : List Octet),
    let y := PlRx.of h f (plainDone endT fcsVal (plLq f.snr) h os)
    (d.plForSweep n y = true → d.plJudge n endT fcsVal h f os =
      (d.sweepTake n ⟨h.srcEui, y.payload, plLq f.snr⟩).plAnswer n endT fcsVal h.ar true) ∧
    (d.plForSweep n y = false → d.lookup h.srcEui = none → d.plJudge n endT fcsVal h f os = d.plToHold n y none none 4) ∧
    (∀ m, d.plForSweep n y = false → d.lookup h.srcEui = some m →
      let r := openDone endT fcsVal (plLq f.snr) (d.clearKeys m (d.keysOf m)) (((d.rec? m).map MeterRec.rxCtr).getD 0) h h.srcEui os
      let x := PlRx.of h f r.2
      let d1 := if f.tmReq then d.toneMapReply n m (plLq f.snr) else d
      let slot := match x.orig with
        | some e => d.lookup e
        | none => some m
      (r.1 = .secFail → d.plJudge n endT fcsVal h f os = (d.count (fPlSecFail n)).plDone n endT h.ar) ∧
      (r.1 = .replay → d.plJudge n endT fcsVal h f os = (d.count (fPlReplay n)).plDone n endT h.ar) ∧
      (r.1 = .counterEnd → d.plJudge n endT fcsVal h f os = (d.raise 0x020 [r.2.keyIdx] (some m)).plDone n endT h.ar) ∧
      (r.1 = .pass → h.ftype = 3 → d.plJudge n endT fcsVal h f os = d1.plCommand n m x) ∧
      (r.1 = .pass → h.ftype ≠ 3 → d.plJudge n endT fcsVal h f os = d1.plToHold n x (some m) slot (d.finalClass slot x.payload.head?)))) ∧
  (∀ (d : Dev) (n : Nat) (l : PlLane) (f : PlRx), l.st ≠ .off → f.route = none → f.frag = none → (f.head ++ f.payload).length ≤ 1280 →
    let d1 := match l.nbr with
      | some m => d.updRec m fun r => { r with rxCtr := max r.rxCtr f.done.fctr }
      | none => d
    d.plKeep n l f = ((d1.plCandidates n l f).enqueue 1 l.cls ((l.packet n f).withOctets (f.head ++ f.payload))).plAnswer n l.endT
      l.check f.hdr.ar true)

/-- PL_ACCESS_SLOT, PL_TX_END, PL_RESPONSE, PL_AWAIT_TIMEOUT (R135, R143–R145), ROUTE_RECOMPUTE and ROUTE_REQUEST (R149). -/
def Obligations.PowerlineJobsAreSent : Prop :=
  (∀ (t n i : Nat) (j : Job) (s : State), let D := s.dev.advance t; let l := D.plLane n
    l.job = some i → NMap.find D.pl.jobs i = some j →
    (l.st = .access →
      (D.quiet = true → exec (.plAccessSlot t n) s = .next { s with dev := { (D.plGiveBack n) with clk := D.clk } }) ∧
      (D.quiet = false → D.plJobStream j ≠ some n →
        exec (.plAccessSlot t n) s = .next { s with dev := { (D.plGiveBack n).plKickAll with clk := D.clk } }) ∧
      (∀ (jr j2 : Job) (dr x : Dev), D.quiet = false → D.plJobStream j = some n → D.plStartAt n j.cls ≤ D.clk →
        D.plOthersSend n = false → D.clk + D.plLead n + usT (D.plAirOf n j) ≤ j.deadline →
        let first := D.axis + D.plLead n
        let j1 := D.atSending jr first (Config.plPreUs (b2n (D.plFcc n)))
        D.lateNow j first = (true, jr, dr) → dr.buildFrame (D.plHop j1) (D.plPre j1) = some (j2, x) →
        let j3 := { j1 with seq := j2.seq, frame := j2.frame }
        exec (.plAccessSlot t n) s = .next { s with dev := { ((x.updPlJob i fun _ => j3).plSend n j3) with clk := D.clk } })) ∧
    (l.st = .tx → D.plStopped n (D.plSendUs n l) = true →
      let sent := { l with blank := D.clk + usT 40, since := D.clk }
      let d1 := (D.setPlLane n sent).plQuietens n
      (j.ar = true → exec (.plTxEnd t n) s = .next { s with dev := d1.setPlLane n { sent with st := .await } }) ∧
      (j.ar = false → exec (.plTxEnd t n) s = .next { s with dev := { (((d1.plUnjob n).plEndJob i 1).plFree n) with clk := D.clk } })) ∧
    (l.st = .await → let failed := (D.count (fPlNoAck n)).plAttemptFailed n i 2
      (∀ (ack : Bool) (check : Nat), check ≠ frameCheck l.octets → exec (.plResponse t n ack check) s = .next { s with dev := D }) ∧
      exec (.plResponse t n true (frameCheck l.octets)) s =
        .next { s with dev := { (((D.plUnjob n).plEndJob i 0).plFree n) with clk := D.clk } } ∧
      exec (.plResponse t n false (frameCheck l.octets)) s = .next { s with dev := { failed with clk := D.clk } } ∧
      (l.since + usT (D.plAckUs + 2 * D.plSlotUs n) + D.plSeesT n ≤ D.clk →
        exec (.plAwaitTimeout t n) s = .next { s with dev := { failed with clk := D.clk } }))) ∧
  (∀ (d : Dev) (n i res : Nat) (j : Job), NMap.find d.pl.jobs i = some j → d.plSpent j = false → d.plAttemptFailed n i res =
    ((d.updPlJob i fun x => { x with tries := x.tries + 1, res := res, naks := j.naks + b2n (res == 2) }).setPlLane n
      { d.plLane n with be := d.plMinBe, busy := 0 }).plFree n) ∧
  (∀ (d : Dev) (n : Nat) (j : Job), let e := d.plSend n j; let tone := d.plTone n (d.plHop j).slot
    e.plLane n = { d.plLane n with st := .tx, first := d.axis + d.plLead n, octets := j.frame.getD [], tone := tone, since := d.clk } ∧
    ∃ ask : Bool, e.out = d.out ++ [.plFrame n tone.1 tone.2 (d.plAtten n) ask (j.frame.getD [])]) ∧
  (∀ (t n : Nat) (s : State), let D := s.dev.advance t
    (D.routeDue = true →
      let redo (m : Nat) (r : MeterRec) : MeterRec :=
        if r.inUse && r.pl then
          { r with cands := r.cands.filter fun c => decide ((D.seenTime + 2 ^ 16 - c.time) % 2 ^ 16 ≤ D.plRouteAge) }.adopt m D.nowS
        else r
      let recs := D.led.recs.map fun p => (p.1, redo p.1 p.2)
      exec (.routeRecompute t) s =
        .next { s with dev := { D with led := { D.led with recs := recs }, pl := { D.pl with route := D.clk } } }) ∧
    (∀ (r : MeterRec) (p : Nat × Job) (st : Nat), D.rec? n = some r → r.pl = true → r.route = none →
      D.pl.jobs.find? (fun p => p.2.slot == some n) = some p → D.lastStream n = some st →
      (∀ t0, NMap.find D.pl.rreq n = some t0 → D.passedMs t0 (D.plRreqS * 1000) = true) →
      let d1 : Dev := { D with pl := { D.pl with rreq := NMap.put D.pl.rreq n D.clk } }
      exec (.routeRequest t n) s = .next { s with dev := d1.queueJob (D.routeReqJob r.eui st p.2.cls p.2.deadline) }))

/-- The route a record adopts (R149). -/
def Obligations.AdoptedRouteIsTheBest : Prop :=
  ∀ (r : MeterRec) (slot now : Nat),
    ((r.adopt slot now).route = none ↔ r.cands = []) ∧
    ∀ a, (r.adopt slot now).route = some a →
      (∃ c ∈ r.cands, a = { c with time := now % 2 ^ 24 }) ∧
      ∀ c ∈ r.cands, a.cost < c.cost ∨ (a.cost = c.cost ∧ a.hops ≤ c.hops)

/-- SWEEP_PERIOD, SWEEP_REPLY and SWEEP_WINDOW_END (R151–R155). -/
def Obligations.SweepsWalkThePrefixTree : Prop :=
  ∀ (t n : Nat) (s : State), let D := s.dev.advance t; let w := D.sweep n
    (D.sweepDue n = true →
      (∀ p r, D.plUp n = true → w.st = .idle → 0 < D.sweepMax → D.sweepStack = p :: r →
        let w' := { Sweep.init with st := .query, id := (w.id + 1) % 65536, stack := r, cur := p, last := D.nowS }
        exec (.sweepPeriod t n) s = .next { s with dev := { ((D.setSweep n w').sweepJob n p.1 p.2 0 0xFFFF) with clk := D.clk } }) ∧
      ((D.plUp n = false ∨ w.st ≠ .idle) →
        exec (.sweepPeriod t n) s = .next { s with dev := D.setSweep n { w with last := D.nowS } })) ∧
    (∀ r : SweepReply, r.answers w.id = true →
      (w.st = .wait → (∀ f ∈ w.found, f.eui = r.src → f.quiet = false) → (∀ q ∈ w.reps, q.src ≠ r.src) →
        exec (.sweepReply t n r) s = .next { s with dev := D.setSweep n { w with reps := w.reps ++ [r] } }) ∧
      (w.st = .confirm → exec (.sweepReply t n r) s = .next { s with dev := D.setSweep n { w with reps := w.reps ++ [r] } })) ∧
    (w.st = .wait → D.passedMs w.since D.discWinMs = true →
      (∀ p rest, (w.found.filter fun f => !f.known).length < D.sweepMax → w.reps = [] → w.heard = false →
        w.stack.dropWhile w.never.contains = p :: rest →
        let d1 := (D.setSweep n { w with st := .query, stack := rest, cur := p }).sweepJob n p.1 p.2 0 0xFFFF
        exec (.sweepWindowEnd t n) s = .next { s with dev := { d1 with clk := D.clk } }) ∧
      ((w.found.filter fun f => !f.known).length < D.sweepMax → w.reps = [] → w.heard = true → w.cur.1 < 64 → w.never = [] →
        let one : Nat × Eui := (w.cur.1 + 1, w.cur.2 ||| BitVec.ofNat 64 (2 ^ (63 - w.cur.1)))
        let w' := { w with st := .query, stack := (one :: w.stack).take 64, cur := (w.cur.1 + 1, w.cur.2) }
        let d1 := (D.setSweep n w').sweepJob n (w.cur.1 + 1) w.cur.2 0 0xFFFF
        exec (.sweepWindowEnd t n) s = .next { s with dev := { d1 with clk := D.clk } }) ∧
      (w.reps ≠ [] →
        let fs := w.reps.map D.foundOf
        let new := fs.filter fun f => !(w.found.any fun g => g.eui == f.eui)
        let w' := { w with st := .quiet, found := w.found ++ new, todo := w.reps.map SweepReply.src, fail := false, reps := [] }
        let d1 := (D.countN (fDiscKnown n) (fs.filter Found.known).length).setSweep n w'
        exec (.sweepWindowEnd t n) s =
          .next { s with dev := { (w.reps.foldl (fun x r => x.sweepJob n 64 r.src 1 (euiDst r.src)) d1) with clk := D.clk } })) ∧
    (∀ f rest, w.st = .confirm → D.passedMs w.since D.discWinMs = true → w.heard = true → w.unconfirmed = f :: rest →
      let upd (g : Found → Found) : List Found := w.found.map fun x => if x.eui == f.eui then g x else x
      ((w.reps.any fun r => r.src == f.eui) = true →
        let d1 := D.setSweep n { w with heard := false, found := upd fun x => { x with done := true } }
        exec (.sweepWindowEnd t n) s = .next { s with dev := { (d1.sweepConfirm n) with clk := D.clk } }) ∧
      ((w.reps.any fun r => r.src == f.eui) = false → f.tries + 1 < D.confTries →
        let d1 := D.setSweep n { w with heard := false, found := upd fun x => { x with tries := x.tries + 1 } }
        exec (.sweepWindowEnd t n) s = .next { s with dev := { (d1.sweepConfirm n) with clk := D.clk } }) ∧
      ((w.reps.any fun r => r.src == f.eui) = false → D.confTries ≤ f.tries + 1 →
        let d1 := (D.setSweep n { w with heard := false, found := w.found.filter fun x => x.eui != f.eui }).count (fDiscDropped n)
        exec (.sweepWindowEnd t n) s = .next { s with dev := { (d1.sweepConfirm n) with clk := D.clk } }))

/-- VALIDATE_FRAME, VERIFY_DONE and INDEX_LOOKUP (R34, R41, R167–R174, R556). -/
def Obligations.ReadingsReachTheCommitInput : Prop :=
  (∀ (t : Nat) (pl : Bool) (s : State), let D := s.dev.advance t
    let d1 := (D.releaseAside D.led.aside.length).discard (b2n pl) false
    D.ledgerRuns = true →
    ((4096 ≤ d1.led.aside.length ∨ d1.nextFrame (b2n pl) = none) →
      exec (.validateFrame t pl) s = .next { s with dev := { d1 with clk := D.clk } }) ∧
    (∀ (p : Packet) (d2 : Dev), d1.led.aside.length < 4096 → d1.nextFrame (b2n pl) = some (p, d2) →
      exec (.validateFrame t pl) s = .next { s with dev := { (d2.takeFrame pl p) with clk := D.clk } })) ∧
  (∀ (d d' : Dev) (g : Nat) (p : Packet), d.nextFrame g = some (p, d') →
    ∃ c, c < 5 ∧ (d.queue 2 c).pressing = false ∧ (d.queue g c).ring.head? = some p ∧ d' = d.takeOut g c p ∧
      ∀ k, k < c → (d.queue 2 k).pressing = true ∨ (d.queue g k).ring = []) ∧
  (∀ (d : Dev) (pl : Bool) (p : Packet) (n : Nat),
    let x := (p.meta pl).getD ⟨0, 0, 0, 0, p.time, pl, 0⟩; let f := p.info x
    let kept := { p with item := if (p.meta pl).isSome then .frame x else p.item }
    (p.slot = none → d.takeFrame pl p = d.toCommit f (.discovery f 0 0 0 true)) ∧
    (p.slot = some n →
      (d.waitsAside p = true → d.takeFrame pl p = { d with led := { d.led with aside := d.led.aside ++ [kept] } }) ∧
      (d.waitsAside p = false → d.rec? n = none → d.takeFrame pl p = d.toCommit f (.reject f 6)) ∧
      (d.waitsAside p = false → d.rec? n ≠ none → p.meta pl = none → d.takeFrame pl p = d.toCommit f (.reject f 3)) ∧
      (d.waitsAside p = false → d.rec? n ≠ none → p.meta pl ≠ none →
        d.takeFrame pl p = d.takePayload n f ((unpackOctets p.data).drop x.hdrLen)))) ∧
  (∀ (d : Dev) (n : Nat) (f : FrameInfo) (os : List Octet),
    (os = [] → d.takePayload n f os = d.toCommit f (.reject f 3)) ∧
    (os.head? = some 0x10 →
      (parseSet os = none → d.takePayload n f os = d.toCommit f (.reject f 3)) ∧
      (∀ x, parseSet os = some x → d.takePayload n f os = d.takeSet n f x none)) ∧
    (∀ st : Octet, os = [0x30, st] → st.toNat < 16 → d.takePayload n f os = d.toCommit f (.status f st.toNat)) ∧
    (os.head? = some 0x30 → (∀ st : Octet, os = [0x30, st] → 16 ≤ st.toNat) → d.takePayload n f os = d.toCommit f (.reject f 3)) ∧
    (os.head? = some 0x50 → d.takePayload n f os = d.takeResponse n f os) ∧
    (os.head? = some 0x60 → d.takePayload n f os = d.takeNack f os) ∧
    (∀ o, os.head? = some o → o ≠ 0x10 → o ≠ 0x30 → o ≠ 0x50 → o ≠ 0x60 → d.takePayload n f os = d.toCommit f (.reject f 4))) ∧
  (∀ (d : Dev) (n : Nat) (f : FrameInfo) (x : ReadingSet) (resp : Option (Nat × Nat × Nat × Nat)),
    let v : Validating := ⟨f, x, .verify, [], [], false, resp⟩
    ((d.keyBlock n).sigV = true → d.takeSet n f x resp = (d.setVal n v).assignUnits verifyUnits) ∧
    ((d.keyBlock n).sigV = false → d.takeSet n f x resp = d.verified n { v with sigs := x.sigs.map fun _ => 1 })) ∧
  (∀ (d : Dev) (n : Nat) (v : Validating),
    let need := d.needLook ((d.rec? n).getD MeterRec.blank) v (v.set.readings.mapIdx fun i x => (i, x))
    (need = [] → d.verified n v = (d.setVal n { v with stage := .queued }).toCommit v.info (.run n)) ∧
    (need ≠ [] → d.verified n v = d.setVal n { v with stage := .lookup })) ∧
  (∀ (t n : Nat) (s : State) (v : Validating), let D := s.dev.advance t
    NMap.find D.led.inVal n = some v →
    (v.stage = .verify → v.unit = true →
      let eui := ((D.rec? n).map MeterRec.eui).getD v.info.src
      let d1 : Dev := { D with led := { D.led with verAt := D.clk } }
      let w := { v with unit := false, sigs := v.set.sigs.map ((D.keyBlock n).check eui) }
      exec (.verifyDone t n) s = .next { s with dev := { ((d1.verified n w).assignUnits verifyUnits) with clk := D.clk } }) ∧
    (v.stage = .lookup →
      let ends := D.needLook ((D.rec? n).getD MeterRec.blank) v (v.set.readings.mapIdx fun i x => (i, x))
      let found := ends.foldl (fun a e => let q := a.2.indexFind n e; (a.1 ++ [(e, q.1)], q.2)) (([] : List (Nat × Option Nat)), D)
      let d1 := (found.2.setVal n { v with stage := .queued, look := found.1 }).toCommit v.info (.run n)
      exec (.indexLookup t n) s = .next { s with dev := { d1 with clk := D.clk } }))

/-- COMMIT (R171, R177, R181, R182, R185, R186, R198, R556). -/
def Obligations.CommitsTakeTheirNumbers : Prop :=
  (∀ (t : Nat) (s : State), let D := s.dev.advance t; let d1 := D.discard 2 true
    D.ledgerRuns = true →
    (d1.firstItem = none → exec (.commit t) s = .next { s with dev := { d1 with clk := D.clk } }) ∧
    (∀ (p : Packet) (i : CommitItem), d1.firstItem = some (p, i) →
      let d2 := (d1.takeOut 2 i.cls p).commitItem i
      exec (.commit t) s = .next { s with dev := { (d2.releaseAside d2.led.aside.length) with clk := D.clk } })) ∧
  (∀ (d : Dev) (p : Packet) (i : CommitItem), d.firstItem = some (p, i) →
    (p, i) ∈ d.committable ∧ ∀ x ∈ d.committable, CommitItem.first x.2 i = false) ∧
  (∀ (d : Dev) (i : CommitItem) (n : Nat), i.slot = some n →
    (∀ v, i.kind = .run n → NMap.find d.led.inVal n = some v → d.rec? n ≠ none →
      d.led.csn + v.set.readings.length ≤ (d.commitItem i).led.csn) ∧
    (∀ v, d.rec? n = none → v.info.slot = some n →
      (i.kind = .run n ∧ NMap.find d.led.inVal n = some v) ∨ (∃ why, i.kind = .reject v.info why) ∨ (∃ st, i.kind = .status v.info st) →
      (d.commitItem i).led.csn = d.led.csn + 1 ∧ (d.commitItem i).ctr fRejected = min (d.ctr fRejected + 1) (2 ^ 18 - 1) ∧
      (d.commitItem i).led.recs = d.led.recs) ∧
    (∀ (f : FrameInfo) (st : Nat) (r : MeterRec), i.kind = .status f st → f.slot = some n → d.rec? n = some r →
      let bit (i : Nat) : Bool := st / 2 ^ i % 2 == 1
      ∃ q, (d.commitItem i).rec? n = some q ∧ q.has sbAlarm = bit 0 ∧ q.has sbTamper = bit 1 ∧
        q.has sbOutage = (!bit 3 && (bit 2 || r.has sbOutage)))) ∧
  (∀ (d : Dev) (i : CommitItem) (f : FrameInfo) (m k w : Nat), i.kind = .discovery f m k w true →
    (d.led.ann.any fun p => p.1 == f.src && decide (d.now < p.2 + secT d.annHoldS)) = true → d.commitItem i = d.count fAnnSuppr) ∧
  (∀ (d : Dev) (i : CommitItem), i.kind = .dirSwitch →
    (d.led.rebuild.st ≠ .switch → d.commitItem i = d) ∧
    (d.led.rebuild.st = .switch → (d.commitItem i).led.dir = d.led.rebuild.new ∧ (d.commitItem i).led.rebuild.st = .release))

/-- The commit of an entry (R186, R187, R189). -/
def Obligations.EntriesFollowOneAnother : Prop :=
  ∀ (d : Dev) (e : Entry) (more : Bool),
    let es := ((d.led.openB.map OpenBlock.entries).getD []) ++ [{ e with csn := d.led.csn }]
    let d' := (d.append e more).2
    let sealedBy (c : Nat) : Prop := d'.led.openB = none ∧ d'.led.bno = d.led.bno + 1 ∧ d'.led.signQ = d.led.signQ ++ [d.led.bno] ∧
      ∃ b, NMap.find d'.led.blocks d.led.bno = some b ∧ b.entries = es ∧ b.sealBy = c ∧ b.last = d.led.csn ∧
        b.epoch = d.pair.epoch ∧ b.bno = d.led.bno ∧ b.sealT = d.now ∧ b.sig = none
    (d.append e more).1 = d.led.csn ∧ d'.led.csn = d.led.csn + 1 ∧ d'.led.recs = d.led.recs ∧
    (e.cls = 0 → more = false → sealedBy 2) ∧
    ((e.cls ≠ 0 ∨ more = true) → 4096 ≤ es.length → sealedBy 0) ∧
    ((e.cls ≠ 0 ∨ more = true) → es.length < 4096 →
      d'.led.openB.map OpenBlock.entries = some es ∧ d'.led.bno = d.led.bno ∧ d'.led.blocks = d.led.blocks)

/-- What the commit of a judged reading does to the record (R173, R176, R177). -/
def Obligations.RecordsFollowTheJudgement : Prop :=
  ∀ (d : Dev) (r : MeterRec) (f : FrameInfo) (s : ReadingSet) (x : Reading) (sig csn : Nat) (look : Option Nat),
    let j := d.judgeReading r f s x sig look
    let q := r.afterReading s x (skewOf s.mclk f.shr) j csn
    j.outcome ≤ 3 ∧
    (j.outcome = 3 → q = r) ∧
    (j.outcome = 2 → q.lastReg = r.lastReg ∧ q.has sbQuarantined = true ∧
      (20 ≤ j.reason → q.lastEnd = r.lastEnd ∧ q.lastCsn = r.lastCsn ∧ q.seen = r.seen)) ∧
    (j.outcome ≤ 1 → j.flags / 4 % 2 = 0 → q.lastEnd = x.endS ∧ q.lastCsn = csn ∧
      q.lastReg = r.reported s x ++ r.lastReg.drop (r.reported s x).length ∧ q.has sbStale = false ∧ q.has sbQuarantined = false) ∧
    (j.outcome ≤ 1 → j.flags / 4 % 2 = 1 → q.lastEnd = r.lastEnd ∧ q.lastReg = r.lastReg ∧ q.has sbStale = false) ∧
    (j.outcome ≤ 2 → q.skew = max (-32767) (min 32767 (skewOf s.mclk f.shr))) ∧
    (j.outcome ≤ 1 ↔ j.reason = 0)

/-- BLOCK_TIME_LIMIT, BLOCK_SIGNED and STALE_SCAN (R166, R187–R190). -/
def Obligations.BlocksSealAndAreSigned : Prop :=
  (∀ (t : Nat) (s : State), let D := s.dev.advance t
    (∀ o, D.led.openB = some o → D.passedMs o.since 250 = true →
      exec (.blockTimeLimit t) s = .next { s with dev := { (D.seal 1) with clk := D.clk } } ∧
      (D.seal 1).led.openB = none ∧ (D.seal 1).led.bno = D.led.bno + 1 ∧ (D.seal 1).led.signQ = D.led.signQ ++ [D.led.bno] ∧
      ∃ b, NMap.find (D.seal 1).led.blocks D.led.bno = some b ∧ b.entries = o.entries ∧ b.sealBy = 1 ∧ b.sig = none) ∧
    (∀ n rest b, D.led.signQ = n :: rest → NMap.find D.led.blocks n = some b → D.passedUs (max b.sealClk D.led.signAt) 1600 = true →
      let b1 := { b with prev := D.led.prev }
      let b2 := { b1 with sig := some (D.signOctets (wordsOctets b1.signedWords)) }
      let d1 : Dev := { D with led := { D.led with signQ := rest, signAt := D.clk, prev := sha384 (wordsOctets b2.words) } }
      let d2 := (((d1.setBlock b2).storeItem 1 n b2.words).deliver).shipBlock b2
      exec (.blockSigned t) s = .next { s with dev := { d2 with clk := D.clk } }) ∧
    (D.ledgerRuns = true → D.tb.set = true → D.nowS / 60 ≠ D.led.scan / 60 →
      let e := D.letPass 2
      let d0 : Dev := { e with led := { e.led with scan := e.nowS } }
      (D.staleMult = 0 → exec (.staleScan t) s = .next { s with dev := { d0 with clk := D.clk } }) ∧
      (D.staleMult ≠ 0 →
        let d1 := (e.led.recs.filter fun p => D.isLate p.2).foldl (fun (x : Dev) p => x.markStale p.1 p.2) d0
        exec (.staleScan t) s = .next { s with dev := { d1 with clk := D.clk } }))) ∧
  (∀ (d : Dev) (r : MeterRec), d.isLate r = true ↔
    r.inUse = true ∧ r.has sbStale = false ∧ (r.lastEnd + d.staleMult * r.ivlS) * 2 ^ 36 < d.now) ∧
  (∀ (d : Dev) (n : Nat) (r : MeterRec), r.inUse = true →
    (d.markStale n r).led.csn = d.led.csn + 1 ∧ (d.markStale n r).rec? n = some (r.setBit sbStale true) ∧
    (r.setBit sbStale true).has sbStale = true)

/-- REBUILD_WALK_DONE, REBUILD_RELEASE_END and REBUILD_ABORT (R196–R198, R210). -/
def Obligations.RebuildsRunTheirStates : Prop :=
  (∀ (t : Nat) (s : State), let D := s.dev.advance t; let b := D.led.rebuild
    (b.st = .build →
      (exec (.rebuildWalkDone t true) s = .next { s with dev := { (D.abortRebuild 1) with clk := D.clk } }) ∧
      (let d1 := match DirSet.copyIn D.led.dir.entries b.new D.draws with
        | none => D.abortRebuild 0
        | some (n, k) =>
          let d1 : Dev := { D with draws := k, led := { D.led with rebuild := { b with st := .switch, since := D.clk, new := n } } }
          d1.queueCommit ⟨1, d1.now, 0, 0, none, .dirSwitch⟩
       exec (.rebuildWalkDone t false) s = .next { s with dev := { d1 with clk := D.clk } })) ∧
    (b.st = .release → D.passedUs b.since 4 = true →
      let d1 := ((D.letPass 1).rebuildIdle).rebuildSummary b.cmd rcComplete
      exec (.rebuildReleaseEnd t) s = .next { s with dev := { d1 with clk := D.clk } }) ∧
    (b.st = .abort → D.passedUs b.since 4 = true →
      let d1 := (((D.letPass 1).rebuildIdle).rebuildSummary b.cmd rcFailed).raise 0x023 [b.cause]
      exec (.rebuildAbort t) s = .next { s with dev := { d1 with clk := D.clk } })) ∧
  (∀ (d : Dev) (c : Nat), (d.abortRebuild c).led.rebuild = { d.led.rebuild with st := .abort, since := d.clk, cause := c } ∧
    ∀ i, Item.commit i ∈ (d.abortRebuild c).items 2 → i.kind ≠ .dirSwitch) ∧
  (∀ d : Dev, d.rebuildIdle.led.rebuild.st = .idle ∧ d.rebuildIdle.led.dir = d.led.dir) ∧
  (∀ (d : Dev) (id why : Nat) (c : Cmd), d.cmd? id = some c → c.id = id →
    ((d.rebuildSummary id why).cmd? id).map (fun c => (c.ended, c.reason)) = some (true, why))

/-- Insertion and removal keep a set sound and every other EUI findable, whatever is drawn (R158–R160). -/
def Obligations.DirectoryFindsWhatItInserts : Prop :=
  (∀ log2 gen n, (DirSet.fresh log2 gen n).Sound) ∧
  (∀ (s s' : DirSet) (x : Eui × Nat) (n m : Nat), s.Sound → s.find x.1 = none → s.insert x n = some (s', m) →
    s'.Sound ∧ s'.seeds = s.seeds ∧ s'.log2 = s.log2 ∧ s'.count = s.count + 1 ∧ s'.find x.1 = some x.2 ∧
    ∀ e, e ≠ x.1 → s'.find e = s.find e) ∧
  (∀ (s : DirSet) (e : Eui), s.Sound →
    (s.remove e).Sound ∧ (s.remove e).find e = none ∧ ∀ e', e' ≠ e → (s.remove e).find e' = s.find e')

/-- READ, DISCONNECT, RECONNECT, TARIFF_PUSH and KEY_ROTATE (R202–R206, R217, R221, R348). -/
def Obligations.MeterCommandsAreAccepted : Prop :=
  (∀ (t : Nat) (m : CmdMsg) (s : State), let D := s.dev.advance t; let e := D.letPass 1
    let ans (i : Instr) (x : Dev) : Prop := exec i s = .next { s with dev := { x with clk := D.clk } }
    let judged (i : Instr) (k : Nat) (fits : Bool) (own : Option Nat) (go : Dev) : Prop :=
      (D.pw.hu ≠ none → ans i (D.count fHoldupDrop)) ∧
      (D.pw.hu = none → D.boot.recovery ≠ 0 → ans i (D.cmdAck m.ref m.id 3 rcBusy 0)) ∧
      (D.pw.hu = none → D.boot.recovery = 0 → D.ledgerRuns = false → ans i D) ∧
      (D.pw.hu = none → D.boot.recovery = 0 → D.ledgerRuns = true →
        (∀ c, D.listed m.id = some c → ans i (D.cmdAck m.ref m.id (if c.ended then 2 else 1) c.reason c.csn)) ∧
        (D.listed m.id = none →
          ((m.sound k && fits) = false → ans i (e.refuse m rcBadArg)) ∧
          ((m.sound k && fits) = true → 1024 ≤ e.cmdCount → ans i (e.refuse m rcTableFull)) ∧
          ((m.sound k && fits) = true → e.cmdCount < 1024 →
            (∀ code, own = some code → ans i (e.refuse m code)) ∧ (own = none → ans i go))))
    let len := fld (m.args.getD 0 0) 27 17
    judged (.read t m) 1 (m.tgtsFit && m.argWords == 2) (e.targetRefusal m) (e.meterCommand m 1 (e.clk + secT m.deadline)) ∧
    judged (.disconnect t m) 2 (m.tgtsFit && m.argWords == 0) (e.targetRefusal m) (e.meterCommand m 2 (e.clk + secT m.deadline)) ∧
    judged (.reconnect t m) 3 (m.tgtsFit && m.argWords == 0) (e.targetRefusal m) (e.meterCommand m 3 (e.clk + secT m.deadline)) ∧
    judged (.tariffPush t m) 4 (m.tgtsFit && decide (1 ≤ len) && decide (len ≤ 1536) && m.argWords == 3 + cdiv len 4)
      (e.pushRefusal m) (e.meterCommand m 4 (e.atSecond (m.args.getD 1 0).toNat)) ∧
    judged (.keyRotate t m) 5 (m.tgtsFit && m.form == 0 && m.argWords == 8 * m.tgtWords) (e.rotateRefusal m) (e.rotate m)) ∧
  (∀ (d : Dev) (m : CmdMsg) (mc dl : Nat), let d' := d.meterCommand m mc dl
    d.led.csn < d'.led.csn ∧ (d'.cmd? m.id).map (fun c => (c.kind, c.targets)) = some (m.kind, (d.targets m).length) ∧
    (d.openTxns + (d.targets m).length ≤ 262144 → ∀ n ∈ d.targets m, ∀ r, d.rec? n = some r → r.openTx < 7 →
      (m.kind = 4 → r.stagedV = false) → (d'.txn? m.id n).map (fun x => (x.st, x.mcmd)) = some (.opened, mc))) ∧
  (∀ (d : Dev) (m : CmdMsg), m.kind = 5 → d.openTxns + (listedSlots m).length ≤ 262144 →
    ∀ x ∈ listedSlots m, d.rotateBad m.id x.1 x.2 = false →
      ((d.rotate m).txn? m.id x.1).map (fun x => (x.st, x.mcmd)) = some (.opened, 6)) ∧
  (∀ (d : Dev) (m : CmdMsg) (code : Nat), (d.refuse m code).led.csn = d.led.csn + 1 ∧ (d.refuse m code).cmd = d.cmd ∧
    (d.refuse m code).led.recs = d.led.recs)

/-- CANCEL, ENROL, REMOVE, CLEAR_QUAR, REBUILD, SWEEP_START and SWEEP_STOP (R151, R154, R161, R195, R209, R210). -/
def Obligations.DeviceCommandsComplete : Prop :=
  (∀ (t : Nat) (m : CmdMsg) (s : State), let D := s.dev.advance t; let e := D.letPass 1
    let ans (i : Instr) (x : Dev) : Prop := exec i s = .next { s with dev := { x with clk := D.clk } }
    let accepted (k : Nat) (fits : Bool) : Prop := m.sound k = true ∧ fits = true
    let a (i : Nat) : Word := m.args.getD i 0
    D.pw.hu = none → D.boot.recovery = 0 → D.ledgerRuns = true → D.listed m.id = none → e.cmdCount < 1024 →
    (accepted 7 (m.noTgts && m.argWords == 1) →
      (∀ c, e.listed (a 0).toNat = some c → c.ended = false → ans (.cancel t m) ((e.cancelCmd c).done m)) ∧
      ((∀ c, e.listed (a 0).toNat = some c → c.ended = true) → ans (.cancel t m) (e.refuse m rcBadArg))) ∧
    (accepted 8 (m.noTgts && m.argWords == 28) →
      ans (.enrol t m) (match e.enrolRefusal m, e.freeSlot? with
        | some code, _ => (e.enrolCount m code).refuse m code
        | none, some n => (e.enrol m n).done m
        | none, none => e)) ∧
    (accepted 9 (m.noTgts && m.argWords == 3) → let n := fld (a 0) 35 15
      let eui : Eui := BitVec.ofNat 64 (fld (a 1) 35 4 * 2 ^ 32 + fld (a 2) 35 4)
      (∀ r, e.rec? n = some r → r.eui = eui → ans (.remove t m) ((e.removeSlot n r).done m)) ∧
      ((∀ r, e.rec? n = some r → r.eui ≠ eui) → ans (.remove t m) (e.refuse m rcBadArg))) ∧
    (accepted 0x0A (m.tgtsFit && m.argWords == 0) → e.targetRefusal m = none →
      ans (.clearQuar t m) (((e.targets m).foldl (fun (x : Dev) n => x.clearQuar n) e).done m)) ∧
    (let k := fld (a 0) 35 31
     accepted 0x0B (m.noTgts && m.argWords == 1 && decide (17 ≤ k) && decide (k ≤ 21)) → e.rebuildRefusal k = none →
      let d1 := e.accept m 0
      let b : Rebuild := ⟨.build, d1.clk, m.id, 0, DirSet.fresh k (nextGen e.led.dir.gen) d1.draws⟩
      ans (.rebuild t m) { d1 with draws := d1.draws + 4, led := { d1.led with rebuild := b } }) ∧
    (let n := m.sweepArg.1
     (accepted 0x0C (m.noTgts && m.argWords == 1 && !m.sweepArg.2) → (e.sweep n).st = .idle → e.plUp n = true →
      ans (.sweepStart t m) ((e.sweepBegin n).done m)) ∧
     (accepted 0x0C (m.noTgts && m.argWords == 1 && m.sweepArg.2) → ans (.sweepStop t m) ((e.abortSweep n).done m)))) ∧
  (∀ (d : Dev) (m : CmdMsg), d.led.csn < (d.done m).led.csn ∧
    ((d.done m).cmd? m.id).map (fun c => (c.ended, c.reason)) = some (true, rcComplete)) ∧
  (∀ (d : Dev) (c : Cmd), d.cmd? c.id = some c → c.freed = false → c.kind ≠ 4 → c.kind ≠ 6 → c.kind ≠ 0x0B →
    ((d.cancelCmd c).cmd? c.id).map Cmd.cancelled = some true) ∧
  (∀ (d : Dev) (m : CmdMsg) (n : Nat), d.led.csn < (d.enrol m n).led.csn ∧ ((d.enrol m n).keyBlock n).next = 0 ∧
    ∃ key, (d.enrol m n).rec? n = some { d.enrolRec m with key := key }) ∧
  (∀ (d : Dev) (n : Nat) (r : MeterRec), let d' := d.removeSlot n r
    d'.rec? n = none ∧ d'.led.dir.find r.eui = none ∧ NMap.find d'.led.heldS n = some d.led.bno) ∧
  (∀ (d : Dev) (n : Nat) (r : MeterRec), (d.clearQuar n).rec? n = some r → r.has sbQuarantined = false) ∧
  (∀ (d : Dev) (n : Nat), (0 < d.sweepMax → ((d.sweepBegin n).sweep n).st = .query) ∧ ((d.abortSweep n).sweep n).st = .idle)

/-- TRANSACTION_OPEN, RESP_WAIT_EXPIRY, TRANSACTION_DEADLINE, TARIFF_CUT and TARIFF_SWITCH (R206–R208, R219, R221, R222). -/
def Obligations.TransactionsRunToTheirEnd : Prop :=
  (∀ (t cmd slot : Nat) (c : Cmd) (s : State), let D := s.dev.advance t; let e := D.letPass 1
    let ans (i : Instr) (x : Dev) : Prop := exec i s = .next { s with dev := { x with clk := D.clk } }
    D.ledgerRuns = true → D.cmd? cmd = some c →
    (∀ c1, e.cmd? cmd = some c1 →
      let d1 := if c1.waiting.head? = some slot ∧ e.openTxns < 262144 then
          ((e.setWaiting cmd (c1.waiting.drop 1)).openTxn c1 slot (firstMcmd c1.kind) (e.txnDeadlineOf c1)).cmdFinish cmd
        else e
      ∀ x, d1.txn? cmd slot = some x → x.st = .opened → d1.earlierTxn c1 slot = false →
        let staged := ((d1.rec? slot).map MeterRec.stagedV).getD false
        (c1.kind = 4 ∧ x.mcmd = 4 ∧ staged = true →
          ans (.transactionOpen t cmd slot) (d1.endTxn x rcBusySlot 0 (d1.plainDetail cmd c1.kind slot) 0 0)) ∧
        (c1.kind ≠ 4 ∨ x.mcmd ≠ 4 ∨ staged = false → ans (.transactionOpen t cmd slot) (d1.tryAny x))) ∧
    (∀ x, D.txn? cmd slot = some x → D.txnReading x = false →
      (x.st = .resp → x.switched = true → ans (.respWaitExpiry t cmd slot) (D.keySwitchAcked x)) ∧
      (x.st = .resp → x.switched = false → D.passedMs x.wait (D.respWaitS * 1000) = true →
        (x.deadline ≤ D.clk → ans (.respWaitExpiry t cmd slot) (D.txnDeadline x)) ∧
        (∀ y, D.clk < x.deadline → e.txn? cmd slot = some y → y.st = .resp → ans (.respWaitExpiry t cmd slot) (e.tryAny y))) ∧
      (¬ slot ∈ c.waiting → x.isOpen = true → x.deadline ≤ D.clk → D.txnOnAir x = false →
        (x.switched = true → ans (.transactionDeadline t cmd slot) (D.keySwitchAcked x)) ∧
        (x.switched = false → ans (.transactionDeadline t cmd slot) (D.txnDeadline x)))) ∧
    (slot ∈ c.waiting → c.kind ≠ 4 → D.txnDeadlineOf c ≤ D.clk →
      let d1 := e.setWaiting cmd (c.waiting.filter fun n => n != slot)
      let d2 := d1.meterResult cmd c.kind slot rcJobFail 15 0 0 (d1.plainDetail cmd c.kind slot) 0 0 false
      ans (.transactionDeadline t cmd slot) ((d2.tally cmd false).cmdFinish cmd)) ∧
    (c.kind = 4 → c.ended = false → c.cancelled = false →
      (c.phase = 0 → (c.args.getD 1 0).toNat ≤ D.nowS → ans (.tariffCut t cmd) (e.tariffCut c)) ∧
      (c.phase = 1 → (c.args.getD 2 0).toNat + D.actGraceMin * 60 ≤ D.nowS →
        let d1 := (e.txnsOf cmd).foldl (fun (x : Dev) y =>
          if x.isStaged y then x.tariffEnd y rcOk fun r => { r with ttActive := r.ttStaged, stagedV := false } else x) e
        ∀ k, d1.cmd? cmd = some k → ans (.tariffSwitch t cmd) (d1.finalSummary { k with phase := 3 } none)))) ∧
  (∀ (d : Dev) (c : Cmd) (x : Txn), d.cmd? x.cmd = some c → c.kind ≠ 6 → c.cancelled = false → d.lateness x.atS d.polMeterAt = none →
    let j := { Job.base (.txn x.cmd x.slot) (some x.slot) 1 d.clk x.deadline
        (commandPayload x.cmd x.mcmd (if x.late then 0 else x.atS) (d.cmdArgs c x)) with pl := ((d.rec? x.slot).map MeterRec.pl).getD false }
    d.tryAny x = (d.setTxn { x with st := .job, jobs := x.jobs + 1 }).queueJob j) ∧
  (∀ (d : Dev) (c : Cmd) (x : Txn), let e := d.letPass 1
    e.cmd? x.cmd = some c → e.txn? x.cmd x.slot = some x → x.isOpen = true → c.kind ≠ 6 → c.kind ≠ 4 → c.kind ≠ 5 →
    d.txnDeadline x = e.endTxn x x.deadlineCode 0 0 0 0) ∧
  (∀ (d : Dev) (c : Cmd), d.cmd? c.id = some c → c.freed = false →
    ((d.tariffCut c).cmd? c.id).map (fun k => (k.phase, k.waiting)) = some (1, [])) ∧
  (∀ (d : Dev) (x : Txn) (r : MeterRec) (code : Nat) (f : MeterRec → MeterRec), d.rec? x.slot = some r → x.st = .ended → (f r).inUse = true →
    (d.tariffEnd x code f).rec? x.slot = some (f r))

/-- CAMPAIGN_CREATE, CAMPAIGN_START, CAMPAIGN_ACTIVATE and CAMPAIGN_CANCEL (R223, R228, R229, R347). -/
def Obligations.CampaignCommandsAct : Prop :=
  (∀ (t : Nat) (m : CmdMsg) (s : State), let D := s.dev.advance t; let e := D.letPass 1
    let ans (i : Instr) (x : Dev) : Prop := exec i s = .next { s with dev := { x with clk := D.clk } }
    D.pw.hu = none → D.boot.recovery = 0 → D.ledgerRuns = true → D.listed m.id = none → m.sound 6 = true → e.cmdCount < 1024 →
    (let c := Camp.ofWords m.id (m.args.drop 2) s.stores.campStage
     m.tgtsFit = true → m.argWords = 19 + 3 * fld (m.args.getD 10 0) 23 15 → m.campOp = 0 → m.args.getD 1 0 = 0 →
     ans (.campaignCreate t m) (match e.createRefusal m c with
       | some code => e.refuse m code
       | none => e.createCamp m c)) ∧
    (e.namedCamp m = none →
      (m.campFits 1 2 = true → ans (.campaignStart t m) (e.refuse m rcNoCampaign)) ∧
      (m.campFits 2 3 = true → ans (.campaignActivate t m) (e.refuse m rcNoCampaign)) ∧
      (m.campFits 3 2 = true → ans (.campaignCancel t m) (e.refuse m rcNoCampaign))) ∧
    (∀ id c, e.namedCamp m = some (id, c) →
      (m.campFits 1 2 = true →
        (c.st = 1 → ans (.campaignStart t m) ((e.startCamp id).done m)) ∧
        (c.st ≠ 1 → ans (.campaignStart t m) (e.refuse m rcBadArg))) ∧
      (m.campFits 2 3 = true → let act := (m.args.getD 2 0).toNat
        let sent := c.members.foldl (fun (x : Dev) p => if x.stateIn id p.1 == 6 then x.sendActivate id p.1 else x) (e.setCamp id { c with actS := act })
        (c.actS = 0 → c.st ≠ 6 → e.nowS + c.cutMin * 60 < act → ans (.campaignActivate t m) (sent.done m)) ∧
        (c.actS = 0 → c.st ≠ 6 → act ≤ e.nowS + c.cutMin * 60 → ans (.campaignActivate t m) (e.refuse m rcPast)) ∧
        (c.actS ≠ 0 ∨ c.st = 6 → ans (.campaignActivate t m) (e.refuse m rcBadArg))) ∧
      (m.campFits 3 2 = true →
        (c.st ≠ 6 → ans (.campaignCancel t m) ((e.cancelCamp id c).done m)) ∧
        (c.st = 6 → ans (.campaignCancel t m) (e.refuse m rcBadArg))))) ∧
  (∀ (d : Dev) (m : CmdMsg) (c : Camp),
    ((d.createCamp m c).camp? (fld (m.args.getD 2 0) 35 30)).map (fun k => (k.cmd, k.nb, k.targets)) = some (c.cmd, c.nb, c.targets)) ∧
  (∀ (d : Dev) (id : Nat) (c : Camp), d.camp? id = some c → (d.startCamp id).camp? id = some { c with st := 2, armAt := d.clk }) ∧
  (∀ (d : Dev) (id : Nat) (c : Camp), d.camp? id = some c → (c.actS = 0 ∨ d.nowS < c.actS) →
    ∀ p ∈ c.members, campTerminal ((d.cancelCamp id c).stateIn id p.1) = true)

/-- ARMING, ROUND_START, REPORT_WINDOW_END, ACT_CUTOFF, CONFIRM_QUERY, NO_CONFIRM and CAMPAIGN_DEADLINE (R226–R230). -/
def Obligations.CampaignsRunTheirRounds : Prop :=
  (∀ (t id n : Nat) (c k : Camp) (s : State), let D := s.dev.advance t; let e := D.letPass 1
    let ans (i : Instr) (x : Dev) : Prop := exec i s = .next { s with dev := { x with clk := D.clk } }
    let g := c.targets.getD n Target.none
    D.ledgerRuns = true → D.camp? id = some c → e.camp? id = some k →
    (∀ rest r, c.st = 2 → k.st = 2 → k.armAt ≤ e.clk → e.openTxns < 262144 → k.toArm = n :: rest → e.rec? n = some r →
      ans (.arming t id) ((e.setCamp id { k with armAt := e.clk + e.armEvery k }).armSlot id n r)) ∧
    (D.armed id c = true → n < c.targets.length → D.up.shed < 2 →
      (g.phase = 5 → D.passedMs g.since D.hornWakeMs = true → ans (.roundStart t id n) (D.startRound id n)) ∧
      (g.phase = 0 → g.pl = true ∨ g.gwake = 0 ∨ 200 ≤ D.hornSub g.stream → ans (.roundStart t id n) (D.startRound id n)) ∧
      (g.phase = 0 → g.pl = false → g.gwake ≠ 0 → D.hornSub g.stream < 200 →
        let j := { Job.base (.group id n) none 3 D.clk (D.cutoffAt c) [] with
          via := some (g.stream, D.hornSub g.stream, hornPhy), ar := false, secured := false, dst := g.gwake }
        ans (.roundStart t id n) ((D.updTarget id n fun x => { x with phase := 4 }).queueJob j))) ∧
    (c.st = 3 → g.phase = 2 → D.passedMs g.since (c.rptWin * 1000) = true → ans (.reportWindowEnd t id n) (e.windowOver id n k)) ∧
    (c.st ≠ 6 → c.actS ≠ 0 → c.actS ≤ D.nowS + c.cutMin * 60 →
      ans (.actCutoff t id) (e.campClear id k (fun st => decide (st ≤ 5) || (st == 6 && k.later)) campRunning 11 rcExcluded)) ∧
    (c.st ≠ 6 → c.actS = 0 → c.deadline ≤ D.clk →
      ans (.campaignDeadline t id) (e.campClear id k (fun _ => true) (fun st => decide (1 ≤ st) && decide (st ≤ 6)) 11 rcExcluded)) ∧
    (∀ m, NMap.find c.members n = some m → c.actS ≠ 0 → c.hasAct (D.stateIn id n) = true →
      (m.asked = false → c.actS + c.confMin * 60 ≤ D.nowS →
        let d1 := D.setCamp id { c with members := NMap.put c.members n { m with asked := true } }
        ans (.confirmQuery t id n)
          (d1.openCampTxn id n 9 (max (D.atSecond (c.actS + 2 * c.confMin * 60)) (D.clk + secT D.respWaitS)))) ∧
      (m.asked = true → c.actS + 2 * c.confMin * 60 ≤ D.nowS →
        (∀ x, D.campTxn c n = some x → x.isOpen = true → x.mcmd = 9 → x.deadline ≤ D.clk) →
        ans (.noConfirm t id n) ((e.endQuery c n).memberTo id n 10 rcNoConfirm 0 0)))) ∧
  (∀ (d : Dev) (id n : Nat) (c : Camp) (r : MeterRec), d.camp? id = some c → d.rec? n = some r → r.openTx < 7 →
    (r.campId = id ∨ d.camp? r.campId = none) → let d' := d.armSlot id n r
    (d'.camp? id).map Camp.toArm = some (c.toArm.drop 1) ∧
    (d'.rec? n).map (fun q => (q.campId, q.campState, q.campTries, q.has sbCampaign)) = some (id, 1, 0, true) ∧
    (d'.txn? c.cmd n).map (fun x => (x.st, x.mcmd)) = some (.opened, 7)) ∧
  (∀ (d : Dev) (id n : Nat) (c : Camp), d.camp? id = some c → n < c.targets.length →
    ((d.startRound id n).camp? id).map (fun k => (k.st, (k.targets.getD n Target.none).phase)) = some (3, 1)) ∧
  (∀ (d : Dev) (id n : Nat) (c : Camp), d.camp? id = some c → n < c.targets.length → (∀ k, d.cmd? c.cmd = some k → k.freed = false) →
    let g := c.targets.getD n Target.none
    ((d.windowOver id n c).camp? id).map (fun k => ((k.targets.getD n Target.none).round, (k.targets.getD n Target.none).phase)) =
      some (if g.next = [] ∨ c.rounds ≤ g.round + 1 then (g.round, 3) else (g.round + 1, 0))) ∧
  (∀ (d : Dev) (id : Nat) (c : Camp) (pick tell : Nat → Bool) (st code : Nat), d.camp? id = some c → campTerminal st = true →
    ∀ p ∈ c.members, pick (d.stateIn id p.1) = true → campTerminal (d.stateIn id p.1) = false →
      (d.campClear id c pick tell st code).stateIn id p.1 = st)

/-- ZONE_REFERENCE, BAL_WAIT_EXPIRY and CORRELATOR_RUN (R243, R244, R252). -/
def Obligations.BalanceIntervalsClose : Prop :=
  (∀ (t z endS : Nat) (s : State), let D := s.dev.advance t; let e := D.letPass 2
    let ans (i : Instr) (x : Dev) : Prop := exec i s = .next { s with dev := { x with clk := D.clk } }
    D.balOn = true →
    (D.zRefKind z ≠ 2 → D.zOpen z endS = true → endS * 100 ≤ D.met.tick → (endS * 100 + 1) * 2 ^ 36 ≤ D.now * 100 →
      let uWh := (e.feederRef z endS).1
      let sum := if e.zRefKind z = 0 then uWh.getD 0 0 + uWh.getD 1 0 + uWh.getD 2 0 else uWh.getD (e.zRefPhase z) 0
      let v := { e.zIvl z endS with
        ref := some (clampE (roundHE (sum.fdiv 1000) 1000))
        refPh := uWh.map fun x => x.fdiv 1000
        q := (e.feederRef z endS).2.1
        gapUs := (e.feederRef z endS).2.2 }
      ans (.zoneReference t z endS) ((e.setIvl z endS v).closeEarly z 64)) ∧
    (D.zOpen z endS = true → (endS + D.balWaitMin * 60) * 2 ^ 36 ≤ D.now → ans (.balWaitExpiry t z endS) (e.closeUpTo z endS 65)) ∧
    (D.phiWinD ≠ 0 → D.nowS / 3600 ≠ D.bal.hour / 3600 →
      ans (.correlatorRun t) (e.bal.corr.foldl (fun (x : Dev) p =>
        let w := x.memWord p.1
        if memZv w && !memPoly w && x.role3 p.1 && decide (p.2.start + x.phiWinD * 86400 ≤ x.nowS) then x.phaseRun p.1 p.2 else x)
        (e.setBal { e.bal with hour := e.nowS })))) ∧
  (∀ (d : Dev) (z endS : Nat), d.zOpen z endS = true → endS = d.zDone z + d.balIvlS →
    endS ≤ (d.closeUpTo z endS 65).zDone z ∧ d.led.csn < (d.closeUpTo z endS 65).led.csn) ∧
  (∀ (d : Dev) (n : Nat) (c : Corr), (d.phaseRun n c).led.csn = d.led.csn + 1 ∧
    ∃ k, NMap.find (d.phaseRun n c).bal.corr n = some k ∧ k.start = d.nowS ∧ k.n = 0)

/-- What an evaluation does to its zone (R246, R247, R250). -/
def Obligations.AlarmsFollowTheirHistories : Prop :=
  ∀ (d : Dev) (z endS : Nat) (early : Bool),
    let x := d.zone z
    let r := d.evaluate z endS early
    let y := r.zone z
    let why := fld (y.words.getD 0 0) 35 33
    y.done = endS ∧ why ≤ 6 ∧ (d.expected z endS = 0 → why = 6) ∧ y.restart = false ∧ r.led.csn = d.led.csn + 1 ∧
    (why ≤ 2 → y.loss = (x.loss * 2 + b2n (why == 1)) % 2 ^ 15 ∧ y.neg = (x.neg * 2 + b2n (why == 2)) % 2 ^ 15 ∧
      (x.lossAl = false → (y.lossAl = true ↔ d.zPersistN z ≤ lowOnes y.loss (d.zPersistM z))) ∧
      (x.lossAl = true → (y.lossAl = false ↔ lowOnes y.loss (d.zClearN z) = 0)) ∧
      (x.negAl = false → (y.negAl = true ↔ d.zPersistN z ≤ lowOnes y.neg (d.zPersistM z))) ∧
      (x.negAl = true → (y.negAl = false ↔ lowOnes y.neg (d.zClearN z) = 0))) ∧
    (3 ≤ why → y.loss = x.loss ∧ y.neg = x.neg ∧ y.lossAl = x.lossAl ∧ y.negAl = x.negAl) ∧
    (∀ k, k ≠ z → r.zone k = d.zone k)

/-- SYNC_DEC, METRO_RESET, PPS and CYCLE_PULSE (R265, R267, R268, R326). -/
def Obligations.ResetsWaitForTheirBoundary : Prop :=
  (∀ (t : Nat) (s : State) (c : Control), let D := s.dev.advance t
    let ans (i : Instr) (x : Dev) : Prop := exec i s = .next { s with dev := { x with clk := D.clk } }
    (D.syncEn = true →
      (D.pw.hu ≠ none → ans (.syncDec t (!D.syncFall)) (D.count fSyncIgnored)) ∧
      (D.pw.hu = none → D.met.run = none → ans (.syncDec t (!D.syncFall)) D) ∧
      (D.pw.hu = none → D.met.run ≠ none → ans (.syncDec t (!D.syncFall)) (D.metroReset .resetBall).2)) ∧
    (ans (.syncDec t D.syncFall) D) ∧
    (D.syncEn = false → ∀ up, ans (.syncDec t up) D) ∧
    (D.pw.hu = none → D.keptAnswer c.req = none → c.badOp = false → D.boot.recovery = 0 →
      (D.met.run ≠ none → ans (.metroReset t c) ((D.metroReset .resetCxp).2.controlResp c 0 (D.metroReset .resetCxp).1)) ∧
      (D.met.run = none → ans (.metroReset t c) (D.controlResp c 0 0))) ∧
    (D.tb.set = true → D.pinsRun = true → D.domOn 55 = true →
      (D.nowS ≠ D.loc.pps →
        ∃ d', exec (.pps t) s = .next { s with dev := d' } ∧ d'.loc.pps = D.nowS ∧
          d'.out = D.out ++ ((List.range 48).filter fun p => D.pinFunc p == 8).map fun p => Out.pulse p 10) ∧
      (D.cycleMs ≠ 0 → D.cycleNo ≠ D.loc.cycle →
        ∃ d', exec (.cyclePulse t) s = .next { s with dev := d' } ∧ d'.loc.cycle = D.cycleNo ∧
          d'.out = D.out ++ ((List.range 48).filter fun p => D.pinFunc p == 9).map fun p => Out.pulse p 10))) ∧
  (∀ (d : Dev) (k : ChangeKind), let x : Change := ⟨k, d.nextBoundary, 0, 0⟩
    ((∃ y ∈ d.met.pend, y.kind = k ∧ y.at' = d.nextBoundary) → d.metroReset k = (0, d)) ∧
    ((∀ y ∈ d.met.pend, y.kind = k → y.at' ≠ d.nextBoundary) →
      d.metroReset k = (d.queueChange x).raiseNow (d.changeEvent x).1 (d.changeEvent x).2 ∧
      x ∈ (d.queueChange x).met.pend ∧ (d.queueChange x).met.pend.length = d.met.pend.length + 1)) ∧
  (∀ (d : Dev) (n : Nat), d.changeEvent ⟨.resetBall, n, 0, 0⟩ = (0x051, boundaryArgs n ++ [0]) ∧
    d.changeEvent ⟨.resetCxp, n, 0, 0⟩ = (0x051, boundaryArgs n ++ [1]))

/-- Settling (R264, R266), calibration (R260, R270) and the remainders of a tick (R272). -/
def Obligations.OutputsAreMarkedAfterAChange : Prop :=
  (∀ (x : Chan) (g : Group) (b n : Nat), x.marks = [b] →
    (g.scs = false → (x.marked g (b + n * periodU g.preset) = true ↔ 1 ≤ n ∧ n ≤ 35)) ∧
    (g.scs = true → (x.marked g (b + n * (40 * periodU g.preset)) = true ↔ n = 1))) ∧
  (∀ (d : Dev) (c : Nat) (raw : Int), -(2 ^ 35 - 1) ≤ d.calibrate c raw ∧ d.calibrate c raw ≤ 2 ^ 35 - 1) ∧
  (∀ (d : Dev) (f k tick : Nat),
    let s := d.products f k tick
    let r := d.phaseTick f k tick
    let old := d.feedPhase (4 * f + k)
    let new := r.2.2.2.feedPhase (4 * f + k)
    r.1 * epUnit + new.epRem = s.1 + old.epRem ∧ r.2.1 * epUnit + new.eqRem = s.2.1 + old.eqRem ∧
    0 ≤ new.epRem ∧ new.epRem < epUnit ∧ 0 ≤ new.eqRem ∧ new.eqRem < epUnit)

/-- TICK_END, BOUNDARY and CHANGE_BOUNDARY (R265, R273, R292, R293, R297). -/
def Obligations.TicksAndBoundariesAreTaken : Prop :=
  (∀ (t : Nat) (s : State), let D := s.dev.advance t; let k := D.now * 25 / 2 ^ 36
    let ans (i : Instr) (x : Dev) : Prop := exec i s = .next { s with dev := { x with clk := D.clk } }
    (D.met.run ≠ none → D.domOn 53 = true → D.tickReadyU D.met.tick ≤ D.nowU → ans (.tickEnd t) D.takeTick) ∧
    (∀ p, D.boundaryPlan = some p → ans (.boundary t) (({ D with leg := { D.leg with due := none } }).commitBoundary p)) ∧
    (D.boundaryPlan = none → ans (.boundary t) D) ∧
    (∀ x, D.met.pend.find? (fun x => x.kind == .start && decide (x.at' ≤ k)) = some x →
      ans (.changeBoundary t) (D.changeBoundary.startLegal (boundaryTime x.at'))) ∧
    (D.met.pend.find? (fun x => x.kind == .start && decide (x.at' ≤ k)) = none → ans (.changeBoundary t) D.changeBoundary)) ∧
  (∀ d : Dev, let d' := d.takeTick
    d'.met.tick = d.met.tick + 1 ∧ d'.leg.st.tickT = cdiv ((d.met.tick + 1) * 2 ^ 36) 100 ∧
    (cdiv (d.met.tick * 2 ^ 36) 100 < d.nextT → d'.leg.st.bnum = d.leg.st.bnum ∧ d'.led = d.led ∧ d'.leg.st.ticks = d.leg.st.ticks + 1)) ∧
  (∀ (d : Dev) (p : BoundaryPlan), let d' := d.commitBoundary p
    d'.led.csn = d.led.csn + 1 ∧ d'.leg.st.bnum = d.leg.st.bnum + 1 ∧ d'.leg.st.highT = max d.leg.st.highT p.t ∧
    d'.leg.st.tariff = p.tariff ∧ d'.leg.st.start = p.start ∧ d'.leg.st.ticks = 0 ∧ d'.leg.due = d.leg.due ∧
    d'.leg.st.snapNo = d.leg.st.snapNo + b2n p.bill ∧
    (∀ q r, q < 9 → (d'.leg.st.set q).reg r 0 = (d.leg.st.set q).reg r 0)) ∧
  (∀ d : Dev, d.changeBoundary.met.pend = d.met.pend.filter fun x => !decide (x.at' ≤ d.now * 25 / 2 ^ 36)) ∧
  (∀ (d : Dev) (n : Nat), (d.startLegal n).leg.due = some (n, max 1 d.leg.why, n))

/-- What a register and a set do with a tick's energies (R278–R280). -/
def Obligations.RegistersLoseNothing : Prop :=
  ∀ (s : RegSet), s.regs.length = 48 → s.rems.length = 48 → (∀ r ∈ s.rems, r < 1000) → (∀ r ∈ s.regs, r < 2 ^ 72) →
    (∀ t q e, t < 8 → q < 6 →
      let s' := s.add t q e
      let i := 6 * t + q
      s'.regs.getD i 0 * 1000 + s'.rems.getD i 0 = (s.regs.getD i 0 * 1000 + s.rems.getD i 0 + e) % (2 ^ 72 * 1000) ∧
      s'.rems.getD i 0 < 1000 ∧
      ∀ j, j ≠ i → s'.regs.getD j 0 = s.regs.getD j 0 ∧ s'.rems.getD j 0 = s.rems.getD j 0) ∧
    (∀ (tf : Nat) (p q : Int) (gap : Bool) (t r : Nat), tf < 8 → t < 8 → r < 6 →
      ((s.tick tf p q gap).reg t r ≠ s.reg t r →
        t = tf ∧ (r = (if 0 ≤ p then 0 else 1) ∨ r = (if 0 ≤ p then (if 0 ≤ q then 2 else 5) else (if 0 ≤ q then 3 else 4)))) ∧
      (s.tick tf p q gap).gap = sat 36 (s.gap + b2n gap))

/-- ANNOUNCE, ANNOUNCE_RECEIPT_TIMEOUT, SYNC, FOLLOW_UP, PTP_DELAY_REQ, PTP_DELAY_RESP, SYNC_TIMEOUT, SYNC_SEND, ANNOUNCE_SEND,
PTP_DELAY_REQ_RECEIVED and TSQ_EXPIRED (R307–R312). -/
def Obligations.PtpPortsExchange : Prop :=
  ∀ (t p dom seq : Nat) (s : State), let d := s.dev.advance t; let x := d.port p
    (d.ptpTakes p dom = true →
      (∀ f utc leap, x.best = none →
        ∃ d', exec (.announce t p dom f utc leap) s = .next { s with dev := d' } ∧ (d'.port p).best = some f) ∧
      (∃ d', exec (.announceReceiptTimeout t p) s = .next { s with dev := d' } ∧ (d'.port p).best = none) ∧
      (x.st = 9 → ∀ t1, exec (.sync t p dom seq t1) s = .next { s with dev := d.setPort p { x with sync := some (seq, t1, d.rawNs) } }) ∧
      (∀ a t1, x.sync = some (seq, none, a) →
        exec (.followUp t p dom seq t1) s = .next { s with dev := d.setPort p { x with sync := some (seq, some t1, a) } }) ∧
      (x.st = 9 →
        ∃ d', exec (.ptpDelayReq t p) s = .next { s with dev := d' } ∧ d'.out = d.out ++ [.delayReq p x.rseq] ∧
          (d'.port p).req = some (x.rseq * 4096 + d.tb.tsId) ∧ (d'.port p).rseq = (x.rseq + 1) % 65536 ∧
          ((d.tb.tsq.filter fun e => e.port == p).length < 16 → ⟨p, d.tb.tsId, d.rawNs, d.clk⟩ ∈ d'.tb.tsq)) ∧
      (∀ n t1 t2 t3 t4 r, x.st = 9 → x.sync = some (n, some t1, t2) → x.req = some r → r / 4096 = seq →
        (d.takeStamp p (r % 4096)).1 = some t3 → d.pw.hu = none → d.tb.step = none → d.tb.set = true → d.tb.prov = false →
        d.tb.st = tbAcquire →
        let e : Int := ptpEpochS * 1000000000
        let ds := x.delays ++ [Int.fdiv ((t2 - (t1 - e)) + ((t4 - e) - t3)) 2]
        ∃ d', exec (.ptpDelayResp t p dom seq t4) s = .next { s with dev := d' } ∧ (d'.port p).delays = ds.drop (ds.length - 16) ∧
          (d'.port p).req = none ∧ d'.tb.lastAcc = d.clk ∧
          d'.tb.lastOff = (t2 - (t1 - e)) - (median (ds.drop (ds.length - 16)) - d.asymNs p)) ∧
      (x.st = 6 → d.tb.set = true →
        let n := d.now % 2 ^ 36 * 1000000000
        (∃ d', exec (.syncSend t p) s = .next { s with dev := d' } ∧
          d'.out = d.out ++ [.sync p x.sseq (d.now / 2 ^ 36 + 946684800) (n / 2 ^ 36) (n % 2 ^ 36 * 65536 / 2 ^ 36)]) ∧
        (∀ sender sport, let o := Out.delayResp p seq (d.now / 2 ^ 36 + 946684800) (n / 2 ^ 36) (n % 2 ^ 36 * 65536 / 2 ^ 36) sender sport
          exec (.ptpDelayReqReceived t p dom seq sender sport) s = .next { s with dev := d.emit o }) ∧
        (d.slave = none → ∃ d', exec (.announceSend t p) s = .next { s with dev := d' } ∧
          d'.out = d.out ++ [.announce p x.aseq { d.ownSet with sport := p + 1 } d.tb.taiUtc d.tb.leap]))) ∧
    ((d.tb.st = tbAcquire ∨ d.tb.st = tbLocked) → 16 * d.syncT ≤ d.clk - d.tb.lastAcc → d.pw.hu = none →
      exec (.syncTimeout t) s = .next { s with dev := d.tbTo (if d.tb.learned then tbHoldover else tbFreerun) }) ∧
    (∀ e ∈ d.tb.tsq, e.port = p → d.passedMs e.since 1000 = true →
      ∃ d', exec (.tsqExpired t p e.id) s = .next { s with dev := d' } ∧
        d'.tb.tsq = d.tb.tsq.filter (fun q => !(q.port == p && q.id == e.id)) ∧
        d'.ctr fTsqExpired = min (d.ctr fTsqExpired + 1) (2 ^ 18 - 1))

/-- STEP_TAKE_EFFECT, TIME_STEP, TIME_SET, LEAP, LEAP_SECOND, START_WAIT_EXPIRY, RTC_MEASURE, OUTAGE_RTC_UPDATE and BEACON
(R315–R327). The instant of LEAP_SECOND is the model's choice (notes/assumptions/15.md). -/
def Obligations.DeviceTimeIsMoved : Prop :=
  (∀ (t : Nat) (s : State) (c : Control), let D := s.dev.advance t
    let ans (i : Instr) (x : Dev) : Prop := exec i s = .next { s with dev := { x with clk := D.clk } }
    let answered (d' : Dev) (res : Nat) : Prop := d'.keptAnswer c.req = some (0x13, [W c.req, pk [(res, 35, 28)], hiW 0, loW 0])
    (∀ x, D.tb.step = some x →
      (D.pw.hu ≠ none → ans (.stepTakeEffect t) (D.setTb { D.tb with step := none })) ∧
      (D.pw.hu = none → x.ts ≤ D.now → ans (.stepTakeEffect t) (D.takeStep x))) ∧
    (D.pw.hu = none → D.keptAnswer c.req = none → c.badOp = true →
      ∀ i ∈ [Instr.timeStep t c, .timeSet t c, .leap t c, .metroReset t c, .swap t c, .warmRestart t c, .warmRestartFirmware t c,
          .warmRestartLegal t c],
        ∃ d', exec i s = .next { s with dev := d' } ∧ answered d' rcBadArg ∧ d'.tb = D.tb) ∧
    (D.pw.hu = none → D.keptAnswer c.req = none → c.badOp = false → D.boot.recovery = 0 →
      (D.tb.step ≠ none → ans (.timeStep t c) (D.controlResp c rcBusy 0)) ∧
      (∀ o, D.tb.set = true → D.tb.step = none → c.flag = true → D.tb.st = tbStepWait → D.tb.pend = some o →
        ans (.timeStep t c) (D.decideStep (-(nsT o)) 2 (some (c.ref, c.req)))) ∧
      (D.tb.set = true → D.tb.step = none → c.flag = false →
        (2 ^ 36 < (ofTwos 72 c.arg).natAbs → ans (.timeStep t c) (D.decideStep (ofTwos 72 c.arg) 1 (some (c.ref, c.req)))) ∧
        ((ofTwos 72 c.arg).natAbs ≤ 2 ^ 36 → D.tb.st ≠ tbStepWait →
          ans (.timeStep t c) ((D.slewBy (ofTwos 72 c.arg)).controlResp c rcOk 0))) ∧
      (D.tb.set = false → ∃ d', exec (.timeSet t c) s = .next { s with dev := d' } ∧ answered d' rcOk ∧ d'.now = c.arg ∧
        d'.tb.set = true ∧ d'.tb.lastStep = c.arg ∧ d'.tb.prov = false ∧ d'.tb.st = tbAcquire) ∧
      ans (.leap t c) ((D.setTb { D.tb with leap := some c.flag }).controlResp c rcOk 0)) ∧
    (∀ neg, D.tb.leap = some neg → D.tb.set = true → D.utcSecond = (if neg then 86399 else 0) →
      let tai := if neg then D.tb.taiUtc - 1 else D.tb.taiUtc + 1
      let st := { D.leg.st with leapIn := D.leg.st.leapIn + (if neg then -1 else 1) }
      ans (.leapSecond t) ((D.setTb { D.tb with leap := none, taiUtc := tai }).setLeg st)) ∧
    (D.tb.prov = true → D.tb.set = true → D.boot.phase = 3 → D.pair.st ≠ 1 →
      D.passedMs (if D.pair.st = 2 then D.pair.since else D.boot.since) (1000 * D.timeWaitS) = true →
      ans (.startWaitExpiry t) D.releaseTime) ∧
    (∀ err temp, D.tb.st = tbLocked → let i := (temp + 73).toNat; let q := NMap.look D.tb.bins i (0, 0)
      ans (.rtcMeasure t err temp) (D.setTb ({ D.tb with bins := NMap.put D.tb.bins i (q.1 + err, q.2 + 1) }.refit))) ∧
    (∀ (raw n : Nat) (temp : Int), D.tb.rtc = some n →
      let now := n + ((raw : Int) - ((raw : Int) * D.tb.model temp).fdiv 1000000000).toNat
      let unc := D.tb.rtcUnc + (if D.tb.fit then 10 else 200) * raw / 2 ^ 36
      ans (.outageRtcUpdate t raw temp) (D.setTb { D.tb with rtc := some now, rtcUnc := unc })) ∧
    (∀ n pl, D.quiet = false → D.tb.set = true → (pl = true → D.plEn n = true ∧ D.beaconPlS ≠ 0) →
      (pl = false → D.rfEn n = true ∧ D.beaconSub n ≠ 255 ∧ D.beaconS ≠ 0) →
      let k := if pl then 32 + n else n; let per := if pl then D.beaconPlS else D.beaconS
      (∀ t0, NMap.find D.tb.beaconT k = some t0 → D.passedMs t0 (1000 * per) = true) →
      let q := NMap.look D.tb.beacons k 0
      let b := { D.tb with beacons := NMap.put D.tb.beacons k ((q + 1) % 65536), beaconT := NMap.put D.tb.beaconT k D.clk }
      let via := if pl then (n, 0, hornPhy) else (n, D.beaconSub n, phyOfMode (D.beaconMode n))
      let j := { Job.base .beacon none 2 D.clk (D.clk + secT per / 2) (D.beaconPayload q) with
        via := some via, ar := false, secured := false, pl := pl, dst := 0xFFFF }
      ans (.beacon t n pl) ((D.setTb b).queueJob j))) ∧
  (∀ (d : Dev) (x : Step), let v := toTwos 72 (stepDelta x.corr)
    ∃ y : Dev, y.tb.step = none ∧ y.tb.off = d.tb.off + stepDelta x.corr ∧ y.tb.lastStep = ((x.ts : Int) + stepDelta x.corr).toNat ∧
      y.ctr fSteps = min (d.ctr fSteps + 1) (2 ^ 18 - 1) ∧
      let r := y.raiseNow 0x070 [x.ts / 2 ^ 36, x.ts % 2 ^ 36, v / 2 ^ 36, v % 2 ^ 36, x.cause]
      (x.req = none → d.takeStep x = r.2) ∧
      (∀ ref req, x.req = some (ref, req) → d.takeStep x = r.2.controlResp ⟨ref, 1, req, 0, false⟩ rcOk r.1)) ∧
  (∀ d : Dev, d.releaseTime.tb.prov = false ∧ d.releaseTime.tb.off = d.tb.off) ∧
  (∀ (d : Dev) (n : Nat), (d.beaconPayload n).length = 21)

/-- The servo's states and bounds (R307, R312–R314). -/
def Obligations.TimebaseFollowsItsOffsets : Prop :=
  (∀ (d : Dev) (o : Int),
    (d.tb.st = tbAcquire → d.tb.lockN = 15 → o.natAbs ≤ d.lockNs → (d.acceptOffset o).tb.st = tbLocked ∧ (d.acceptOffset o).uncUs = 0) ∧
    (d.tb.st = tbLocked → d.tb.unlockN = 3 → d.unlockNs < o.natAbs → o.natAbs ≤ 1000000000 → (d.acceptOffset o).tb.st = tbAcquire) ∧
    (d.tb.st = tbHoldover ∨ d.tb.st = tbFreerun → o.natAbs ≤ 1000000000 → (d.acceptOffset o).tb.st = tbAcquire) ∧
    (d.servo o).tb.servo.natAbs * 1000000 ≤ d.slewPpm * (d.servo o).tb.left) ∧
  (∀ (b : Timebase) (ppm e : Nat), ppm ≤ 500 → b.servo.natAbs * 1000000 ≤ ppm * b.left →
    ((b.slew ppm e).off - b.off).natAbs * 1000000 ≤ ppm * e ∧ 0 ≤ (e : Int) + ((b.slew ppm e).off - b.off))

/-- PORT_LINK_UP, PORT_LINK_DOWN, HANDSHAKE_DONE, HANDSHAKE_TIMEOUT, SESSION_TIMEOUT, FATAL_ALERT, SESSION_BACKOFF_END, KEY_UPDATE,
ARP_REQUEST, ECHO_REQUEST, CXP_SEGMENT and REASM_TO (R330–R339). -/
def Obligations.SessionsRunTheirStates : Prop :=
  ∀ (t i : Nat) (s : State), let d := s.dev.advance t; let x := d.session i
    let failed : Session := { x with st := .backoff, since := d.clk, fails := x.fails + 1 }
    (i < 2 → x.st = .idle → d.domOn (44 + i) = true → d.portEn i = true → d.portAddr i 12 ≠ 0 →
      ∃ d', exec (.portLinkUp t i) s = .next { s with dev := d' } ∧ d'.session i = { x with st := .handshake, since := d.clk }) ∧
    (i < 2 → ∃ d', exec (.portLinkDown t i) s = .next { s with dev := d' } ∧ d'.session i = Session.off ∧ d'.session (2 + i) = Session.off) ∧
    (x.st = .handshake → d.mayOpen i = true →
      ∀ c : Cert, (d.certOk i c = true →
        ∃ d', exec (.handshakeDone t i c) s = .next { s with dev := d' } ∧ (d'.session i).st = .up ∧ (d'.session i).fails = 0) ∧
      (d.certOk i c = false →
        ∃ d', exec (.handshakeDone t i c) s = .next { s with dev := d' } ∧ d'.session i = failed ∧
          (i < 2 → d'.ctr fHeReject = min (d.ctr fHeReject + 1) (2 ^ 18 - 1)) ∧
          (2 ≤ i → d'.ctr fPeerReject = min (d.ctr fPeerReject + 1) (2 ^ 18 - 1)))) ∧
    (∀ why : Bool, x.st = .handshake → (why = false → d.passedMs x.since 10000 = true) →
      ∃ d', exec (.handshakeTimeout t i why) s = .next { s with dev := d' } ∧ d'.session i = failed ∧
        d'.ctr fDtlsFail = min (d.ctr fDtlsFail + 1) (2 ^ 18 - 1)) ∧
    (x.st = .up → d.passedMs x.heard (1000 * d.sessionToS) = true →
      exec (.sessionTimeout t i) s = .next { s with dev := d.setSession i failed }) ∧
    (x.st = .up → exec (.fatalAlert t i) s = .next { s with dev := d.setSession i failed }) ∧
    (x.st = .backoff → d.passedMs x.since (1000 * min 64 (2 ^ (x.fails - 1))) = true → d.mayOpen i = true →
      exec (.sessionBackoffEnd t i) s = .next { s with dev := d.setSession i { x with st := .handshake, since := d.clk } }) ∧
    (x.st = .up → 2 ^ 23 ≤ x.recs ∨ d.passedMs x.keyAt 86400000 = true →
      exec (.keyUpdate t i) s = .next { s with dev := d.setSession i { x with recs := 0, keyAt := d.clk } }) ∧
    (d.linkUp i = true →
      exec (.arpRequest t i (d.portAddr i 3)) s = .next { s with dev := d.emit (.arp i (d.portAddr i 3)) } ∧
      ∀ body, exec (.echoRequest t i body) s = .next { s with dev := d.emit (.echo i body) }) ∧
    (∀ g : Segment, g.port < 2 → g.peer < 2 → d.sessUp (2 * g.peer + g.port) = true →
      (g.frag = true ∨ d.pressed (cxpClass g.typ) = true →
        ∃ d', exec (.cxpSegment t g) s = .next { s with dev := d' } ∧ d'.ctr fRxDrop = min (d.ctr fRxDrop + 1) (2 ^ 18 - 1) ∧
          d'.up.rx = d.up.rx)) ∧
    (∀ g : Segment, g.port < 2 → g.peer < 2 → g.frag = false → d.sessUp (2 * g.peer + g.port) = true → d.pressed (cxpClass g.typ) = false →
      let r := d.rxPeer g.peer
      (g.framed = false →
        ∃ d', exec (.cxpSegment t g) s = .next { s with dev := d' } ∧ d'.ctr fBadSeg = min (d.ctr fBadSeg + 1) (2 ^ 18 - 1) ∧
          d'.rxPeer g.peer = r) ∧
      (g.wellFormed = true → r.gen = some g.gen → r.behind g.seq < 4096 → (∀ m ∈ r.msgs, m.seq ≠ g.seq) → g.count = 1 →
        ∃ d', exec (.cxpSegment t g) s = .next { s with dev := d' } ∧
          d'.out = d.out ++ [.cxpTaken g.peer g.typ g.seq g.ref (g.body.take g.msgWords)]) ∧
      (∀ m, g.wellFormed = true → r.gen = some g.gen → r.behind g.seq < 4096 → (r.msgs.find? fun y => y.seq == g.seq) = some m →
        m.typ = g.typ → m.words = g.msgWords → m.segW = g.segWords → m.whole = false → NMap.find m.segs g.segNo = none →
        m.segs.length + 1 = g.count →
        ∃ d', exec (.cxpSegment t g) s = .next { s with dev := d' } ∧
          d'.out = d.out ++ [.cxpTaken g.peer g.typ g.seq g.ref ({ m with segs := NMap.put m.segs g.segNo g.body } : RxMsg).body]) ∧
      (∀ m, g.wellFormed = true → r.gen = some g.gen → r.behind g.seq < 4096 → (r.msgs.find? fun y => y.seq == g.seq) = some m →
        m.typ = g.typ → m.words = g.msgWords → m.segW = g.segWords → m.whole = true →
        ∃ d', exec (.cxpSegment t g) s = .next { s with dev := d' } ∧ d'.out = d.out ∧
          d'.ctr fDupPath = min (d.ctr fDupPath + 1) (2 ^ 18 - 1)) ∧
      (g.wellFormed = true → r.gen ≠ some g.gen → r.was = some g.gen →
        ∃ d', exec (.cxpSegment t g) s = .next { s with dev := d' } ∧ d'.rxPeer g.peer = r ∧
          d'.ctr fStaleSeq = min (d.ctr fStaleSeq + 1) (2 ^ 18 - 1)) ∧
      (g.wellFormed = true → r.gen ≠ some g.gen → r.was ≠ some g.gen →
        ∃ d', exec (.cxpSegment t g) s = .next { s with dev := d' } ∧ (d'.rxPeer g.peer).gen = some g.gen ∧
          (d'.rxPeer g.peer).was = r.gen ∧ (d'.rxPeer g.peer).msgs.map RxMsg.seq = [g.seq])) ∧
    (∀ p, ∀ m ∈ (d.rxPeer p).msgs, m.whole = false → d.passedMs m.since 2000 = true →
      ∃ d', exec (.reasmTo t p m.seq) s = .next { s with dev := d' } ∧
        (d'.rxPeer p).msgs = (d.rxPeer p).msgs.filter (fun y => y.seq != m.seq) ∧
        d'.ctr fReasmTo = min (d.ctr fReasmTo + 1) (2 ^ 18 - 1))

/-- OBJ_READ, OBJ_WRITE, RECORD_WRITE, MEMBERSHIP_WRITE, METROLOGY_WRITE, BILL_REQ and EVENT_READ (R350–R355). That a metrology
write is in force at once while the chain stands is the model's choice (notes/assumptions/40.md). -/
def Obligations.ObjectsAreReadAndWritten : Prop :=
  ∀ (t : Nat) (s : State), let d := s.dev.advance t
    (∀ r : ObjRead,
      (d.pw.hu ≠ none →
        ∃ d', exec (.objRead t r) s = .next { s with dev := d' } ∧ d'.ctr fBusySent = min (d.ctr fBusySent + 1) (2 ^ 18 - 1)) ∧
      (d.pw.hu = none → d.up.shed = 0 →
        (∀ a, r.region = 0x02 → d.keptAnswer r.req = some a →
          exec (.objRead t r) s = .next { s with dev := d.send 0 a.1 r.ref a.2 }) ∧
        (r.region ≠ 0x02 → d.sessUp 0 = true → d.sessUp 1 = false → d.readRefusal r = none →
          let ws := (List.range r.count).map fun k => d.objWord s.stores r.region (r.offset + k)
          ∃ d', exec (.objRead t r) s = .next { s with dev := d' } ∧ d'.out = d.out ++
            [d.cxpOut 0 0 0x21 (d.nextSeq 0) r.ref (d.readBody r (if ws.any fun w => w.2 then orUnassigned else orOk) (ws.map fun w => w.1))]))) ∧
    (∀ w : ObjWrite, d.pw.hu = none → d.keptAnswer w.req = none → d.boot.recovery = 0 → d.writeRefusal w = none →
      let answer (res applied csn : Nat) := some (0x23, [W w.req, pk [(res, 35, 28), (applied, 27, 15)], hiW csn, loW csn])
      (w.region = 0x08 → s.stores.wf = true →
        ∃ d' m, exec (.objWrite t w) s = .next { s with stores := { s.stores with campStage := m }, dev := d' } ∧
          (∀ k, k < w.data.length → Memory.read m (w.offset + k) = w.data.getD k 0) ∧ d'.keptAnswer w.req = answer 0 w.data.length 0) ∧
      (∀ n v r, w.region = 0x03 → w.data = [v] → d.rec? n = some r → d.ledgerRuns = true →
        (w.offset = 32 * n + 1 →
          ∃ d', exec (.recordWrite t w) s = .next { s with dev := d' } ∧ d'.keptAnswer w.req = answer orDenied 0 0 ∧ d'.led = d.led) ∧
        (w.offset = 32 * n + 14 → memZv (d.memWord n) = false → (MeterRec.ofWords (r.words.set 14 v)).valuesOk = true →
          ∃ d', exec (.recordWrite t w) s = .next { s with dev := d' } ∧ d'.keptAnswer w.req = answer 0 1 d.led.csn ∧
            d'.led.csn = d.led.csn + 1 ∧
            (d'.rec? n).map (fun q => (q.rated, q.ivlMin, q.rollExp)) = some (fld v 35 16, fld v 15 4, fld v 3 0))) ∧
      (∀ v, w.region = 0x05 → w.data = [v] → d.ledgerRuns = true →
        (∀ res, d.memberRefusal w.offset v = some res →
          ∃ d', exec (.membershipWrite t w) s = .next { s with dev := d' } ∧ d'.keptAnswer w.req = answer res 0 0 ∧ d'.bal.mem = d.bal.mem ∧
            d'.ctr fMemberRefused = min (d.ctr fMemberRefused + 1) (2 ^ 18 - 1)) ∧
        (d.memberRefusal w.offset v = none → Memory.wf d.bal.mem = true →
          ∃ d', exec (.membershipWrite t w) s = .next { s with dev := d' } ∧ d'.keptAnswer w.req = answer 0 1 d.led.csn ∧
            d'.led.csn = d.led.csn + 1 ∧ fld (d'.memWord w.offset) 35 20 = fld v 35 20)) ∧
      (∀ n v, w.region = 0x09 → w.data = [v] → w.offset = 0x10 + n → n < 48 → gainOk n (fld v 34 31) = true → fld v 30 29 ≠ 3 →
        d.met.run = none → d.met.pend = [] →
        ∃ d', exec (.metrologyWrite t w) s = .next { s with dev := d' } ∧ d'.keptAnswer w.req = answer 0 1 0 ∧
          (d'.chan n).gain = fld v 34 31 ∧ (d'.chan n).source = fld v 30 29) ∧
      (w.region = 0x06 → w.offset = 0 → w.data.length = 1 → bitOf (w.data.getD 0 0) 35 = true →
        ∃ d', exec (.billReq t w) s = .next { s with dev := d' } ∧ d'.leg.st.bill = true ∧ d'.keptAnswer w.req = answer 0 1 0)) ∧
    (∀ ref req cursor count, d.pw.hu = none → d.up.shed = 0 → count ≤ 256 → d.sessUp 0 = true → d.sessUp 1 = false →
      let e := d.eventsFrom cursor count
      e.2.length ≤ count ∧ (d.evr.newest < cursor → e.2 = []) ∧
      ∃ d', exec (.eventRead t ref req cursor count) s = .next { s with dev := d' } ∧ d'.out = d.out ++
        [d.cxpOut 0 0 0x31 (d.nextSeq 0) ref ([W req, pk [(orOk, 35, 28), (e.2.length, 27, 19), (b2n e.1, 18, 18)],
          W ((e.2.head?.map EvRec.seq).getD 0), W d.oldestSeq, W d.evr.newest] ++ e.2.flatMap EvRec.words)])

/-- BLOCK_RESEND, BLOCK_REQ and LEDGER_ACK (R191, R342–R344). -/
def Obligations.BlocksAreDelivered : Prop :=
  ∀ (t bno : Nat) (s : State) (b : Block), let d := s.dev.advance t
    (∀ t0, NMap.find d.led.blocks bno = some b → b.bno = bno → b.sent = some t0 → d.delivers = true → d.led.acked < bno →
      d.passedMs t0 d.resendMs = true → d.sessUp 0 = true → d.sessUp 1 = false → b.sig ≠ none →
      ∃ d', exec (.blockResend t bno) s = .next { s with dev := d' } ∧
        d'.out = d.out ++ [d.cxpOut 0 0 0x01 (d.nextSeq 0) 0 (pk [(1, 34, 34)] :: b.words)] ∧
        NMap.find d'.led.blocks bno = some { b with sent := some d.clk, resends := b.resends + 1 } ∧
        d'.ctr fBlkResent = min (d.ctr fBlkResent + 1) (2 ^ 18 - 1)) ∧
    (∀ ref first last,
      (last < first ∨ 1024 ≤ last - first ∨ d.bnoSealed < first →
        ∃ d', exec (.blockReq t ref first last) s = .next { s with dev := d' } ∧ d'.out = d.out ∧
          d'.ctr fBadSeg = min (d.ctr fBadSeg + 1) (2 ^ 18 - 1)) ∧
      (first ≤ last → last - first < 1024 → first ≤ d.bnoSealed →
        (first ≤ bno → bno ≤ last → bno ≤ d.bnoSealed → (∀ k c, NMap.find d.led.blocks k = some c → c.bno = k) →
          NMap.find d.led.blocks bno = some b → b.sig ≠ none → d.headUp = true →
          ∃ d' c, exec (.blockReq t ref first last) s = .next { s with dev := d' } ∧ NMap.find d'.led.blocks bno = some c ∧
            c.sent = some d.clk ∧ c.resends = b.resends + 1) ∧
        ((∀ n, first ≤ n → n ≤ last → n ≤ d.bnoSealed → NMap.find d.led.blocks n = none) →
          let ws := [W first, W (min last d.bnoSealed), W ((d.led.blocks.head?.map (·.1)).getD 0)]
          exec (.blockReq t ref first last) s = .next { s with dev := (d.send 0 0x04 ref ws).count fBlkGone }))) ∧
    (∀ port ref csn, d.pair.st ≠ 2 →
      (d.led.sentB < bno →
        exec (.ledgerAck t port ref bno csn) s = .next { s with dev := d.count fAckIgnored }) ∧
      (bno ≤ d.led.sentB → NMap.find d.led.blocks bno = some b →
        (b.last ≠ csn → exec (.ledgerAck t port ref bno csn) s = .next { s with dev := d.count fAckBad }) ∧
        (b.last = csn → d.led.acked < bno → d.ledgerRuns = true →
          ∃ d', exec (.ledgerAck t port ref bno csn) s = .next { s with dev := d' } ∧ d'.led.acked = bno ∧ d'.led.csn = d.led.csn + 1)))

/-- MIRROR_READ, EPOCH_HOLD, MIRROR_FLIP, MIRROR_HOLD_RELEASE and MIRROR_HOLD (R362–R367, R376, R377). -/
def Obligations.MirrorFlipsAndHolds : Prop :=
  ∀ (t a : Nat) (s : State), let d := s.dev.advance t
    let next := if d.mir.epoch + 1 < 2 ^ 36 then d.mir.epoch + 1 else 1
    let shows (d' : Dev) : Prop := d'.mir.epoch = next ∧ Memory.read d'.mir.bank 0 = W next ∧ Memory.read d'.mir.bank 1 = hiW d.lastCsn ∧
      Memory.read d'.mir.bank 2 = loW d.lastCsn
    (d.mirrorOn = false → exec (.mirrorRead t a) s = .next { s with dev := d.emit (.md none) } ∧
      exec (.epochHold t) s = .next { s with dev := d.emit (.md none) }) ∧
    (d.mirrorOn = true →
      (∃ d', exec (.mirrorRead t a) s = .next { s with dev := d' } ∧ d'.out = d.out ++ [.md (some (Memory.read d.mir.bank (a % 2 ^ 20)))] ∧
        d'.mir.held.isSome = true ∧ d'.mir.bank = d.mir.bank ∧ d'.ctr fReads = min (d.ctr fReads + 1) (2 ^ 36 - 1)) ∧
      (∃ d', exec (.epochHold t) s = .next { s with dev := d' } ∧ d'.out = d.out ++ [.md none] ∧ d'.mir.held.isSome = true ∧
        d'.mir.bank = d.mir.bank ∧ d'.ctrs = d.ctrs) ∧
      (d.mir.held ≠ none → exec (.mirrorFlip t) s = .next { s with dev := d }) ∧
      (d.mir.held = none → d.tb.set = true → d.onEpoch d.now = true → d.flipsDue ≠ 0 →
        ∃ d', exec (.mirrorFlip t) s = .next { s with dev := d' } ∧ shows d' ∧
          ((∀ p ∈ d.q.bp, p.1 < 5) → d'.ctr fFlips = min (d.ctr fFlips + 1) (2 ^ 36 - 1))) ∧
      (∀ t0, d.mir.held = some t0 →
        (d.flipsDue = 0 →
          ∃ d', exec (.mirrorHoldRelease t) s = .next { s with dev := d' } ∧ d'.mir.held = none ∧ d'.mir.bank = d.mir.bank ∧
            d'.ctr fHoldMax = min (max ((d.clk - t0) * 1000000 / 2 ^ 36) (d.ctr fHoldMax)) (2 ^ 36 - 1)) ∧
        (d.flipsDue ≠ 0 → d.tb.set = true →
          ∃ d', exec (.mirrorHoldRelease t) s = .next { s with dev := d' } ∧ d'.mir.held = none ∧ shows d' ∧
            ((∀ p ∈ d.q.bp, p.1 < 5) → d'.ctr fDeferred = min (d.ctr fDeferred + 1) (2 ^ 18 - 1) ∧
              d'.ctr fMissed = min (d.ctr fMissed + (d.flipsDue - 1)) (2 ^ 18 - 1))) ∧
        (d.mir.told = false → d.holdAlarmMs ≠ 0 → d.withinUs t0 (d.holdAlarmMs * 1000) = false →
          let x := (d.setMir { d.mir with told := true }).count fHoldAlarms
          exec (.mirrorHold t) s = .next { s with dev := x.raise 0x080 [(d.clk - t0) * 1000 / 2 ^ 36] }) ∧
        (d.mir.told = true → exec (.mirrorHold t) s = .next { s with dev := d })))

/-- STORE_WRITE, STRIPE_TIMEOUT, CHECKPOINT, CHECKPOINT_VALID, DIE_LOST, STORE_COPY_DONE, PAGE_PROGRAM_DONE, SCRUB, DAY_INDEX,
ARCHIVE_EXPIRY, DISCARD_DONE and DISCARD_TIMEOUT (R380–R400). When a page is scrubbed, and what the key table's layout is, is the model's
choice (notes/assumptions/10.md). -/
def Obligations.StoreTakesAndKeeps : Prop :=
  (∀ (t n : Nat) (s : State), let D := s.dev.advance t; let o := D.sto; let x := D.die n
    let ans (i : Instr) (y : Dev) : Prop := exec i s = .next { s with dev := { y with clk := D.clk } }
    (∀ i e, D.takeItem 6 = some (.store i, e) →
      (D.storeRoom i.ws.length = true → ans (.storeWrite t) (e.storeTake i)) ∧
      (D.storeRoom i.ws.length = false → ans (.storeWrite t) (D.discard 6 true))) ∧
    ans (.stripeTimeout t) (o.opens.foldl (fun (y : Dev) p => if D.passedMs p.2.at' 1000 then y.closeStripe p.1 else y) D) ∧
    (D.ledgerRuns = true → D.nowS / 900 ≠ o.ckAt → o.st = 1 ∨ o.st = 2 →
      ∃ d' c, exec (.checkpoint t) s = .next { s with dev := d' } ∧ d'.sto.cur = some c ∧ d'.sto.ckNo = o.ckNo + 1 ∧
        c.peer = false ∧ c.img.no = o.ckNo + 1 ∧ c.img.csnAt = D.led.csn - 1 ∧ c.img.recs = D.led.recs ∧ c.img.leg = D.leg.st) ∧
    (∀ c, o.cur = some c →
      (D.ckptStaged c = true → c.peer = false → D.boot.trial = none → 0 < D.ckptKeep →
        ∃ d', exec (.checkpointValid t) s = .next { s with dev := d' } ∧ d'.sto.cur = none ∧ d'.ckptOwn = some c) ∧
      (D.ckptStaged c = false → ans (.checkpointValid t) D)) ∧
    ans (.dieLost t n) (D.loseDie n) ∧
    (x.st = 1 → ∀ temp, let y := D.setDie n { x with temp := temp }
      ans (.pageProgramDone t n temp true) (if y.nextDie == some n then y.pageWritten else y) ∧
      (D.pw.hu = none → ans (.pageProgramDone t n temp false) (y.retire n))) ∧
    (o.st = 2 → ∃ d', exec (.storeCopyDone t) s = .next { s with dev := d' } ∧ d'.sto.w = o.w - 1 ∧
      d'.sto.st = (if o.w < 4 then 3 else 1) ∧
      ∃ y : Dev, y.sto.w = o.w - 1 ∧ d' = (if o.w < 4 then y.raise 0x092 [y.diesLost] else y.raise 0x091 [o.w - 1])) ∧
    (∀ band stripe die dead p, let b := D.nandBand band; let key := stripe * 64 + die; NMap.find b.pages key = some p →
      let moved (y : Dev) : Dev := ((y.clearPage band key).rewrite (p.pieces.filter D.pieceLive)).count fRelocated
      let tried := (((D.setOrder die p).foldl (fun (y : Dev) k => y.emit (.nandFeature die (fld (D.stW 1) 20 13) (D.offsetSet k))) D).countN fCorrected 0).count fRetries
      (∀ bits, let y := D.countN fCorrected (bits.filter fun n => n != 0).length
        ((∀ n ∈ bits, n ≤ D.scrubBits) → ans (.scrub t band stripe die (some bits) [] dead) y) ∧
        ((∃ n ∈ bits, D.scrubBits < n) → ans (.scrub t band stripe die (some bits) [] dead) (moved y))) ∧
      ((∀ n ∈ b.dies, n ≠ die → NMap.find b.pages (stripe * 64 + n) ≠ none ∧ (D.die n).st = 1 ∧ n ∉ dead) → stripe < b.next →
        ans (.scrub t band stripe die none [] dead) (moved (tried.count fRebuilt))) ∧
      (b.next ≤ stripe → ans (.scrub t band stripe die none [] dead)
        (p.pieces.foldl (fun y q => y.losePiece q) (((tried.count fUnrecoverable).raise 0x093 [p.area]).clearPage band key)))) ∧
    (let y := D.setSto { o with days := NMap.put o.days (n / 86400 * 86400) true };
      ((∀ k, D.oldestDay = some k → D.nowS < k + 86400 + D.intDays * 86400) → ans (.dayIndex t n) y) ∧
      (∀ k, D.oldestDay = some k → k + 86400 + D.intDays * 86400 ≤ D.nowS →
        ∃ d', exec (.dayIndex t n) s = .next { s with dev := d' } ∧
          ∀ slot m e, NMap.find d'.sto.idx slot = some m → NMap.find m e ≠ none → e / 86400 * 86400 ≠ k)) ∧
    (∃ d', exec (.archiveExpiry t) s = .next { s with dev := d' } ∧
      (∀ k b, (o.arch.map fun p => p.1).Pairwise (· < ·) → NMap.find D.led.blocks k = some b → k ≤ D.led.acked →
        b.sealT + D.archDays * 86400 * 2 ^ 36 ≤ D.now → NMap.find d'.sto.arch k = none) ∧
      (∀ k, D.led.acked < k → NMap.find d'.sto.arch k = NMap.find o.arch k)) ∧
    (∀ z, z ∈ o.disc → z.slot = some n →
      (∃ d', exec (.discardDone t (some n)) s = .next { s with dev := d' } ∧ d'.sto.disc = o.disc.filter (fun y => y.slot != some n) ∧
        d'.ctr fDiscardSecure = min (D.ctr fDiscardSecure + 1) (2 ^ 18 - 1)) ∧
      (∀ erase, erase = true ∨ D.passedMs z.since 86400000 = true →
        let y := (D.setSto { o with disc := o.disc.filter fun y => y.slot != some n }).count fDiscardHint
        ans (.discardTimeout t (some n) erase) (y.raise 0x096 [if erase then 0 else 2])))) ∧
  (∀ (d : Dev) (i : StoreItem), d.sto.st ≠ 3 → i.more = false →
    (i.area ≠ 1 → i.area ≠ 2 → d.storeTake i = d.setSto { d.sto with staged := d.sto.staged ++ [⟨i.area, i.key, i.ws⟩] }) ∧
    (∀ b, i.area = 1 → NMap.find d.led.blocks i.key = some b → NMap.find (d.storeTake i).sto.arch i.key = some b.words.length)) ∧
  (∀ (d : Dev) (area : Nat) (o : OpenBand), NMap.find d.sto.opens area = some o → let b := d.nandBand o.band
    (let die := b.dies.getD (b.parity o.band) 0; let os := xorPages d.pageOctets (b.stripeOctets b.next);
      o.pos ≠ 0 → (d.die die).st = 1 → (d.closeStripe area).out = d.out ++ [.nandPage die o.band b.next os] ∧
        (d.closeStripe area).sto.pseq = d.sto.pseq + 1) ∧
    (∀ ps : List Piece, let die := b.dies.getD (o.place b) 0; let ws := ps.flatMap Piece.ws; let n := d.sto.pseq + 1
      let secs := if d.tb.set then d.nowS else 0
      let tr := pageTrailer area (2 * b2n d.pw.hu.isSome) n secs (d.die die).temp b.next o.band ws.length
      ∃ d' more, d.programPage area ps = some d' ∧
        d'.out = d.out ++ [.nandPage die o.band b.next (pageImage d.pageOctets (d.bandKey o.band b) n ws tr)] ++ more)) ∧
  (∀ (d : Dev) (n : Nat), (d.die n).st = 1 →
    (d.sto.st = 1 → ∃ y : Dev, d.loseDie n = y.raise 0x090 [n] ∧ y.sto.st = 2 ∧ (y.die n).st = 3) ∧
    (d.sto.st = 2 → ∃ y : Dev, d.loseDie n = y.raise 0x092 [y.diesLost] ∧ y.sto.st = 3 ∧ (y.die n).st = 3) ∧
    (∀ k, (d.die n).spare = k + 2 →
      ((d.retire n).die n).spare = k + 1 ∧ ((d.retire n).die n).bad = (d.die n).bad + 1 ∧ ((d.retire n).die n).st = 1))

/-- EVENT_INTAKE and EVENT_FORMAT (R403–R410). -/
def Obligations.EventsAreRecorded : Prop :=
  (∀ (t : Nat) (s : State), let D := s.dev.advance t
    let ans (i : Instr) (y : Dev) : Prop := exec i s = .next { s with dev := { y with clk := D.clk } }
    (D.items 7 = [] → ans (.eventIntake t) D) ∧
    (∀ k e f, (D.items 7).length = k + 1 → (D.fillGroup 7).takeItem 7 = some (.event e, f) →
      ans (.eventIntake t) ((f.intake e).drainFrom k)) ∧
    (∀ r q, D.evr.raw = r :: q →
      (4 ≤ D.up.shed → D.evr.forced = false → ans (.eventFormat t) D) ∧
      (D.up.shed < 4 ∨ D.evr.forced = true → D.domOn 3 = true → D.pw.heldOk = true → 0 < D.recN →
        ∃ d' f, exec (.eventFormat t) s = .next { s with dev := d' } ∧ d'.evr.raw = q ∧ d'.evr.newest = r.seq ∧
          NMap.find d'.evr.fmt r.seq = some f ∧ f.text.length ≤ 64 ∧ { f with text := r.text } = r ∧
          d'.ctr fRecords = min (D.ctr fRecords + 1) (2 ^ 36 - 1)))) ∧
  (∀ (d : Dev) (e : Event), e.code ≠ 0x020 → let d' := d.intake e
    d'.evr.seq = d.evr.seq + 1 ∧ ∃ r, d'.evr.raw = d.evr.raw ++ [r] ∧ r.seq = d.evr.seq + 1 ∧ r.code = e.code ∧
      r.cls = evClass e.code ∧ r.time = d.now ∧ r.holdup = d.pw.hu.isSome ∧ r.prov = d.tb.prov ∧
      (evCommitted e.code = true → d.ledgerRuns = true → r.commd = true ∧ r.csn = d.led.csn ∧ d'.led.csn = d.led.csn + 1) ∧
      (evCommitted e.code = false ∨ d.ledgerRuns = false → r.commd = false ∧ r.csn = 0 ∧ d'.led = d.led))

/-- DOMAIN_READY, WAKE_FAIL, DOMAIN_IDLE, CLOSE_DONE, SWITCH_DONE, COMPARATOR_CROSSING, BAND_FILTERED, SUPPLIES_GOOD, SUPPLY_TIMEOUT,
SUPPLY_FAULT, THERMAL_TRIP, VBAK_LOW and VBAK_LOSS (R419–R424, R432, R433, R532–R535). -/
def Obligations.PowerDomainsAndSupplies : Prop :=
  (∀ (t n : Nat) (s : State), let d := s.dev.advance t; let x := d.dom n
    let ans (i : Instr) (y : Dev) : Prop := exec i s = .next { s with dev := { y with clk := d.clk } }
    (2 ≤ n → d.variant.lacks n = false → x.st = 1 →
      (∃ d', exec (.domainReady t n) s = .next { s with dev := d' } ∧ (d'.dom n).st = 2 ∧ d'.ctr fWakes = min (d.ctr fWakes + 1) (2 ^ 36 - 1)) ∧
      (d.passedUs x.since (4 * domLatencyUs n) = true →
        (x.fails < 2 → (domDeps n).all d.domOn = true →
          ∃ d', exec (.wakeFail t n) s = .next { s with dev := d' } ∧ d'.dom n = { x with since := d.clk, fails := x.fails + 1, want := false } ∧
            d'.ctr fWakeFail = min (d.ctr fWakeFail + 1) (2 ^ 18 - 1)) ∧
        (2 ≤ x.fails → d.boot.recovery = 0 →
          let y := (d.count fWakeFail).setDom n { x with st := 5, since := d.clk, fails := 3 }
          ans (.wakeFail t n) (if domPolicy n = .runs then y.recover 4 else y)))) ∧
    (d.mayIdle n = true →
      exec (.domainIdle t n) s = .next { s with dev := d.setDom n { x with st := 3, since := d.clk, why := 0, want := false } }) ∧
    (x.st = 3 → d.domHolds n = false →
      ∃ d', exec (.closeDone t n) s = .next { s with dev := d' } ∧ d'.dom n = { x with st := 4, since := d.clk }) ∧
    (x.st = 4 → d.passedUs x.since 2 = true →
      (x.want = false → exec (.switchDone t n) s = .next { s with dev := d.setDom n { x with st := 0, since := d.clk } }) ∧
      (x.want = true → x.why = 0 → 2 ≤ n → d.variant.lacks n = false → (domDeps n).all d.domOn = true →
        ∃ d', exec (.switchDone t n) s = .next { s with dev := d' } ∧ (d'.dom n).st = 1)) ∧
    (∀ up, n < 8 →
      (∃ d', exec (.comparatorCrossing t n up) s = .next { s with dev := d' } ∧ (d'.aoc n).res = true ∧ (d'.aoc n).high = up ∧
        (n = 0 → up = true → d.boot.phase = 0 → d'.boot.phase = 1 ∧ d'.out = d.out ++ [.pwrEn true]) ∧
        (n = 0 → up = false → (d.aoc 0).high = true → d'.pw.low = some (d.clk, d.now))) ∧
      ((d.aoc n).res = false → d.passedMs (d.aoc n).since 64 = true →
        ∀ above, ∃ d', exec (.bandFiltered t n above) s = .next { s with dev := d' } ∧ (d'.aoc n).res = true ∧
          (d'.aoc n).high = decide (2097 < 2 * above) ∧ d'.ctr fBandFiltered = min (d.ctr fBandFiltered + 1) (2 ^ 18 - 1))) ∧
    (∀ up, ans (.comparatorCrossing t 8 up) { d with pw := { d.pw with crit := !up } }) ∧
    (d.boot.phase = 1 →
      (∃ d', exec (.suppliesGood t) s = .next { s with dev := d' } ∧ d'.boot.phase = 2 ∧ d'.evr.opFrom = some d.clk ∧
        ((d.dom 2).st = 0 → (d'.dom 2).st = 1)) ∧
      (d.passedMs d.boot.since 100 = true →
        ∃ d', exec (.supplyTimeout t) s = .next { s with dev := d' } ∧ d'.boot.phase = 5 ∧ d'.out = d.out ++ [.pwrEn false])) ∧
    (d.boot.phase = 5 → d.passedMs d.boot.since 1000 = true →
      ∃ d', exec (.supplyTimeout t) s = .next { s with dev := d' } ∧ d'.boot.phase = (if d.aocHigh 0 = true then 1 else 0)) ∧
    (d.powered = true → exec (.thermalTrip t) s = exec (.supplyFault t) s ∧
      ∃ d', exec (.supplyFault t) s = .next { s with dev := d' } ∧ d'.out = d.out ++ [.pwrEn false] ∧ d'.pw.doms = [] ∧ d'.pw.hu = none ∧
        d'.boot.phase = (if d.aocHigh 0 = true then 5 else 0) ∧ (d.pw.hu = none → d'.pw.stage = 0 ∧ d'.pw.clean = false)) ∧
    (∀ low, ∃ d', exec (.vbakLow t low) s = .next { s with dev := d' } ∧ d'.pw.vbak = low ∧ (low = true → d.boot.phase = 0 → d'.pw.vbakLow = true)) ∧
    (d.boot.phase ≠ 0 → exec (.vbakLoss t) s = .next { s with dev := d }) ∧
    (d.boot.phase = 0 → ∃ d', exec (.vbakLoss t) s = .next { s with dev := d' } ∧ d'.pw.pd1 = false ∧ d'.tb.rtc = none ∧ d'.leg.copies = [] ∧
      d'.evr.opT = 0 ∧ d'.idn.armed = none ∧ ∀ k, k < 8 → (d'.aoc k).res = false)) ∧
  (∀ (d : Dev) (n c : Nat), (d.recover c).boot.recovery = c ∧ (∃ y : Dev, d.recover c = y.raise 0x005 [c]) ∧
    ((d.dom n).st = 5 → ((d.recover c).dom n).st = 5))

/-- MAINS_LOSS, LAST_GASP_REPEAT, HOLDUP_METRO_END, HOLDUP_SEAL, HOLDUP_STORE_DONE, HOLDUP_END, HOLD_CRIT (R358, R425–R433) and TAMPER
(R487–R489). -/
def Obligations.HoldupRunsItsSteps : Prop :=
  (∀ (t : Nat) (s : State), let d := s.dev.advance t
    let ans (i : Instr) (y : Dev) : Prop := exec i s = .next { s with dev := { y with clk := d.clk } }
    (∀ c tL, d.pw.low = some (c, tL) → d.passedUs c d.mainsFiltUs = true → d.pw.hu = none → d.boot.phase ≠ 0 →
      (d.powered = false → ∃ d', exec (.mainsLoss t) s = .next { s with dev := d' } ∧ d'.out = d.out ++ (if d.boot.phase = 1 then [.pwrEn false] else []) ∧ d'.boot.phase = 0) ∧
      (d.powered = true → d.aocHigh 1 = false → d.led.accepts = false → ans (.mainsLoss t) d.faultStop) ∧
      (d.powered = true → d.aocHigh 1 = true ∨ d.led.accepts = true →
        let x := (({ d with
          pw := { d.pw with
            hu := some ⟨tL, c, 2, false, false, false⟩, lastTl := tL, low := none, stage := 2, clean := false, cut := false, huMs := 0 } } :
          Dev).count fMainsLosses)
        ∃ d' h, exec (.mainsLoss t) s = .next { s with dev := d' } ∧ d'.pw.hu = some h ∧ h.tL = tL ∧ h.stage = 4 ∧ d'.pw.lastTl = tL ∧
          d'.ctr fMainsLosses = min (d.ctr fMainsLosses + 1) (2 ^ 18 - 1) ∧ d'.air.jobs = [] ∧ d'.items 3 = [] ∧ d'.pl.jobs = [] ∧
          d'.tb.step = none ∧ d'.sto.cur = none ∧ d'.led = (x.raiseNow 0x003 [tL / 2 ^ 36, tL % 2 ^ 36]).2.led)) ∧
    (∀ h, d.pw.hu = some h →
      (∀ req n, d.up.gasp = some (req, n) → n < 2 → d.domOn 3 = true → d.passedMs h.clkL (100 * (n + 1)) = true →
        d.sessUp 0 = true → d.sessUp 1 = false → d.sessUp 2 = false → d.sessUp 3 = false →
        ∃ d', exec (.lastGaspRepeat t) s = .next { s with dev := d' } ∧ d'.up.gasp = some (req, n + 1) ∧ d'.out = d.out ++
          [d.cxpOut 0 0 0x4F (d.nextSeq 0) 0 ([pk [(0, 35, 32), (n + 1, 31, 30)]] ++ dw h.tL ++ dw d.lastCsn ++
            [W d.bnoSealed, W d.pair.epoch, pk [(d.uncField, 35, 18)]])]) ∧
      (h.metro = false → d.huE h * 2 ^ 36 ≤ d.now * 100 →
        ∃ d' h', exec (.holdupMetroEnd t) s = .next { s with dev := d' } ∧ d'.pw.hu = some h' ∧ h'.metro = true ∧ h'.stage = max h.stage 8 ∧
          d'.met.run = none) ∧
      (h.metro = true → h.stage < 9 → d.huE h * 1000 * 2 ^ 36 + 1200 * 2 ^ 36 ≤ d.now * 100000 →
        ∃ d' h', exec (.holdupSeal t) s = .next { s with dev := d' } ∧ d'.pw.hu = some h' ∧ h'.stage = 9 ∧ d'.led.isSealed = true ∧
          d'.led.openB = none ∧ d'.led.inVal = [] ∧ d'.evr.raw = []) ∧
      (9 ≤ h.stage → h.stage < 12 → d.led.signQ = [] →
        let n := d.lastCsn
        let y := ((d.raise 0x004 [n / 2 ^ 36, n % 2 ^ 36, d.bnoSealed]).drainEvents).formatAll
        ∃ d' h', exec (.holdupStoreDone t) s = .next { s with dev := d' } ∧ d'.pw.hu = some h' ∧ h'.stage = 12 ∧ h'.store = true ∧
          d'.domOn 49 = false ∧ d'.sto = y.flushStore.writeTail.sto ∧ d'.boot.br.started = false ∧ (d.sto.st = 1 ∨ d.sto.st = 2 → d'.pw.clean = true)) ∧
      (12 ≤ h.stage →
        ∃ d', exec (.holdupEnd t) s = .next { s with dev := d' } ∧ d'.pw.hu = none ∧ d'.pw.doms = [] ∧ d'.pw.stage = max d.pw.stage 13 ∧
          d'.boot.phase = (if d.aocHigh 0 = true then 1 else 0) ∧
          d'.out = d.out ++ [.pwrEn false] ++ (if d.aocHigh 0 = true then [.pwrEn true] else [])) ∧
      (h.crit = false → h.stage < 9 →
        ∃ d' h', exec (.holdCrit t) s = .next { s with dev := d' } ∧ d'.pw.hu = some h' ∧ h'.crit = true ∧ h'.metro = true ∧ h'.stage = 9 ∧
          d'.led.isSealed = true ∧ d'.pw.cut = true ∧ d'.ctr fHoldCrit = min (d.ctr fHoldCrit + 1) (2 ^ 18 - 1))) ∧
    (∀ k a, k < 6 → d.tamperOn k = true →
      ((NMap.look d.idn.acted (k + 2) (false, none)).1 = true → exec (.tamper t (k + 2)) s = .next { s with dev := d }) ∧
      ((NMap.look d.idn.acted (k + 2) (false, none)).1 = false → d.boot.phase = 3 → d.boot.restart = none → d.idn.armed = some a →
        d.pw.hu = none → d.led.isSealed = false →
        (tamperAction a k = 1 →
          let y := { d with idn := { d.idn with acted := NMap.put d.idn.acted (k + 2) (true, none) } }
          ans (.tamper t (k + 2)) ((y.count fTamperEvents).raise 0x0B0 [k]).abandonInstall) ∧
        (tamperAction a k = 2 → d.primary = true →
          ∃ d', exec (.tamper t (k + 2)) s = .next { s with dev := d' } ∧ d'.boot.phase = 2 ∧ d'.led.accepts = false ∧
            d.pair.epoch < d'.pair.known) ∧
        (tamperAction a k = 3 → d.isEnrolled = true →
          ∃ s', exec (.tamper t (k + 2)) s = .next s' ∧ s'.stores.norA = [] ∧ s'.stores.norB = [] ∧ s'.dev.led.enrolled = false ∧
            s'.dev.boot.phase = 2 ∧ s'.dev.sto.ckpts = [])))) ∧
  (∀ (d : Dev) (e : Event), e.code ≠ 0x020 → evClass e.code = 0 → evCommitted e.code = true → d.ledgerRuns = true →
    let d' := d.intake e
    d'.led.csn = d.led.csn + 1 ∧ d'.led.openB = none ∧
      ∃ b, NMap.find d'.led.blocks d.led.bno = some b ∧ b.last = d.led.csn ∧ b.sealBy = 2) ∧
  (∀ d : Dev, d.sto.st = 1 ∨ d.sto.st = 2 → d.boot.recovery = 0 → d.writeTail.sto.tail ≠ none)

/-- CONFIG_CHECK, CONFIG_INSTALL, CONFIG_CLEAR and CONFIG_WRITE_DONE (R440–R442); FW_APPLY, FW_CLEAR, FW_ABORT, FW_BUILD_DONE and
FW_VERIFY_DONE (R446–R450, R454). -/
def Obligations.ConfigurationAndFirmware : Prop :=
  (∀ (t : Nat) (s : State), let D := s.dev.advance t
    let ans (i : Instr) (st : Stores) (y : Dev) : Prop := exec i s = .next { s with stores := st, dev := { y with clk := D.clk } }
    (∀ w x, D.pw.hu = none → D.keptAnswer w.req = none → D.writeRefusal w = none → w.offset = 0 → w.data = [x] →
      let busy (i : Instr) : Prop := ans i s.stores ((D.writeResp w orBusy 0 0).count fBusySent)
      let ok (i : Instr) (st : Stores) (y : Dev) : Prop := ans i st (y.writeResp w orOk 1 0)
      (w.region = 0x0A → let m := s.stores.cfgStage; let rejected (f : Nat × Nat × Nat) : Dev := D.cfgStage 4 f
        (D.cfgBusy = true ∨ D.cardReads 2 = true →
          (fld x 35 32 = 1 → busy (.configCheck t w)) ∧ (fld x 35 32 = 2 → busy (.configInstall t w)) ∧ (fld x 35 32 = 3 → busy (.configClear t w))) ∧
        (D.cfgBusy = false → D.cardReads 2 = false →
          (fld x 35 32 = 1 → match D.cfgFinding m with
            | some f => ok (.configCheck t w) s.stores (rejected f)
            | none => ok (.configCheck t w) s.stores (D.cfgStage 3 (0, 0, 0))) ∧
          (fld x 35 32 = 2 → match D.cfgFinding m with
            | some f => ok (.configInstall t w) s.stores (rejected f)
            | none => if cpSeq m ≤ D.seqInForce then ok (.configInstall t w) s.stores (rejected (7, 0, 0))
              else ok (.configInstall t w) (s.stores.setNor D.installsB []) ((D.setSeq D.installsB 0).cfgStage 2 (0, 0, 0))) ∧
          (fld x 35 32 = 3 → ok (.configClear t w) { s.stores with cfgStage := [] } D))) ∧
      (w.region = 0x0B → let m := s.stores.fwStage; let b := D.buildsB m
        (D.fwBusy = true ∨ D.cardReads 1 = true →
          (fld x 35 32 = 1 → busy (.fwApply t w)) ∧ (fld x 35 32 = 2 → busy (.fwClear t w))) ∧
        (D.fwBusy = false → D.cardReads 1 = false →
          (fld x 35 32 = 1 → match D.pgFinding m (D.running s.stores) with
            | some why => ok (.fwApply t w) s.stores (D.fwStage 5 why 0)
            | none => if pgLegal m = true then ok (.fwApply t w) (s.stores.setLegal b []) ((D.setLegalOk b false).fwStage 2 0 0)
              else ok (.fwApply t w) (s.stores.setSlot b [])
                ((D.bootTo fun r => (r.setSlot b slotWriting).setVer b (pgW m 2).toNat 0).fwStage 2 0 0)) ∧
          (fld x 35 32 = 2 → ok (.fwClear t w) { s.stores with fwStage := [] } D)) ∧
        (fld x 35 32 = 3 → ok (.fwAbort t w) s.stores (if D.boot.fStage = 2 then D.fwFail m 11 D.boot.fBlocks else D)))) ∧
    (D.boot.cStage ≠ 2 → ∀ good, ans (.configWriteDone t good) s.stores D) ∧
    (D.boot.cStage = 2 →
      ans (.configWriteDone t false) s.stores (D.cfgStage 4 (11, 0, 0)) ∧
      ∃ m, (∀ k, k < cfgLength → Memory.read m k = Memory.read s.stores.cfgStage k) ∧
        let y := (D.setSeq D.installsB (cpSeq m)).cfgStage 3 (0, 0, 0)
        ans (.configWriteDone t true) (s.stores.setNor D.installsB m) (if y.loc.card.st = csImport then y else y.cardRestart)) ∧
    (let m := s.stores.fwStage; let b := D.buildsB m; let bs := (pgOutput m (D.running s.stores)).getD [];
      (D.boot.fStage ≠ 2 → ∀ bad nor, ans (.fwBuildDone t bad nor) s.stores D) ∧
      (D.boot.fStage = 2 → ∀ bad,
        (match firstBad bs bad with
          | some k => ans (.fwBuildDone t bad none) s.stores (D.fwFail m 5 k)
          | none => if pgLegal m = true then ans (.fwBuildDone t bad none) (s.stores.setLegal b (imageOf bs)) (D.fwStage 3 0 bs.length)
            else ans (.fwBuildDone t bad none) (s.stores.setSlot b (imageOf bs))
              ((D.bootTo fun r => (r.setSlot b slotWritten).setVer b (imageOf bs).ver (imageOf bs).stateVer).fwStage 3 0 bs.length)) ∧
        ∀ n, match firstBad bs bad with
          | some k => ans (.fwBuildDone t bad (some n)) s.stores (if n ≤ k then D.fwFail m 6 n else D.fwFail m 5 k)
          | none => ans (.fwBuildDone t bad (some n)) s.stores (D.fwFail m 6 n)) ∧
      (D.boot.fStage ≠ 3 → ans (.fwVerifyDone t) s.stores D) ∧
      (D.boot.fStage = 3 →
        if pgLegal m = true then let good := D.legalOk (s.stores.legal b)
          ans (.fwVerifyDone t) s.stores ((D.setLegalOk b good).fwStage (if good then 4 else 5) (if good then 0 else 7) D.boot.fBlocks)
        else ans (.fwVerifyDone t) s.stores (D.fwVerified b (s.stores.slot b) (pgW m 2).toNat)))) ∧
  (∀ (d : Dev) (m : Memory) (why n : Nat), let d' := d.fwFail m why n
    d'.boot.fStage = 5 ∧ d'.boot.fWhy = why ∧ d'.boot.fBlocks = n ∧
    (pgLegal m = false → d'.boot.br = { d.boot.br.failSlot (d.buildsB m) why with bseq := d.boot.br.bseq + 1 })) ∧
  (∀ (d : Dev) (b : Bool) (m : Image) (n : Nat), let d' := d.fwVerified b m n
    match d.fwFinding m with
    | some why => d'.boot.fStage = 5 ∧ d'.boot.fWhy = why ∧ d'.boot.br.slot b = slotFailed ∧ d'.boot.br.fail = why
    | none => if m.ver = n then d'.boot.fStage = 4 ∧ d'.boot.br.slot b = slotVerified
      else d'.boot.fStage = 5 ∧ d'.boot.fWhy = 7 ∧ d'.boot.br.slot b = slotFailed)

/-- COLD_START, WARM_RESTART, WARM_RESTART_FIRMWARE, WARM_RESTART_LEGAL, WARM_RESTART_RESUME, TRIAL_CONFIRM and TRIAL_TIMEOUT (R433,
R443–R452). -/
def Obligations.StartsAndRestarts : Prop :=
  (∀ (t : Nat) (s : State), let D := s.dev.advance t
    let ans (i : Instr) (y : Dev) : Prop := exec i s = .next { s with dev := { y with clk := D.clk } }
    (∀ f, (D.boot.phase ≠ 2 → ans (.coldStart t f) D) ∧
      (D.boot.phase = 2 → D.aocHigh 0 = true → [2, 3, 47, 48, 49].all D.domOn = true →
        ∃ s', exec (.coldStart t f) s = .next s' ∧ s'.pending = s.pending ∧ s'.dev.boot.phase = 3 ∧ s'.stores.cfgStage = [] ∧
          s'.stores.fwStage = [] ∧ s'.stores.campStage = [] ∧ s'.dev.up.gen = D.up.gen + 1 ∧
          (D.idn.armed = none → s.stores.norA = [] → s.stores.norB = [] → s'.dev.led.accepts = false ∧
            match D.selectBoot.settleSlots.chooseSlot s.stores with
            | none => s'.dev.boot.recovery = 5
            | some _ => s'.dev.boot.recovery = 1))) ∧
    (∀ c, D.pw.hu = none → D.keptAnswer c.req = none → c.badOp = false →
      ∀ p ∈ [(Instr.warmRestart t c, 0), (.warmRestartFirmware t c, 1), (.warmRestartLegal t c, 2)],
        (3 ≤ c.arg → ans p.1 (D.controlResp c rcBadArg 0)) ∧
        (c.arg = p.2 →
          (∀ r, D.restartRefusal p.2 = some r → ans p.1 (D.controlResp c r 0)) ∧
          (D.restartRefusal p.2 = none →
            ans p.1 (((D.controlResp c rcOk 0).applyAction p.2).beginRestart p.2 (D.restartCold s.stores p.2 c.flag))))) ∧
    (∀ a cold c0, D.boot.restart = some (a, cold, c0) →
      (D.boot.phase ≠ 4 → ans (.warmRestartResume t) D) ∧
      (∀ n, 3 ≤ n → n < 56 → (D.dom n).st ≠ 0 → (D.dom n).st ≠ 5 → ans (.warmRestartResume t) D) ∧
      (D.boot.phase = 4 → (∀ n, 3 ≤ n → n < 56 → (D.dom n).st = 0 ∨ (D.dom n).st = 5) →
        (cold = true → ans (.warmRestartResume t) (D.coldRestart true)) ∧
        (cold = false →
          ∃ s', exec (.warmRestartResume t) s = .next s' ∧ s'.dev.boot.restart = none ∧ s'.stores.cfgStage = [] ∧ s'.stores.fwStage = [] ∧
            (s'.dev.boot.phase = 2 ∨ s'.dev.boot.phase = 3) ∧
            (s'.dev.boot.phase = 3 → D.boot.recovery = 0 → s'.dev.boot.recovery = 0 →
              s'.dev.up.gen = D.up.gen + 1 ∧ s'.dev.boot.cfgOn = true ∧ (D.primary = true → s'.dev.led.accepts = true))))) ∧
    (∀ revoke,
      ((D.trialGood = false ∨ D.boot.phase ≠ 3) → ans (.trialConfirm t revoke) D) ∧
      (D.trialGood = true → D.boot.phase = 3 → let b := D.boot.br.actB
        ∃ d', exec (.trialConfirm t revoke) s = .next { s with dev := d' } ∧ d'.boot.trial = none ∧ d'.boot.br.slot b = slotActive ∧
          d'.boot.br.slot (!b) = (if D.boot.br.slot (!b) = slotFailed then slotFailed else slotPrevious) ∧
          (revoke = none → d'.idn = D.idn) ∧
          (∀ k, revoke = some k → let own := (s.stores.slot b).keyId (s.stores.slot b).len
            (4 ≤ k ∨ k = own ∨ D.fwKeyOk k = false → d'.idn = D.idn) ∧
            (k < 4 → k ≠ own → D.fwKeyOk k = true → d'.idn = { D.idn with fwRev := D.idn.fwRev + 2 ^ k })))) ∧
    (D.boot.trial = none → ans (.trialTimeout t) D) ∧
    (∀ t0, D.boot.trial = some t0 →
      (D.passedMs t0 1800000 = false → ans (.trialTimeout t) D) ∧
      (D.passedMs t0 1800000 = true → D.boot.phase = 3 → D.pw.hu = none → let b := D.boot.br.actB
        ∃ d', exec (.trialTimeout t) s = .next { s with dev := d' } ∧ d'.boot.phase = 4 ∧ d'.boot.trial = none ∧ d'.boot.br.actB = !b ∧
          d'.boot.br.slot b = slotFailed ∧ d'.boot.br.fail = 13 ∧ (D.boot.br.slot (!b) = slotPrevious → d'.boot.br.slot (!b) = slotActive)))) ∧
  (∀ d : Dev,
    (d.cfgBusy = true ∨ d.fwBusy = true → d.restartRefusal 0 = some rcBusy) ∧
    (d.boot.br.inState slotVerified = none → d.restartRefusal 1 = some rcBadArg) ∧
    ((if d.boot.br.legB = true then d.boot.legAok else d.boot.legBok) = false → d.restartRefusal 2 = some rcBadArg) ∧
    (∀ b, d.boot.br.inState slotVerified = some b → (d.applyAction 1).boot.br.actB = b ∧ (d.applyAction 1).boot.br.slot b = slotTrial ∧
      (d.boot.br.slot (!b) = slotActive → (d.applyAction 1).boot.br.slot (!b) = slotPrevious)) ∧
    (d.applyAction 2).boot.br.legB = !d.boot.br.legB ∧
    ∀ a cold, (d.beginRestart a cold).boot.phase = 4 ∧ (d.beginRestart a cold).led.accepts = false ∧
      (d.beginRestart a cold).boot.restart = some (a, cold, d.clk))

/-- HEARTBEAT (R356), PAIR_HB_SEND and PAIR_HB (R357, R464–R467), HB_INTERVAL, CORE_WATCHDOG (R30), LAST_GASP (R358), PAIR_BLOCK_LOCK and
PAIR_BLOCK_LOCK_LOST (R460), LEDGER_BLOCK and SHIP_RETRY (R461), CKPT_SHIP (R462). That the first missed intervals count only once the peer
has been heard is the model's reading (notes/assumptions/37.md). -/
def Obligations.PairMessagesAct : Prop :=
  (∀ (t : Nat) (s : State), let d := s.dev.advance t
    let ans (i : Instr) (y : Dev) : Prop := exec i s = .next { s with dev := { y with clk := d.clk } }
    (d.boot.phase = 3 →
      (d.beat = d.up.hbAt → exec (.heartbeat t) s = .next { s with dev := d }) ∧
      (d.beat ≠ d.up.hbAt → d.sessUp 0 = true → d.sessUp 1 = false →
        let n := (d.up.hbSeq + 1) % 2 ^ 36
        let role := if d.pair.st = 2 ∧ d.boot.recovery = 0 then 1 else d.role
        ∃ d', exec (.heartbeat t) s = .next { s with dev := d' } ∧ d'.up.hbSeq = n ∧ d'.up.hbAt = d.beat ∧
          d'.up.hbs.head? = some (n, d.clk, d.now) ∧ d'.out = d.out ++ [d.cxpOut 0 0 0x40 (d.nextSeq 0) 0
            ([pk [(role, 35, 34), (b2n d.leased, 33, 33), (d.up.shed, 32, 30), (d.tb.st, 29, 27)], W n] ++ dw d.now ++ [W d.epochSaid] ++
              dw d.lastCsn ++ [W d.bnoSealed, W d.led.acked, pk [(d.uncField, 35, 18)]])]) ∧
      (d.pair.dead = true → exec (.pairHbSend t) s = .next { s with dev := d }) ∧
      (d.pair.dead = false → d.pairEn = true → d.interval ≠ d.pair.outAt → d.pair.link = true → d.sessUp 2 = false → d.sessUp 3 = false →
        let n := (d.up.pairSeq + 1) % 2 ^ 16
        let role := if d.pair.st = 2 ∧ d.pair.granted = true ∧ d.boot.recovery = 0 then 1 else d.role
        ∃ d', exec (.pairHbSend t) s = .next { s with dev := d' } ∧ d'.pair.outAt = d.interval ∧ d'.up.pairSeq = n ∧
          d'.out = d.out ++ [d.cxpOut 1 2 0x42 (d.nextSeq 1) 0
            ([pk [(role, 35, 34), (b2n d.leased, 33, 33), (1, 32, 32), (n, 31, 16)], W d.epochSaid] ++ dw d.lastCsn)]) ∧
      exec (.coreWatchdog t) s = .next { s with dev := { d with pair := { d.pair with dead := true } } } ∧
      (∀ body, exec (.lastGasp t body) s = .next { s with dev := { d with up := { d.up with peerGasp := some body } } })) ∧
    (∀ (role : Nat) (healthy : Bool) (epoch csn : Nat) (swap : Bool), d.pair.link = true → d.pairEn = true → d.boot.phase = 3 → d.boot.recovery = 0 →
      (d.pair.st = 1 → role = 1 →
        ∃ d', exec (.pairHb t 2 role healthy epoch csn swap) s = .next { s with dev := d' } ∧ d'.pair.st = 1 ∧ d'.pair.pRole = role ∧
          d'.pair.pHealthy = healthy ∧ d'.pair.pEpoch = epoch ∧ d'.pair.pCsn = csn ∧ d'.pair.known = max d.pair.known epoch ∧
          d'.pair.hbL = some d.clk ∧ d'.pair.gotL = true ∧ d'.pair.sick = !healthy) ∧
      (d.pair.st = 0 → role = 1 →
        ∃ d', exec (.pairHb t 2 role healthy epoch csn swap) s = .next { s with dev := d' } ∧ d'.pair.st = 1 ∧ d'.led.accepts = false) ∧
      (d.pair.st = 3 → role = 1 → d.pair.epoch < epoch →
        ∃ d', exec (.pairHb t 2 role healthy epoch csn swap) s = .next { s with dev := d' } ∧ d'.boot.phase = 2 ∧ d'.led.accepts = false ∧
          epoch ≤ d'.pair.known) ∧
      (d.pair.st = 4 → role = 1 → d.pair.epoch < epoch →
        ∃ d', exec (.pairHb t 2 role healthy epoch csn swap) s = .next { s with dev := d' } ∧ d'.pair.st = 1 ∧
          d'.ctr fHandovers = min (d.ctr fHandovers + 1) (2 ^ 18 - 1)) ∧
      (d.pair.st = 2 → role = 1 → max d.pair.epoch d.pair.known < epoch →
        ∃ d', exec (.pairHb t 2 role healthy epoch csn swap) s = .next { s with dev := d' } ∧ d'.pair.st = 1 ∧
          d'.ctr fTakeRefused = min (d.ctr fTakeRefused + 1) (2 ^ 18 - 1))) ∧
    (d.pairEn = true → d.boot.phase = 3 → d.boot.recovery = 0 →
      (d.interval = d.pair.ivl → exec (.hbInterval t) s = .next { s with dev := d }) ∧
      (d.interval ≠ d.pair.ivl → d.pair.st = 3 →
        ∃ d', exec (.hbInterval t) s = .next { s with dev := d' } ∧ d'.pair.st = 3 ∧ d'.pair.ivl = d.interval ∧
          (d.pair.gotL = false → d'.ctr fHbMissLink = min (d.ctr fHbMissLink + 1) (2 ^ 18 - 1)) ∧
          (d.pair.gotC = false → d'.ctr fHbMissCxp = min (d.ctr fHbMissCxp + 1) (2 ^ 18 - 1))) ∧
      (d.interval ≠ d.pair.ivl → d.pair.st = 1 → d.pair.gotL = false → d.pair.gotC = false → 5 ≤ d.pair.missN → d.pair.hbL ≠ none →
        d.pw.hu = none → (d.sto.st = 1 ∨ d.sto.st = 2) → (d.usableCkpt d.pair.known).isSome = true →
        ∃ d', exec (.hbInterval t) s = .next { s with dev := d' } ∧ d'.pair.st = 2 ∧ d'.pair.hand = 0 ∧ d'.pair.granted = false)) ∧
    (∀ line,
      (d.pairEn = true → d.domOn 49 = true → gainsLock line = true →
        exec (.pairBlockLock t line) s = .next { s with dev := { d with pair := { d.pair with link := true } } }) ∧
      (losesLock line = true → exec (.pairBlockLockLost t line) s = .next { s with dev := { d with pair := { d.pair with link := false } } })) ∧
    (∀ ref ws, let shipped := bitOf (ws.getD 0 0) 35 = false
      (shipped → d.pair.st ≠ 1 → ans (.ledgerBlock t ref ws) d) ∧
      (shipped → d.pair.st = 1 → d.pair.link = true → d.boot.phase = 3 → ans (.ledgerBlock t ref ws) (d.takeBlock (ws.drop 1))) ∧
      (¬ shipped → d.pair.st ≠ 2 → ans (.ledgerBlock t ref ws) d) ∧
      (∀ q, ¬ shipped → d.pair.st = 2 → d.pair.fetch = some q → (ref = 0 ∨ ref = q) → ans (.ledgerBlock t ref ws) (d.takeBlock (ws.drop 1)))) ∧
    (∀ b, d.nextShip = some b → d.pair.st = 3 → d.pair.link = true → d.passedMs (max d.pair.moved b.sealClk) 1000 = true →
      let y : Dev := { d with pair := { d.pair with moved := d.clk } }
      (d.shipGap b = false → ans (.shipRetry t) (y.shipFrom b.bno)) ∧
      (d.shipGap b = true → ans (.shipRetry t) (if d.sto.cur = none then y.beginCkpt else y))) ∧
    (∀ p : CkptPart, d.pair.st = 1 → d.pair.link = true → (d.sto.st = 1 ∨ d.sto.st = 2) →
      let y := if p.part = 0 ∧ d.pair.part ≠ none then d.dropPart else d
      (partTaken y.pair.part p = none → ans (.ckptShip t p) y.dropPart) ∧
      (∀ x, partTaken y.pair.part p = some x →
        ans (.ckptShip t p) (if p.last then y.ckptArrived x else { y with pair := { y.pair with part := some x } })))) ∧
  (∀ (d : Dev) (ws : List Word),
    (Block.ofWords ws = none → d.takeBlock ws = d.count fBadSeg) ∧
    (∀ x, Block.ofWords ws = some x → NMap.find d.led.blocks x.1.bno = none →
      ∃ c, NMap.find (d.takeBlock ws).led.blocks x.1.bno = some c ∧ c.entries = x.1.entries ∧ c.last = x.1.last ∧ c.epoch = x.1.epoch ∧
        c.sent = none ∧ (d.takeBlock ws).led.acked = max d.led.acked x.1.acks)) ∧
  (∀ (d : Dev) (n k : Nat) (b : Block), (n, b) ∈ d.led.blocks → k ≤ n → b.sig ≠ none → d.pair.st = 3 → d.pair.link = true →
    ∃ q ws segs line, Out.cxp 1 2 0x01 q 0 ws segs line ∈ (d.shipFrom k).out) ∧
  (∀ (x : Option PartRx) (p : CkptPart) (r : PartRx), partTaken x p = some r → r.no = p.no ∧ r.next = p.part + 1 ∧
    (p.part = 0 ∨ ∃ y, x = some y ∧ y.no = p.no ∧ y.next = p.part)) ∧
  (∀ (d : Dev) (x : PartRx), (d.ckptArrived x).pair.part = none ∧
    if (snapshotOf x.head x.got).no = x.no ∧ ckptSound d.idn.peerKey (d.idW 3).toNat x.head x.got = true then
      0 < d.ckptKeep → ∃ k ∈ (d.ckptArrived x).sto.ckpts, k.peer = true ∧ k.img = snapshotOf x.head x.got
    else d.ckptArrived x = d.dropPart)

/-- LEASE and LEASE_EXPIRY (R356, R465–R468), LEDGER_READY (R433, R468), PEER_WAIT_EXPIRY (R464), TAKEOVER_TIMEOUT (R467), AUTO_RETURN (R472),
SWAP (R473) and HANDOVER_TIMEOUT (R467). What FENCE means outside STARTING and PRIMARY is the model's reading (notes/assumptions/37.md). -/
def Obligations.PairRolesChange : Prop :=
  (∀ (t : Nat) (s : State), let d := s.dev.advance t
    let ans (i : Instr) (y : Dev) : Prop := exec i s = .next { s with dev := { y with clk := d.clk } }
    (∀ req epoch, d.up.lease = none →
      let h := d.up.hbs.find? (fun h => h.1 == req && d.withinUs h.2.1 1500000)
      (h = none → ∀ g f, exec (.lease t req epoch g f) s = .next { s with dev := d }) ∧
      (∀ n at' tReq, h = some (n, at', tReq) → d.boot.phase = 3 → d.boot.recovery = 0 →
        (exec (.lease t req epoch false false) s = .next { s with dev := d }) ∧
        (d.pair.st = 0 → d.pairEn = false →
          ∃ d', exec (.lease t req epoch true false) s = .next { s with dev := d' } ∧ d'.pair.st = 6 ∧ d'.pair.epoch = epoch ∧
            d'.up.lease = some (at' + usT 1500000) ∧ d'.up.lastReq = tReq) ∧
        (d.pair.st = 0 → d.pairEn = true →
          (epoch = d.pair.epoch → ∃ d', exec (.lease t req epoch true false) s = .next { s with dev := d' } ∧ d'.pair.st = 3 ∧
            d'.up.lease = some (at' + usT 1500000)) ∧
          (epoch ≠ d.pair.epoch → ∃ d', exec (.lease t req epoch true false) s = .next { s with dev := d' } ∧ d'.pair.st = 1) ∧
          (∃ d', exec (.lease t req epoch false true) s = .next { s with dev := d' } ∧ d'.pair.st = 1 ∧ epoch ≤ d'.pair.known)) ∧
        (d.pair.st = 3 →
          (∃ d', exec (.lease t req epoch true false) s = .next { s with dev := d' } ∧ d'.pair.st = 3 ∧ d'.pair.lapse = none ∧
            d'.pair.epoch = epoch ∧ d'.up.lease = some (at' + usT 1500000)) ∧
          (∃ d', exec (.lease t req epoch false true) s = .next { s with dev := d' } ∧ d'.boot.phase = 2 ∧ d'.led.accepts = false)) ∧
        (d.pair.st = 2 → d.pair.granted = false → max d.pair.epoch d.pair.known < epoch → d.tamperHolds = false → d.pair.hand = 0 →
          d.sessUp 0 = true → d.sessUp 1 = false →
          ∃ d', exec (.lease t req epoch true false) s = .next { s with dev := d' } ∧ d'.pair.granted = true ∧ d'.pair.epoch = epoch ∧
            d'.pair.fetch = some (d.nextSeq 0) ∧ d'.out = d.out ++ [d.cxpOut 0 0 0x05 (d.nextSeq 0) 0 [W (d.bnoSealed + 1), W (2 ^ 36 - 1)]]))) ∧
    (d.leased = true ∨ d.up.lease = none → exec (.leaseExpiry t) s = .next { s with dev := d }) ∧
    (d.leased = false → d.up.lease ≠ none →
      ∃ d', exec (.leaseExpiry t) s = .next { s with dev := d' } ∧ d'.up.lease = none ∧
        d'.ctr fLeaseLost = min (d.ctr fLeaseLost + 1) (2 ^ 18 - 1) ∧ (d.primary = true → d'.pair.lapse = some d.led.csn)) ∧
    (d.primary = true → d.boot.phase = 3 → d.boot.recovery = 0 → d.led.accepts = false → d.pw.hu = none → d.aocHigh 1 = true → d.domOn 50 = true →
      d.boot.stVer ≤ d.boot.br.svData →
      ∃ d', exec (.ledgerReady t) s = .next { s with dev := d' } ∧ d'.led.accepts = true ∧ d'.led.isSealed = false) ∧
    (d.pair.st = 2 → d.pair.granted = false →
      exec (.ledgerReady t) s = .next { s with dev := { d with pair := { d.pair with restored := true } } }) ∧
    (let waited := d.passedMs (max d.pair.role1 d.pair.since) (1000 * d.peerWaitS * (if d.preferred = true then 1 else 2));
      (waited = false → exec (.peerWaitExpiry t) s = .next { s with dev := d }) ∧
      (waited = true → d.pair.st = 1 → d.pairEn = true → d.boot.phase = 3 → d.boot.recovery = 0 → d.pw.hu = none → (d.sto.st = 1 ∨ d.sto.st = 2) →
        ((d.usableCkpt d.pair.known).isSome = true →
          ∃ d', exec (.peerWaitExpiry t) s = .next { s with dev := d' } ∧ d'.pair.st = 2 ∧ d'.pair.hand = 0 ∧ d'.pair.old = d.pair.known) ∧
        (d.usableCkpt d.pair.known = none → exec (.peerWaitExpiry t) s = .next { s with dev := d }))) ∧
    (d.pair.st = 2 → d.passedMs d.pair.since (1000 * d.peerWaitS) = true →
      (d.pair.granted = true → exec (.takeoverTimeout t) s = .next { s with dev := d }) ∧
      (d.pair.granted = false → ∃ d', exec (.takeoverTimeout t) s = .next { s with dev := d' } ∧ d'.pair.st = 1 ∧
        d'.ctr fTakeRefused = min (d.ctr fTakeRefused + 1) (2 ^ 18 - 1))) ∧
    (∀ c, d.pw.hu = none → d.keptAnswer c.req = none → c.badOp = false → d.boot.recovery = 0 →
      (d.pairEn = false ∨ d.pair.st ≠ 3 ∨ d.inSync = false ∨ d.boot.restart ≠ none ∨ d.boot.phase ≠ 3 →
        ans (.swap t c) (d.controlResp c rcBusy 0)) ∧
      (d.pairEn = true → d.pair.st = 3 → d.inSync = true → d.boot.restart = none → d.boot.phase = 3 →
        ans (.swap t c) ((d.controlResp c rcOk 0).handOver 2))) ∧
    (∀ t0, d.pair.ret = some t0 → d.mayReturn = true → d.passedMs t0 (1000 * d.returnS) = true → d.pw.hu = none → d.boot.phase = 3 →
      ∃ d', exec (.autoReturn t) s = .next { s with dev := d' } ∧ d'.pair.st = 4 ∧ d'.pair.hand = 1 ∧ d'.led.accepts = false ∧ d'.led.openB = none) ∧
    (d.mayReturn = false → exec (.autoReturn t) s = .next { s with dev := { d with pair := { d.pair with ret := none } } }) ∧
    (d.pair.st = 4 → d.passedMs d.pair.since 10000 = true →
      (d.leased = true → ∃ d', exec (.handoverTimeout t) s = .next { s with dev := d' } ∧ d'.pair.st = 3 ∧ d'.led.accepts = true) ∧
      (d.leased = false → ∃ d', exec (.handoverTimeout t) s = .next { s with dev := d' } ∧ d'.boot.phase = 2 ∧ d'.led.accepts = false))) ∧
  (∀ (d : Dev) (n : Nat), let d' := d.handOver n
    d'.pair.st = 4 ∧ d'.pair.hand = n ∧ d'.led.accepts = false ∧ d'.led.openB = none)

/-- BUTTON_PRESS, SCROLL_ADVANCE, SCROLL_RESUME (R303, R304); DISPLAY_COMMIT, RAILS_READY, FRAME_TICK, RAIL_FAULT, RAIL_HOLD_EXPIRY,
DISCHARGE_DONE and TEMP_RECHECK (R493–R503). -/
def Obligations.PanelAndScrollFollowTheirStates : Prop :=
  ∀ (t : Nat) (temp : Int) (s : State), let d := s.dev.advance t
    let inRange := d.rangeOf (temp + d.tempOff)
    (∃ d', exec (.buttonPress t) s = .next { s with dev := d' } ∧
      (d.disp.run ≠ none → d' = { d with leg := { d.leg with press := true } }) ∧
      (d.disp.run = none → d'.leg.item = d.nextItem ∧ d'.leg.shown = d.clk ∧ d'.leg.pause = some (d.clk + secT d.scrollHoldS) ∧
        d'.leg.press = false)) ∧
    (d.leg.pause = none → d.passedMs d.leg.shown (d.scrollS * 1000) = true →
      ∃ d', exec (.scrollAdvance t) s = .next { s with dev := d' } ∧ d'.leg.item = d.nextItem ∧ d'.leg.shown = d.clk) ∧
    (d.leg.pause ≠ none → exec (.scrollAdvance t) s = .next { s with dev := d }) ∧
    (∀ e, d.leg.pause = some e →
      (e ≤ d.clk → ∃ d', exec (.scrollResume t) s = .next { s with dev := d' } ∧ d'.leg.item = d.nextItem ∧ d'.leg.pause = none) ∧
      (d.clk < e → exec (.scrollResume t) s = .next { s with dev := d })) ∧
    (∀ addr mode image,
      (d.dispEn = false ∨ 16 ≤ mode ∨ addr % 64 ≠ 0 → exec (.displayCommit t addr mode image temp) s = .next { s with dev := d }) ∧
      (d.dispEn = true → mode < 16 → addr % 64 = 0 →
        ∃ d', exec (.displayCommit t addr mode image temp) s = .next { s with dev := d' } ∧ d'.disp.next = some ⟨addr, image, mode, d.clk⟩ ∧
          (d.disp.next ≠ none → d'.ctr fSuperseded = min (d.ctr fSuperseded + 1) (2 ^ 18 - 1)) ∧
          (d.disp.st ≠ 0 → d'.disp.st = d.disp.st) ∧
          (d.disp.st = 0 → d.disp.stop = false →
            (inRange ≠ none → d'.disp.st = 1) ∧
            (inRange = none → d'.disp.st = 6 ∧ d'.ctr fTempOut = min (d.ctr fTempOut + 1) (2 ^ 18 - 1))))) ∧
    (d.disp.st = 1 → d.domOn 54 = true → d.passedUs d.disp.since (4 * d.railDlyUs) = true →
      ∃ d', exec (.railsReady t) s = .next { s with dev := d' } ∧ d'.disp.st = 2 ∧ d'.disp.tick = none) ∧
    (d.disp.st ≠ 1 → exec (.railsReady t) s = .next { s with dev := d }) ∧
    (let due := (d.disp.tick.map fun k => d.passedUs k d.frameUs).getD true;
      (due = false → exec (.frameTick t temp) s = .next { s with dev := d }) ∧
      (due = true →
        ∃ d', exec (.frameTick t temp) s = .next { s with dev := d' } ∧ d'.disp.tick = some d.clk ∧
          (∃ x : Dev, x.disp = d'.disp ∧ d' = if x.scans = true then x.emit (.epd ((List.range x.dispLines).map x.lineBus)) else x) ∧
          (d.disp.st = 3 → d.disp.next = none → d'.disp.st = 3) ∧
          (∀ n, d.disp.st = 3 ∨ d.disp.st = 2 ∧ d.disp.run = none → d.disp.next = some n → n.made < d.clk →
            let m := if d.disp.clear = true then d.clearMode else n.mode
            (inRange = none → d'.disp.st = 5 ∧ d'.disp.next = some n) ∧
            (∀ r, inRange = some r →
              (d.waveFrames m r = 0 → d'.disp.st = 3 ∧ d'.disp.next = none ∧ d'.disp.cur = d.disp.cur ∧
                d'.ctr fNoWave = min (d.ctr fNoWave + 1) (2 ^ 18 - 1)) ∧
              (d.waveFrames m r ≠ 0 → d'.disp.st = 2 ∧ d'.disp.isOpen = true ∧ d'.disp.done = 0 ∧ d'.disp.range = r ∧ d'.disp.mode = m ∧
                d'.disp.next = (if d.disp.clear = true then some n else none) ∧
                ∃ u, d'.disp.run = some u ∧ u.what = n ∧ u.clear = d.disp.clear ∧
                  u.ranges = (List.range d.dispBlocks).map (d.blockRange m r) ∧ u.nf = (u.ranges.map (d.waveFrames m)).foldl max 0))) ∧
          (∀ u, d.disp.st = 2 → d.disp.run = some u →
            (d.disp.frame + 1 < u.nf → d'.disp.st = 2 ∧ d'.disp.run = some u ∧ d'.disp.done = d.disp.frame + 1) ∧
            (u.nf ≤ d.disp.frame + 1 → d.disp.next = none →
              d'.disp.st = 3 ∧ d'.disp.run = none ∧ d'.disp.isOpen = false ∧ d'.disp.cur = (if u.clear = true then 0 else u.what.addr) ∧
              (d.leg.press = true → d'.leg.item = d.nextItem) ∧ d'.ctr fUpdates = min (d.ctr fUpdates + 1) (2 ^ 36 - 1))) ∧
          (d.disp.st = 4 →
            (d.disp.left = none → d'.disp.st = 4 ∧ d'.disp.left = some 4) ∧
            (∀ n, d.disp.left = some n → (n ≤ 1 → d'.disp.st = 5) ∧ (1 < n → d'.disp.st = 4 ∧ d'.disp.left = some (n - 1)))))) ∧
    ((d.disp.st = 0 ∨ d.disp.st = 5 ∨ d.disp.st = 6) → exec (.railFault t) s = .next { s with dev := d }) ∧
    (1 ≤ d.disp.st → d.disp.st ≤ 4 →
      ∃ d', exec (.railFault t) s = .next { s with dev := d' } ∧ d'.disp.st = 5 ∧ d'.ctr fRailFault = min (d.ctr fRailFault + 1) (2 ^ 18 - 1) ∧
        (d.disp.run ≠ none → d'.disp.run = none ∧ d'.disp.cutP = true ∧ d'.disp.clear = true ∧
          d'.ctr fCuts = min (d.ctr fCuts + 1) (2 ^ 18 - 1))) ∧
    (d.disp.st = 3 → d.disp.next = none → d.passedMs d.disp.since d.railHoldMs = true →
      ∃ d', exec (.railHoldExpiry t) s = .next { s with dev := d' } ∧ d'.disp.st = 5) ∧
    (d.disp.st ≠ 3 ∨ d.disp.next ≠ none → exec (.railHoldExpiry t) s = .next { s with dev := d }) ∧
    (let spent := d.disp.atOnce = true ∨ d.passedUs d.disp.since (4 * d.railDlyUs) = true;
      (d.disp.st ≠ 5 ∨ ¬ spent → exec (.dischargeDone t temp) s = .next { s with dev := d }) ∧
      (d.disp.st = 5 → spent →
      ∃ d', exec (.dischargeDone t temp) s = .next { s with dev := d' } ∧
        (d.disp.next = none ∨ d.disp.stop = true → d'.disp.st = 0) ∧
        (d.disp.next ≠ none → d.disp.stop = false → d'.disp.st = (if inRange = none then 6 else 1)))) ∧
    (d.disp.st = 6 → d.passedMs d.disp.since 1000 = true →
      ∃ d', exec (.tempRecheck t temp) s = .next { s with dev := d' } ∧ d'.disp.st = (if inRange = none then 6 else 1) ∧
        d'.ctr fTempOut = d.ctr fTempOut) ∧
    (d.disp.st ≠ 6 → exec (.tempRecheck t temp) s = .next { s with dev := d })

/-- UART_REQUEST and UART_GAP (R516, R517); CARD_INSERT, CARD_REMOVE, CARD_IDENTIFIED, CARD_VERIFY_DONE, CARD_IMPORT_DONE, LOG_BLOCK_DUE,
CARD_WRITE_CONFIRMED and CARD_BUSY_TIMEOUT (R519–R527, R549). -/
def Obligations.UartsAndTheCardAnswer : Prop :=
  ∀ (t : Nat) (s : State), let d := s.dev.advance t
    let c := d.loc.card
    let ans (i : Instr) (x : Dev) : Prop := exec i s = .next { s with dev := x }
    (∀ u os, d.mirrorUart u = true →
      let got := (d.uart u).part ++ os
      let req := got.take 10
      let gap := 3 * d.uartBits u * 2 ^ 36 < 2 * d.uartBaud u * (d.clk - (d.uart u).heard)
      (∃ d', ans (.uartRequest t u os true) d' ∧ (d'.uart u).part = [] ∧ d'.out = d.out ∧
        d'.ctr (fUartFraming u) = min (d.ctr (fUartFraming u) + 1) (2 ^ 12 - 1)) ∧
      (got.length < 10 → ∃ d', ans (.uartRequest t u os false) d' ∧ (d'.uart u).part = got ∧ d'.out = d.out) ∧
      (10 ≤ got.length →
        ∃ d', ans (.uartRequest t u os false) d' ∧ (d'.uart u).part = got.drop 10 ∧
          (ofBE (req.drop 6) ≠ crc32c (req.take 6) → d'.out = d.out ∧ d'.ctr (fUartCrc u) = min (d.ctr (fUartCrc u) + 1) (2 ^ 12 - 1)) ∧
          (ofBE (req.drop 6) = crc32c (req.take 6) → (req.getD 0 0).toNat ≠ fld (d.uartW u) 26 19 → d'.out = d.out) ∧
          (ofBE (req.drop 6) = crc32c (req.take 6) → (req.getD 0 0).toNat = fld (d.uartW u) 26 19 → req.getD 1 0 = 0x52#8 →
            d'.out = d.out ++ [.uart u (d.uartAnswer u (ofBE ((req.drop 2).take 3)) (req.getD 5 0).toNat)] ∧
            d'.ctr (fUartFrames u) = min (d.ctr (fUartFrames u) + 1) (2 ^ 36 - 1))) ∧
      (gap → ans (.uartGap t u) (d.setUart u { d.uart u with part := [] })) ∧
      (¬ gap → ans (.uartGap t u) d)) ∧
    (∀ u os bad, d.mirrorUart u = false → ans (.uartRequest t u os bad) d ∧ ans (.uartGap t u) d) ∧
    (d.domOn 55 = true →
      (c.st = 0 → d.cardEn = true → d.pw.hu = none →
        ∃ d', ans (.cardInsert t) d' ∧ d'.loc.card.st = csInit ∧ d'.loc.card.done = false ∧ d'.loc.card.power = false ∧
          d'.out = d.out ++ [.sdPower false]) ∧
      (c.st ≠ 0 ∨ d.cardEn = false ∨ d.pw.hu ≠ none → ans (.cardInsert t) d) ∧
      (c.st ≠ 0 → ∃ d', ans (.cardRemove t) d' ∧ d'.loc.card.st = csAbsent ∧ d'.loc.card.hdr = none ∧
        d'.loc.card.cur = c.cur ∧ d'.loc.card.ok = c.ok) ∧
      (c.st = 1 → c.power = true →
        ans (.cardIdentified t none 0 false) (d.cardTo csFault) ∧
        ∀ os n fresh, let h := CardHdr.ofBlock os n fresh
          ∃ d', ans (.cardIdentified t (some os) n fresh) d' ∧
            if h.valid = true then d'.loc.card.st = csVerify ∧ d'.loc.card.hdr = some h ∧ d'.loc.card.id = h.id ∧
              (c.id = h.id → d'.loc.card.cur = c.cur ∧ d'.loc.card.ok = c.ok) ∧
              (c.id ≠ h.id → d'.loc.card.ok = 0 ∧ d'.loc.card.cur = none ∧
                d'.loc.card.next = if h.from' = 1 ∨ fresh = true then d.oldestSeq else max 1 d.evr.newest)
            else d' = d.cardTo csFault) ∧
      (∀ h, c.st = 2 → c.hdr = some h →
        ans (.cardVerifyDone t none) (d.cardTo csFault) ∧
        ∀ os, ans (.cardVerifyDone t (some os))
          (if h.logCount = 0 then d.afterVerify h else ((d.repairBlock h os).rewriteCur h).afterVerify h)) ∧
      (∀ h blks, c.st = 3 → c.hdr = some h →
        let d0 := d.setCard { c with done := true }
        let busy := if h.kind = 1 then d.fwBusy else d.cfgBusy
        (c.done = true → ans (.cardImportDone t blks) (if busy = true then d else d.importEnds h)) ∧
        (c.done = false →
          match blks.bind (importWords h) with
          | none => ans (.cardImportDone t blks) (d0.importEnds h)
          | some ws =>
            (busy = true → ans (.cardImportDone t blks) (d0.importEnds h)) ∧
            (busy = false → let r := cardRun h ws s.stores d0
              exec (.cardImportDone t blks) s = .next { s with
                stores := r.1
                dev := if (if h.kind = 1 then r.2.fwBusy else r.2.cfgBusy) = true then r.2 else r.2.importEnds h }))) ∧
      (∀ h, c.hdr = some h → c.st = 4 → h.logCount ≠ 0 → c.next ≤ d.evr.newest →
        let first := if (NMap.find d.evr.fmt c.next).isSome = true then c.next else max c.next d.oldestSeq
        let last := d.lastFitting first d.evr.newest (65532 - 64) 65536
        first ≤ last → last < d.evr.newest ∨ d.passedMs c.wrote 60000 = true →
        ∃ d', ans (.logBlockDue t) d' ∧ d'.loc.card.st = csWriting ∧ d'.loc.card.cur = some (c.ok + 1, first, last) ∧
          d'.out = d.out ++ [.card (h.place (c.ok + 1)) (d.logBlock (c.ok + 1) first last)]) ∧
      (∀ b first last, c.cur = some (b, first, last) → c.st = 5 →
        ∃ d', ans (.cardWriteConfirmed t) d' ∧ d'.loc.card.st = csReady ∧ d'.loc.card.ok = b ∧ d'.loc.card.cur = none ∧
          d'.loc.card.next = last + 1) ∧
      (c.st = 5 →
        ans (.cardBusyTimeout t true) (d.cardTo csFault) ∧
        (d.passedMs c.since 500 = true → ans (.cardBusyTimeout t false) (d.cardTo csFault)) ∧
        (d.passedMs c.since 500 = false → ans (.cardBusyTimeout t false) d))) ∧
    (∀ blk n fresh last blks err,
      (d.domOn 55 = false ∨ c.st = 0 → ans (.cardRemove t) d) ∧
      (d.domOn 55 = false ∨ c.st ≠ 1 ∨ c.power = false → ans (.cardIdentified t blk n fresh) d) ∧
      (d.domOn 55 = false ∨ c.st ≠ 2 → ans (.cardVerifyDone t last) d) ∧
      (d.domOn 55 = false ∨ c.st ≠ 3 → ans (.cardImportDone t blks) d) ∧
      (d.domOn 55 = false ∨ c.st ≠ 4 → ans (.logBlockDue t) d) ∧
      (d.domOn 55 = false ∨ c.st ≠ 5 → ans (.cardWriteConfirmed t) d ∧ ans (.cardBusyTimeout t err) d)) ∧
    (∀ (x : Dev) h os,
      (os.length = 65536 → ofBE (os.drop 65532) = crc32c (os.take 65532) → x.repairBlock h os = x) ∧
      (x.loc.card.ok = 0 → x.repairBlock h os = x) ∧
      (x.loc.card.ok ≠ 0 → os.length ≠ 65536 ∨ ofBE (os.drop 65532) ≠ crc32c (os.take 65532) → let first := ofBE ((os.drop 20).take 5); let last := ofBE ((os.drop 25).take 5)
        x.repairBlock h os = if first ≤ last ∧ last ≤ x.evr.newest ∧ x.recsHeld first last = true then
          (x.count fVerifyFail).emit (.card (h.place x.loc.card.ok) (x.logBlock x.loc.card.ok first last)) else x.count fVerifyFail) ∧
      (x.loc.card.cur = none → x.rewriteCur h = x) ∧
      (∀ b first last, x.loc.card.cur = some (b, first, last) → let y := x.rewriteCur h
        y.loc.card.ok = b ∧ y.loc.card.cur = none ∧ y.loc.card.next = last + 1 ∧ y.ctr fRewrite = min (x.ctr fRewrite + 1) (2 ^ 18 - 1) ∧
        ∃ o, y.out = x.out ++ [.card (h.place b) o]) ∧
      (x.afterVerify h).loc.card.st =
        (if h.octets ≠ 0 ∧ h.impCount ≠ 0 ∧ h.kind ≠ 0 ∧ x.loc.card.done = false ∧ bitOf (W x.cardKinds) (h.kind - 1) = true then csImport
         else csReady) ∧
      (∀ ws st, let r := cardRun h ws st x
        (h.kind = 1 → x.fwBusy = false → x.cardReads 1 = false → (∀ k, k < ws.length → Memory.read r.1.fwStage k = ws.getD k 0) ∧
          (r.2.boot.fStage = 2 ∨ r.2.boot.fStage = 5)) ∧
        (h.kind = 2 → x.cfgBusy = false → x.cardReads 2 = false → (∀ k, k < ws.length → Memory.read r.1.cfgStage k = ws.getD k 0) ∧
          (r.2.boot.cStage = 2 ∨ r.2.boot.cStage = 4) ∧ r.2.boot.card = bitOf (W h.flags) 0)) ∧
      (x.boot.card = false → (x.importEnds h).loc.card.st = csReady ∧ ∃ o, (x.importEnds h).out = x.out ++ [o]) ∧
      (x.boot.card = true → x.boot.cStage = 3 → x.boot.restart = none → x.pw.hu = none →
        ∃ y : Dev, x.importEnds h = y.beginRestart 0 true ∧ y.loc.card.st = csReady ∧ y.boot.card = false))

/-- R184, of the entry that a LEDGER_ACK commits into an open block that it does not fill. -/
def Obligations.BlockAckEntriesHoldTheAcknowledgement : Prop :=
  ∀ (t port ref bno : Nat) (s : State) (b : Block), let d := s.dev.advance t
    d.pair.st ≠ 2 → port < 2 → bno < 2 ^ 36 → b.last < 2 ^ 72 → NMap.find d.led.blocks bno = some b → bno ≤ d.led.sentB → d.led.acked < bno →
    d.ledgerRuns = true → ((d.led.openB.map OpenBlock.entries).getD []).length < 4095 →
    ∃ d' o e, exec (.ledgerAck t port ref bno b.last) s = .next { s with dev := d' } ∧ d'.led.openB = some o ∧ o.entries.getLast? = some e ∧
      e.typ = 6 ∧ e.csn = d.led.csn ∧ e.body.length = 4 ∧ (e.body.getD 0 0).toNat = bno ∧
      (e.body.getD 1 0).toNat * 2 ^ 36 + (e.body.getD 2 0).toNat = b.last ∧ fld (e.body.getD 3 0) 35 35 = port ∧ fld (e.body.getD 3 0) 34 0 = 0

/-- R425, of a device whose supplies are good (R427 has the loss before that). -/
def Obligations.MainsIsLostByItsFilter : Prop :=
  ∀ (t : Nat) (s : State), let d := s.dev.advance t
    ((d.aoc 0).res = false ∨ (d.aoc 0).high = true →
      ∃ d', exec (.comparatorCrossing t 0 false) s = .next { s with dev := d' } ∧ d'.pw.low = some (d.clk, d.now) ∧ d'.evr = d.evr ∧
        d'.led = d.led ∧ d'.pw.hu = d.pw.hu) ∧
    (d.pw.low = none → exec (.mainsLoss t) s = .next { s with dev := d }) ∧
    (∀ c tL, d.pw.low = some (c, tL) →
      (d.passedUs c d.mainsFiltUs = false → exec (.mainsLoss t) s = .next { s with dev := d }) ∧
      (d.passedUs c d.mainsFiltUs = true → d.pw.hu = none → d.powered = true → d.boot.phase ≠ 0 → d.aocHigh 1 = true ∨ d.led.accepts = true →
        ∃ d' h, exec (.mainsLoss t) s = .next { s with dev := d' } ∧ d'.pw.hu = some h ∧ h.tL = tL ∧ h.clkL = c)) ∧
    (∃ d', exec (.comparatorCrossing t 0 true) s = .next { s with dev := d' } ∧ d'.pw.low = none ∧ d'.evr = d.evr ∧ d'.led = d.led ∧
      d'.pw.hu = d.pw.hu) ∧
    (d.pw.hu ≠ none → exec (.mainsLoss t) s = .next { s with dev := d } ∧
      ∃ d', exec (.comparatorCrossing t 0 false) s = .next { s with dev := d' } ∧ d'.pw.hu = d.pw.hu)

/-- The frames of these commands: each completes, and leaves as they were all parts but those that its set names. The sets are the
model's reading of each command's rules. -/
def Obligations.LocalUnitsKeepTheRest : Prop :=
  ∀ s : State, let eff (c : Instr) (f : Dev → Dev → Dev) : Prop := ∃ d', exec c s = .next { s with dev := d' } ∧ d' = f (s.dev.advance c.instant) d'
    (let f : Dev → Dev → Dev := fun d e => { d with out := e.out };
      (∀ t x y, eff (.arpRequest t x y) f) ∧ (∀ t x y, eff (.echoRequest t x y) f) ∧
      (∀ t x y z u v, eff (.ptpDelayReqReceived t x y z u v) f)) ∧
    (let f : Dev → Dev → Dev := fun d e => { d with tb := e.tb };
      (∀ t x y z u, eff (.sync t x y z u) f) ∧ (∀ t, eff (.syncTimeout t) f) ∧ (∀ t x y, eff (.rtcMeasure t x y) f) ∧
      (∀ t x y, eff (.outageRtcUpdate t x y) f) ∧ (∀ t x, eff (.announceReceiptTimeout t x) f) ∧ (∀ t x y z u, eff (.followUp t x y z u) f)) ∧
    (let f : Dev → Dev → Dev := fun d e => { d with pw := e.pw };
      (∀ t x, eff (.domainIdle t x) f) ∧ (∀ t x, eff (.vbakLow t x) f)) ∧
    (let f : Dev → Dev → Dev := fun d e => { d with leg := e.leg };
      (∀ t, eff (.buttonPress t) f) ∧ (∀ t, eff (.scrollAdvance t) f) ∧ (∀ t, eff (.scrollResume t) f)) ∧
    (let f : Dev → Dev → Dev := fun d e => { d with up := e.up };
      (∀ t x, eff (.portLinkUp t x) f) ∧ (∀ t x, eff (.portLinkDown t x) f) ∧ (∀ t x, eff (.sessionTimeout t x) f) ∧
      (∀ t x, eff (.sessionBackoffEnd t x) f) ∧ (∀ t x, eff (.keyUpdate t x) f) ∧ (∀ t x, eff (.lastGasp t x) f) ∧
      (∀ t x, eff (.fatalAlert t x) f)) ∧
    (let f : Dev → Dev → Dev := fun d e => { d with sto := e.sto };
      (∀ t x, eff (.dayIndex t x) f)) ∧
    (let f : Dev → Dev → Dev := fun d e => { d with pair := e.pair };
      (∀ t, eff (.coreWatchdog t) f) ∧ (∀ t x, eff (.pairBlockLock t x) f) ∧ (∀ t x, eff (.pairBlockLockLost t x) f)) ∧
    (let f : Dev → Dev → Dev := fun d e => { d with disp := e.disp };
      (∀ t, eff (.railsReady t) f) ∧ (∀ t, eff (.railHoldExpiry t) f)) ∧
    (let f : Dev → Dev → Dev := fun d e => { d with loc := e.loc };
      (∀ t x, eff (.uartGap t x) f) ∧ (∀ t, eff (.cardRemove t) f) ∧ (∀ t x y z, eff (.cardIdentified t x y z) f) ∧
      (∀ t, eff (.cardWriteConfirmed t) f) ∧ (∀ t x, eff (.cardBusyTimeout t x) f)) ∧
    (let f : Dev → Dev → Dev := fun d e => { d with out := e.out, tb := e.tb };
      (∀ t x, eff (.syncSend t x) f) ∧ (∀ t x, eff (.announceSend t x) f)) ∧
    (let f : Dev → Dev → Dev := fun d e => { d with out := e.out, mir := e.mir };
      (∀ t, eff (.epochHold t) f)) ∧
    (let f : Dev → Dev → Dev := fun d e => { d with out := e.out, sto := e.sto };
      (∀ t, eff (.stripeTimeout t) f)) ∧
    (let f : Dev → Dev → Dev := fun d e => { d with out := e.out, loc := e.loc };
      (∀ t, eff (.cardInsert t) f) ∧ (∀ t, eff (.pps t) f) ∧ (∀ t, eff (.cyclePulse t) f) ∧ (∀ t, eff (.logBlockDue t) f)) ∧
    (let f : Dev → Dev → Dev := fun d e => { d with out := e.out, boot := e.boot };
      (∀ t, eff (.supplyTimeout t) f)) ∧
    (let f : Dev → Dev → Dev := fun d e => { d with ctrs := e.ctrs, tb := e.tb };
      (∀ t x y, eff (.tsqExpired t x y) f)) ∧
    (let f : Dev → Dev → Dev := fun d e => { d with ctrs := e.ctrs, pw := e.pw };
      (∀ t x, eff (.switchDone t x) f)) ∧
    (let f : Dev → Dev → Dev := fun d e => { d with ctrs := e.ctrs, q := e.q };
      (∀ t x y, eff (.packetWrite t x y) f) ∧ (∀ t x y, eff (.staleTimeout t x y) f) ∧ (∀ t x y, eff (.flush t x y) f) ∧
      (∀ t x y z, eff (.mireFill t x y z) f)) ∧
    (let f : Dev → Dev → Dev := fun d e => { d with ctrs := e.ctrs, up := e.up };
      (∀ t x y, eff (.handshakeTimeout t x y) f) ∧ (∀ t x y, eff (.reasmTo t x y) f)) ∧
    (let f : Dev → Dev → Dev := fun d e => { d with tb := e.tb, leg := e.leg };
      (∀ t, eff (.leapSecond t) f)) ∧
    (let f : Dev → Dev → Dev := fun d e => { d with led := e.led, sto := e.sto };
      (∀ t, eff (.archiveExpiry t) f)) ∧
    (let f : Dev → Dev → Dev := fun d e => { d with out := e.out, ctrs := e.ctrs, tb := e.tb };
      (∀ t x, eff (.ptpDelayReq t x) f)) ∧
    (let f : Dev → Dev → Dev := fun d e => { d with out := e.out, ctrs := e.ctrs, mir := e.mir };
      (∀ t x, eff (.mirrorRead t x) f)) ∧
    (let f : Dev → Dev → Dev := fun d e => { d with out := e.out, ctrs := e.ctrs, up := e.up };
      (∀ t, eff (.heartbeat t) f)) ∧
    (let f : Dev → Dev → Dev := fun d e => { d with out := e.out, ctrs := e.ctrs, loc := e.loc };
      (∀ t x y z, eff (.uartRequest t x y z) f) ∧ (∀ t x, eff (.cardVerifyDone t x) f)) ∧
    (let f : Dev → Dev → Dev := fun d e => { d with ctrs := e.ctrs, tb := e.tb, q := e.q };
      (∀ t x y z u v, eff (.announce t x y z u v) f) ∧ (∀ t x y, eff (.beacon t x y) f)) ∧
    (let f : Dev → Dev → Dev := fun d e => { d with ctrs := e.ctrs, pw := e.pw, disp := e.disp };
      (∀ t x y z u, eff (.displayCommit t x y z u) f) ∧ (∀ t x, eff (.dischargeDone t x) f) ∧ (∀ t x, eff (.tempRecheck t x) f)) ∧
    (let f : Dev → Dev → Dev := fun d e => { d with ctrs := e.ctrs, q := e.q, mir := e.mir };
      (∀ t, eff (.mirrorHold t) f) ∧ (∀ t, eff (.mirrorFlip t) f)) ∧
    (let f : Dev → Dev → Dev := fun d e => { d with ctrs := e.ctrs, q := e.q, sto := e.sto };
      (∀ t x y, eff (.discardTimeout t x y) f)) ∧
    (let f : Dev → Dev → Dev := fun d e => { d with ctrs := e.ctrs, q := e.q, disp := e.disp };
      (∀ t, eff (.railFault t) f)) ∧
    (let f : Dev → Dev → Dev := fun d e => { d with out := e.out, ctrs := e.ctrs, draws := e.draws, sto := e.sto };
      (∀ t x, eff (.discardDone t x) f)) ∧
    (let f : Dev → Dev → Dev := fun d e => { d with out := e.out, ctrs := e.ctrs, tb := e.tb, up := e.up };
      (∀ t x, eff (.timeStep t x) f) ∧ (∀ t x, eff (.leap t x) f)) ∧
    (let f : Dev → Dev → Dev := fun d e => { d with out := e.out, ctrs := e.ctrs, pw := e.pw, up := e.up };
      (∀ t, eff (.lastGaspRepeat t) f)) ∧
    (let f : Dev → Dev → Dev := fun d e => { d with out := e.out, ctrs := e.ctrs, q := e.q, mir := e.mir };
      (∀ t, eff (.mirrorHoldRelease t) f)) ∧
    (let f : Dev → Dev → Dev := fun d e => { d with out := e.out, ctrs := e.ctrs, q := e.q, sto := e.sto };
      (∀ t, eff (.checkpoint t) f) ∧ (∀ t x, eff (.dieLost t x) f)) ∧
    (let f : Dev → Dev → Dev := fun d e => { d with out := e.out, ctrs := e.ctrs, leg := e.leg, disp := e.disp };
      (∀ t x, eff (.frameTick t x) f)) ∧
    (let f : Dev → Dev → Dev := fun d e => { d with out := e.out, ctrs := e.ctrs, up := e.up, pair := e.pair };
      (∀ t x, eff (.cxpSegment t x) f) ∧ (∀ t, eff (.pairHbSend t) f)) ∧
    (let f : Dev → Dev → Dev := fun d e => { d with out := e.out, pw := e.pw, idn := e.idn, boot := e.boot };
      (∀ t x y, eff (.comparatorCrossing t x y) f)) ∧
    (let f : Dev → Dev → Dev := fun d e => { d with ctrs := e.ctrs, tb := e.tb, pw := e.pw, pair := e.pair };
      (∀ t, eff (.hbInterval t) f) ∧ (∀ t, eff (.peerWaitExpiry t) f) ∧ (∀ t, eff (.takeoverTimeout t) f)) ∧
    (let f : Dev → Dev → Dev := fun d e => { d with ctrs := e.ctrs, pw := e.pw, evr := e.evr, boot := e.boot };
      (∀ t, eff (.suppliesGood t) f)) ∧
    (let f : Dev → Dev → Dev := fun d e => { d with ctrs := e.ctrs, q := e.q, led := e.led, sto := e.sto };
      (∀ t x y, eff (.ledgerBlock t x y) f) ∧ (∀ t, eff (.storeWrite t) f)) ∧
    (let f : Dev → Dev → Dev := fun d e => { d with ctrs := e.ctrs, q := e.q, up := e.up, pair := e.pair };
      (∀ t, eff (.leaseExpiry t) f)) ∧
    (let f : Dev → Dev → Dev := fun d e => { d with ctrs := e.ctrs, q := e.q, sto := e.sto, pair := e.pair };
      (∀ t x, eff (.ckptShip t x) f)) ∧
    (let f : Dev → Dev → Dev := fun d e => { d with out := e.out, ctrs := e.ctrs, draws := e.draws, q := e.q, sto := e.sto };
      (∀ t, eff (.storeCopyDone t) f) ∧ (∀ t x y z, eff (.pageProgramDone t x y z) f)) ∧
    (let f : Dev → Dev → Dev := fun d e => { d with out := e.out, ctrs := e.ctrs, pw := e.pw, idn := e.idn, boot := e.boot };
      (∀ t x y, eff (.bandFiltered t x y) f)) ∧
    (let f : Dev → Dev → Dev := fun d e => { d with out := e.out, ctrs := e.ctrs, q := e.q, evr := e.evr, loc := e.loc };
      (∀ t, eff (.eventFormat t) f)) ∧
    (let f : Dev → Dev → Dev := fun d e => { d with out := e.out, ctrs := e.ctrs, led := e.led, up := e.up, idn := e.idn };
      (∀ t x y, eff (.handshakeDone t x y) f)) ∧
    (let f : Dev → Dev → Dev := fun d e => { d with ctrs := e.ctrs, tb := e.tb, q := e.q, bal := e.bal, met := e.met };
      (∀ t, eff (.startWaitExpiry t) f)) ∧
    (let f : Dev → Dev → Dev := fun d e => { d with ctrs := e.ctrs, q := e.q, led := e.led, evr := e.evr, loc := e.loc };
      (∀ t, eff (.eventIntake t) f)) ∧
    (let f : Dev → Dev → Dev := fun d e => { d with out := e.out, ctrs := e.ctrs, q := e.q, up := e.up, sto := e.sto, pair := e.pair };
      (∀ t, eff (.shipRetry t) f)) ∧
    (let f : Dev → Dev → Dev := fun d e => { d with out := e.out, ctrs := e.ctrs, up := e.up, sto := e.sto, pair := e.pair, boot := e.boot };
      (∀ t, eff (.checkpointValid t) f)) ∧
    (let f : Dev → Dev → Dev := fun d e => { d with ctrs := e.ctrs, tb := e.tb, q := e.q, bal := e.bal, met := e.met, mir := e.mir };
      (∀ t x y z u, eff (.ptpDelayResp t x y z u) f)) ∧
    (let f : Dev → Dev → Dev := fun d e => { d with tb := e.tb, pw := e.pw, leg := e.leg, evr := e.evr, loc := e.loc, idn := e.idn, boot := e.boot };
      (∀ t, eff (.vbakLoss t) f)) ∧
    (let f : Dev → Dev → Dev := fun d e => { d with out := e.out, ctrs := e.ctrs, draws := e.draws, q := e.q, led := e.led, leg := e.leg, sto := e.sto, evr := e.evr };
      (∀ t x y z u v w, eff (.scrub t x y z u v w) f)) ∧
    (let f : Dev → Dev → Dev := fun d e => { d with out := e.out, ctrs := e.ctrs, tb := e.tb, q := e.q, bal := e.bal, met := e.met, mir := e.mir, up := e.up };
      (∀ t x, eff (.timeSet t x) f))

/-- The frames of these commands: each completes, and leaves as they were all parts but those that its set names. The sets are the
model's reading of each command's rules. -/
def Obligations.FieldCommandsKeepTheRest : Prop :=
  ∀ s : State, let eff (c : Instr) (f : Dev → Dev → Dev) : Prop := ∃ d', exec c s = .next { s with dev := d' } ∧ d' = f (s.dev.advance c.instant) d'
    (let f : Dev → Dev → Dev := fun d e => { d with fr := e.fr };
      (∀ t x, eff (.delayReq t x) f) ∧ (∀ t x y, eff (.status t x y) f) ∧ (∀ t x y, eff (.blockLock t x y) f) ∧
      (∀ t x, eff (.lostTimeout t x) f) ∧ (∀ t x y z, eff (.phrClassMark t x y z) f) ∧ (∀ t x, eff (.blankEnd t x) f)) ∧
    (let f : Dev → Dev → Dev := fun d e => { d with air := e.air };
      (∀ t x, eff (.backoffEnd t x) f)) ∧
    (let f : Dev → Dev → Dev := fun d e => { d with pl := e.pl };
      (∀ t x y, eff (.sweepReply t x y) f)) ∧
    (let f : Dev → Dev → Dev := fun d e => { d with led := e.led };
      (∀ t, eff (.hornCountReset t) f)) ∧
    (let f : Dev → Dev → Dev := fun d e => { d with out := e.out, fr := e.fr };
      (∀ t x, eff (.linkFrameSend t x) f)) ∧
    (let f : Dev → Dev → Dev := fun d e => { d with ctrs := e.ctrs, fr := e.fr };
      (∀ t x y z, eff (.starved t x y z) f)) ∧
    (let f : Dev → Dev → Dev := fun d e => { d with ctrs := e.ctrs, pl := e.pl };
      (∀ t x y z, eff (.reasmTimeout t x y z) f)) ∧
    (let f : Dev → Dev → Dev := fun d e => { d with draws := e.draws, pl := e.pl };
      (∀ t x, eff (.plRespEnd t x) f)) ∧
    (let f : Dev → Dev → Dev := fun d e => { d with fr := e.fr, air := e.air };
      (∀ t x, eff (.ackEnd t x) f)) ∧
    (let f : Dev → Dev → Dev := fun d e => { d with pl := e.pl, led := e.led };
      (∀ t, eff (.routeRecompute t) f)) ∧
    (let f : Dev → Dev → Dev := fun d e => { d with ctrs := e.ctrs, pw := e.pw, air := e.air };
      (∀ t x y, eff (.dwellBucket t x y) f) ∧ (∀ t x, eff (.hornListenStart t x) f)) ∧
    (let f : Dev → Dev → Dev := fun d e => { d with ctrs := e.ctrs, q := e.q, fr := e.fr };
      (∀ t x y, eff (.alarm t x y) f) ∧ (∀ t x, eff (.reedSilent t x) f)) ∧
    (let f : Dev → Dev → Dev := fun d e => { d with ctrs := e.ctrs, q := e.q, pl := e.pl };
      (∀ t x, eff (.routeRequest t x) f) ∧ (∀ t x, eff (.sweepPeriod t x) f) ∧ (∀ t x, eff (.sweepWindowEnd t x) f)) ∧
    (let f : Dev → Dev → Dev := fun d e => { d with ctrs := e.ctrs, fr := e.fr, air := e.air };
      (∀ t x y, eff (.phrDecoded t x y) f) ∧ (∀ t x y, eff (.macHeaderComplete t x y) f) ∧ (∀ t x, eff (.directoryLookup t x) f)) ∧
    (let f : Dev → Dev → Dev := fun d e => { d with fr := e.fr, air := e.air, pl := e.pl };
      (∀ t x, eff (.mailWindowEnd t x) f)) ∧
    (let f : Dev → Dev → Dev := fun d e => { d with out := e.out, ctrs := e.ctrs, draws := e.draws, pl := e.pl };
      (∀ t x, eff (.plRespStart t x) f)) ∧
    (let f : Dev → Dev → Dev := fun d e => { d with out := e.out, ctrs := e.ctrs, fr := e.fr, air := e.air };
      (∀ t x y, eff (.streamGainChange t x y) f) ∧ (∀ t x, eff (.ackStart t x) f)) ∧
    (let f : Dev → Dev → Dev := fun d e => { d with ctrs := e.ctrs, pw := e.pw, fr := e.fr, air := e.air };
      (∀ t x, eff (.detection t x) f) ∧ (∀ t, eff (.pendingGrant t) f)) ∧
    (let f : Dev → Dev → Dev := fun d e => { d with ctrs := e.ctrs, q := e.q, fr := e.fr, air := e.air };
      (∀ t x y, eff (.frameEnd t x y) f)) ∧
    (let f : Dev → Dev → Dev := fun d e => { d with ctrs := e.ctrs, draws := e.draws, q := e.q, pl := e.pl, led := e.led };
      (∀ t x y, eff (.plFrameEnd t x y) f)) ∧
    (let f : Dev → Dev → Dev := fun d e => { d with ctrs := e.ctrs, q := e.q, fr := e.fr, air := e.air, pl := e.pl, led := e.led };
      (∀ t x y, eff (.blockLockLost t x y) f) ∧ (∀ t x, eff (.alignTimeout t x) f) ∧ (∀ t x, eff (.startBlockTimeout t x) f)) ∧
    (let f : Dev → Dev → Dev := fun d e => { d with out := e.out, ctrs := e.ctrs, q := e.q, fr := e.fr, air := e.air, pl := e.pl, led := e.led };
      (∀ t x y, eff (.linkFrame t x y) f) ∧ (∀ t x y z u v, eff (.delayResp t x y z u v) f)) ∧
    (let f : Dev → Dev → Dev := fun d e => { d with ctrs := e.ctrs, draws := e.draws, q := e.q, fr := e.fr, air := e.air, pl := e.pl, led := e.led };
      (∀ t x y, eff (.holdClose t x y) f)) ∧
    (let f : Dev → Dev → Dev := fun d e => { d with ctrs := e.ctrs, q := e.q, fr := e.fr, air := e.air, pl := e.pl, led := e.led, cmd := e.cmd, bal := e.bal, sto := e.sto, loc := e.loc };
      (∀ t x y, eff (.ackReceived t x y) f) ∧ (∀ t x, eff (.hornListenEnd t x) f) ∧ (∀ t x, eff (.txEnd t x) f) ∧
      (∀ t x y, eff (.plPreamble t x y) f)) ∧
    (let f : Dev → Dev → Dev := fun d e => { d with out := e.out, ctrs := e.ctrs, q := e.q, fr := e.fr, air := e.air, pl := e.pl, led := e.led, cmd := e.cmd, bal := e.bal, sto := e.sto, loc := e.loc };
      (∀ t x, eff (.txStart t x) f)) ∧
    (let f : Dev → Dev → Dev := fun d e => { d with ctrs := e.ctrs, draws := e.draws, q := e.q, fr := e.fr, air := e.air, pl := e.pl, led := e.led, cmd := e.cmd, bal := e.bal, sto := e.sto, loc := e.loc };
      (∀ t x y, eff (.ccaEnd t x y) f) ∧ (∀ t x, eff (.ackWaitTimeout t x) f) ∧ (∀ t x y, eff (.jobDeadline t x y) f) ∧
      (∀ t x, eff (.plTxEnd t x) f) ∧ (∀ t x y z, eff (.plResponse t x y z) f) ∧ (∀ t x, eff (.plAwaitTimeout t x) f)) ∧
    (let f : Dev → Dev → Dev := fun d e => { d with ctrs := e.ctrs, pw := e.pw, q := e.q, fr := e.fr, air := e.air, pl := e.pl, led := e.led, cmd := e.cmd, bal := e.bal, sto := e.sto, loc := e.loc };
      (∀ t x, eff (.slottedCca t x) f)) ∧
    (let f : Dev → Dev → Dev := fun d e => { d with out := e.out, ctrs := e.ctrs, draws := e.draws, q := e.q, fr := e.fr, air := e.air, pl := e.pl, led := e.led, cmd := e.cmd, bal := e.bal, sto := e.sto, loc := e.loc };
      (∀ t x, eff (.plAccessSlot t x) f)) ∧
    (let f : Dev → Dev → Dev := fun d e => { d with ctrs := e.ctrs, draws := e.draws, pw := e.pw, q := e.q, fr := e.fr, air := e.air, pl := e.pl, led := e.led, cmd := e.cmd, bal := e.bal, sto := e.sto, loc := e.loc };
      (∀ t, eff (.jobTableEntry t) f) ∧ (∀ t, eff (.jobAssign t) f))

/-- The frames of these commands: each completes, and leaves as they were all parts but those that its set names. The sets are the
model's reading of each command's rules. -/
def Obligations.LedgerAndMeterCommandsKeepTheRest : Prop :=
  ∀ s : State, let eff (c : Instr) (f : Dev → Dev → Dev) : Prop := ∃ d', exec c s = .next { s with dev := d' } ∧ d' = f (s.dev.advance c.instant) d'
    (let f : Dev → Dev → Dev := fun d e => { d with ctrs := e.ctrs, led := e.led };
      (∀ t, eff (.blockTimeLimit t) f)) ∧
    (let f : Dev → Dev → Dev := fun d e => { d with out := e.out, ctrs := e.ctrs, up := e.up };
      (∀ t x y z u, eff (.eventRead t x y z u) f)) ∧
    (let f : Dev → Dev → Dev := fun d e => { d with ctrs := e.ctrs, q := e.q, led := e.led };
      (∀ t x, eff (.verifyDone t x) f) ∧ (∀ t x, eff (.validateFrame t x) f)) ∧
    (let f : Dev → Dev → Dev := fun d e => { d with out := e.out, ctrs := e.ctrs, q := e.q, up := e.up };
      (∀ t x, eff (.objRead t x) f)) ∧
    (let f : Dev → Dev → Dev := fun d e => { d with out := e.out, ctrs := e.ctrs, led := e.led, up := e.up };
      (∀ t x y z, eff (.blockReq t x y z) f) ∧ (∀ t x, eff (.blockResend t x) f)) ∧
    (let f : Dev → Dev → Dev := fun d e => { d with out := e.out, ctrs := e.ctrs, leg := e.leg, up := e.up };
      (∀ t x, eff (.billReq t x) f)) ∧
    (let f : Dev → Dev → Dev := fun d e => { d with ctrs := e.ctrs, draws := e.draws, q := e.q, led := e.led };
      (∀ t x, eff (.rebuildWalkDone t x) f)) ∧
    (let f : Dev → Dev → Dev := fun d e => { d with ctrs := e.ctrs, q := e.q, led := e.led, sto := e.sto };
      (∀ t x, eff (.indexLookup t x) f)) ∧
    (let f : Dev → Dev → Dev := fun d e => { d with out := e.out, ctrs := e.ctrs, met := e.met, leg := e.leg, loc := e.loc };
      (∀ t, eff (.changeBoundary t) f)) ∧
    (let f : Dev → Dev → Dev := fun d e => { d with ctrs := e.ctrs, q := e.q, led := e.led, cmd := e.cmd, loc := e.loc };
      (∀ t x y, eff (.roundStart t x y) f)) ∧
    (let f : Dev → Dev → Dev := fun d e => { d with ctrs := e.ctrs, q := e.q, led := e.led, leg := e.leg, loc := e.loc };
      (∀ t, eff (.boundary t) f)) ∧
    (let f : Dev → Dev → Dev := fun d e => { d with out := e.out, ctrs := e.ctrs, q := e.q, led := e.led, up := e.up, pair := e.pair };
      (∀ t, eff (.blockSigned t) f)) ∧
    (let f : Dev → Dev → Dev := fun d e => { d with out := e.out, ctrs := e.ctrs, led := e.led, bal := e.bal, up := e.up, loc := e.loc };
      (∀ t x, eff (.membershipWrite t x) f)) ∧
    (let f : Dev → Dev → Dev := fun d e => { d with out := e.out, ctrs := e.ctrs, led := e.led, up := e.up, sto := e.sto, loc := e.loc };
      (∀ t x, eff (.recordWrite t x) f)) ∧
    (let f : Dev → Dev → Dev := fun d e => { d with ctrs := e.ctrs, q := e.q, led := e.led, met := e.met, evr := e.evr, loc := e.loc };
      (∀ t x, eff (.syncDec t x) f)) ∧
    (let f : Dev → Dev → Dev := fun d e => { d with ctrs := e.ctrs, q := e.q, fr := e.fr, air := e.air, pl := e.pl, led := e.led, cmd := e.cmd };
      (∀ t x y, eff (.confirmQuery t x y) f)) ∧
    (let f : Dev → Dev → Dev := fun d e => { d with ctrs := e.ctrs, q := e.q, led := e.led, bal := e.bal, met := e.met, leg := e.leg, loc := e.loc };
      (∀ t, eff (.tickEnd t) f)) ∧
    (let f : Dev → Dev → Dev := fun d e => { d with out := e.out, ctrs := e.ctrs, q := e.q, led := e.led, met := e.met, up := e.up, evr := e.evr, loc := e.loc };
      (∀ t x, eff (.metroReset t x) f) ∧ (∀ t x, eff (.metrologyWrite t x) f)) ∧
    (let f : Dev → Dev → Dev := fun d e => { d with ctrs := e.ctrs, q := e.q, fr := e.fr, air := e.air, pl := e.pl, led := e.led, cmd := e.cmd, bal := e.bal, sto := e.sto, loc := e.loc };
      (∀ t, eff (.staleScan t) f) ∧ (∀ t x y, eff (.balWaitExpiry t x y) f) ∧ (∀ t, eff (.correlatorRun t) f) ∧
      (∀ t, eff (.rebuildReleaseEnd t) f) ∧ (∀ t, eff (.rebuildAbort t) f) ∧ (∀ t x y, eff (.zoneReference t x y) f) ∧
      (∀ t x y, eff (.transactionDeadline t x y) f) ∧ (∀ t x, eff (.tariffSwitch t x) f) ∧ (∀ t x y, eff (.noConfirm t x y) f) ∧
      (∀ t x y, eff (.transactionOpen t x y) f) ∧ (∀ t x y, eff (.respWaitExpiry t x y) f) ∧ (∀ t x, eff (.tariffCut t x) f) ∧
      (∀ t x, eff (.arming t x) f) ∧ (∀ t x y, eff (.reportWindowEnd t x y) f) ∧ (∀ t x, eff (.actCutoff t x) f) ∧
      (∀ t x, eff (.campaignDeadline t x) f) ∧ (∀ t, eff (.commit t) f)) ∧
    (let f : Dev → Dev → Dev := fun d e => { d with out := e.out, ctrs := e.ctrs, q := e.q, fr := e.fr, air := e.air, pl := e.pl, led := e.led, cmd := e.cmd, bal := e.bal, up := e.up, sto := e.sto, loc := e.loc };
      (∀ t x, eff (.campaignStart t x) f) ∧ (∀ t x, eff (.clearQuar t x) f) ∧ (∀ t x, eff (.sweepStop t x) f) ∧ (∀ t x, eff (.read t x) f) ∧
      (∀ t x, eff (.disconnect t x) f) ∧ (∀ t x, eff (.reconnect t x) f) ∧ (∀ t x, eff (.tariffPush t x) f) ∧ (∀ t x, eff (.keyRotate t x) f) ∧
      (∀ t x, eff (.sweepStart t x) f) ∧ (∀ t x, eff (.remove t x) f) ∧ (∀ t x, eff (.campaignActivate t x) f) ∧
      (∀ t x, eff (.campaignCancel t x) f) ∧ (∀ t x, eff (.cancel t x) f)) ∧
    (let f : Dev → Dev → Dev := fun d e => { d with out := e.out, ctrs := e.ctrs, draws := e.draws, q := e.q, fr := e.fr, air := e.air, pl := e.pl, led := e.led, cmd := e.cmd, bal := e.bal, up := e.up, sto := e.sto, loc := e.loc };
      (∀ t x, eff (.rebuild t x) f) ∧ (∀ t x, eff (.campaignCreate t x) f) ∧ (∀ t x, eff (.enrol t x) f))
end

