-- ==== Sys2Proof/Laws/Memory.lean ====
section
/-!
SUPPORT. Keyed lists and word memories: what a write leaves at every address, and that every operation keeps the canonical form.
-/

namespace Sys2Proof

variable {α : Type}

theorem NMap.find_put_same (m : NMap α) (k : Nat) (v : α) : NMap.find (NMap.put m k v) k = some v := by
  induction m with
  | nil => simp [NMap.put, NMap.find]
  | cons p r ih =>
    obtain ⟨j, w⟩ := p
    simp only [NMap.put]
    split
    · simp [NMap.find]
    · split
      · simp [NMap.find]
      · rename_i h1 h2
        simp only [NMap.find]
        rw [if_neg (by omega), ih]

theorem NMap.find_put_other (m : NMap α) (k l : Nat) (v : α) (h : l ≠ k) : NMap.find (NMap.put m k v) l = NMap.find m l := by
  induction m with
  | nil => simp [NMap.put, NMap.find, h.symm]
  | cons p r ih =>
    obtain ⟨j, w⟩ := p
    simp only [NMap.put]
    split
    · simp [NMap.find, h.symm]
    · split
      · rename_i h2
        subst h2
        simp [NMap.find, h.symm]
      · simp [NMap.find, ih]

theorem NMap.find_del_other (m : NMap α) (k l : Nat) (h : l ≠ k) : NMap.find (NMap.del m k) l = NMap.find m l := by
  induction m with
  | nil => rfl
  | cons p r ih =>
    obtain ⟨j, w⟩ := p
    simp only [NMap.del]
    split
    · rename_i h1
      subst h1
      simp [NMap.find, h.symm]
    · simp [NMap.find, ih]

theorem Memory.wfFrom_mono {m : Memory} {lo hi : Nat} (h : hi ≤ lo) (w : Memory.wfFrom lo m = true) :
    Memory.wfFrom hi m = true := by
  cases m with
  | nil => rfl
  | cons p r =>
    obtain ⟨a, v⟩ := p
    simp only [Memory.wfFrom, Bool.and_eq_true, decide_eq_true_eq] at w ⊢
    exact ⟨⟨by omega, w.1.2⟩, w.2⟩

theorem Memory.find_below {m : Memory} {lo k : Nat} (w : Memory.wfFrom lo m = true) (h : k < lo) : NMap.find m k = none := by
  induction m generalizing lo with
  | nil => rfl
  | cons p r ih =>
    obtain ⟨a, v⟩ := p
    simp only [Memory.wfFrom, Bool.and_eq_true, decide_eq_true_eq] at w
    simp only [NMap.find]
    rw [if_neg (by omega)]
    exact ih w.2 (by omega)

theorem Memory.put_wf {m : Memory} {lo a : Nat} {v : Word} (w : Memory.wfFrom lo m = true) (h : lo ≤ a) (hv : v ≠ 0) :
    Memory.wfFrom lo (NMap.put m a v) = true := by
  induction m generalizing lo with
  | nil =>
    simp only [NMap.put, Memory.wfFrom, Bool.and_eq_true, decide_eq_true_eq]
    exact ⟨⟨h, hv⟩, trivial⟩
  | cons p r ih =>
    obtain ⟨b, u⟩ := p
    simp only [Memory.wfFrom, Bool.and_eq_true, decide_eq_true_eq] at w
    simp only [NMap.put]
    split
    · simp only [Memory.wfFrom, Bool.and_eq_true, decide_eq_true_eq]
      exact ⟨⟨h, hv⟩, ⟨by omega, w.1.2⟩, w.2⟩
    · split
      · rename_i h2
        subst h2
        simp only [Memory.wfFrom, Bool.and_eq_true, decide_eq_true_eq]
        exact ⟨⟨h, hv⟩, w.2⟩
      · simp only [Memory.wfFrom, Bool.and_eq_true, decide_eq_true_eq]
        exact ⟨w.1, ih w.2 (by omega)⟩

theorem Memory.del_wf {m : Memory} {lo a : Nat} (w : Memory.wfFrom lo m = true) : Memory.wfFrom lo (NMap.del m a) = true := by
  induction m generalizing lo with
  | nil => rfl
  | cons p r ih =>
    obtain ⟨b, u⟩ := p
    simp only [Memory.wfFrom, Bool.and_eq_true, decide_eq_true_eq] at w
    simp only [NMap.del]
    split
    · exact Memory.wfFrom_mono (by omega) w.2
    · simp only [Memory.wfFrom, Bool.and_eq_true, decide_eq_true_eq]
      exact ⟨w.1, ih w.2⟩

/-- A write keeps the canonical form. -/
theorem Memory.write_wf {m : Memory} (a : Nat) (v : Word) (w : Memory.wf m = true) : Memory.wf (Memory.write m a v) = true := by
  unfold Memory.write
  split
  · exact Memory.del_wf w
  · exact Memory.put_wf w (Nat.zero_le a) ‹_›

/-- Words written one after the other keep the canonical form. -/
theorem Memory.writeAll_wf (ws : List Word) : ∀ {m : Memory} (a : Nat), Memory.wf m = true → Memory.wf (Memory.writeAll m a ws) = true := by
  induction ws with
  | nil => intro m a w; exact w
  | cons v r ih => intro m a w; exact ih (a + 1) (Memory.write_wf a v w)

/-- The memory that lists nothing has the canonical form. -/
theorem Memory.nil_wf : Memory.wf [] = true := rfl

/-- A word reads back as it was written. -/
theorem Memory.read_write_same {m : Memory} (a : Nat) (v : Word) (w : Memory.wf m = true) :
    Memory.read (Memory.write m a v) a = v := by
  unfold Memory.read Memory.write NMap.look
  split
  · rename_i h
    subst h
    have key : ∀ (m : Memory) (lo : Nat), Memory.wfFrom lo m = true → NMap.find (NMap.del m a) a = none := by
      intro m
      induction m with
      | nil => intro _ _; rfl
      | cons p r ih =>
        obtain ⟨b, u⟩ := p
        intro lo w
        simp only [Memory.wfFrom, Bool.and_eq_true, decide_eq_true_eq] at w
        simp only [NMap.del]
        split
        · rename_i h1
          subst h1
          exact Memory.find_below w.2 (by omega)
        · rename_i h1
          simp only [NMap.find, if_neg h1]
          exact ih _ w.2
    rw [key m 0 w]
    rfl
  · rw [NMap.find_put_same]
    rfl

/-- A write leaves every other address as it was. -/
theorem Memory.read_write_other (m : Memory) {a b : Nat} (v : Word) (h : b ≠ a) :
    Memory.read (Memory.write m a v) b = Memory.read m b := by
  unfold Memory.read Memory.write NMap.look
  split
  · rw [NMap.find_del_other m a b h]
  · rw [NMap.find_put_other m a b v h]

end Sys2Proof
end

