-- ==== Sys2Proof/Laws/State.lean ====
section
/-!
SUPPORT. Updates of the device, field by field: what each one leaves as it was.
-/

namespace Sys2Proof.Machine

@[simp] theorem Dev.emit_variant (d : Dev) (o : Out) : (d.emit o).variant = d.variant := rfl
@[simp] theorem Dev.emit_clk (d : Dev) (o : Out) : (d.emit o).clk = d.clk := rfl
@[simp] theorem Dev.emit_ctrs (d : Dev) (o : Out) : (d.emit o).ctrs = d.ctrs := rfl
@[simp] theorem Dev.emit_draws (d : Dev) (o : Out) : (d.emit o).draws = d.draws := rfl
@[simp] theorem Dev.emit_cfg (d : Dev) (o : Out) : (d.emit o).cfg = d.cfg := rfl
@[simp] theorem Dev.emit_tb (d : Dev) (o : Out) : (d.emit o).tb = d.tb := rfl
@[simp] theorem Dev.emit_pw (d : Dev) (o : Out) : (d.emit o).pw = d.pw := rfl
@[simp] theorem Dev.emit_q (d : Dev) (o : Out) : (d.emit o).q = d.q := rfl
@[simp] theorem Dev.emit_fr (d : Dev) (o : Out) : (d.emit o).fr = d.fr := rfl
@[simp] theorem Dev.emit_air (d : Dev) (o : Out) : (d.emit o).air = d.air := rfl
@[simp] theorem Dev.emit_pl (d : Dev) (o : Out) : (d.emit o).pl = d.pl := rfl
@[simp] theorem Dev.emit_led (d : Dev) (o : Out) : (d.emit o).led = d.led := rfl
@[simp] theorem Dev.emit_cmd (d : Dev) (o : Out) : (d.emit o).cmd = d.cmd := rfl
@[simp] theorem Dev.emit_bal (d : Dev) (o : Out) : (d.emit o).bal = d.bal := rfl
@[simp] theorem Dev.emit_met (d : Dev) (o : Out) : (d.emit o).met = d.met := rfl
@[simp] theorem Dev.emit_leg (d : Dev) (o : Out) : (d.emit o).leg = d.leg := rfl
@[simp] theorem Dev.emit_mir (d : Dev) (o : Out) : (d.emit o).mir = d.mir := rfl
@[simp] theorem Dev.emit_up (d : Dev) (o : Out) : (d.emit o).up = d.up := rfl
@[simp] theorem Dev.emit_sto (d : Dev) (o : Out) : (d.emit o).sto = d.sto := rfl
@[simp] theorem Dev.emit_evr (d : Dev) (o : Out) : (d.emit o).evr = d.evr := rfl
@[simp] theorem Dev.emit_pair (d : Dev) (o : Out) : (d.emit o).pair = d.pair := rfl
@[simp] theorem Dev.emit_disp (d : Dev) (o : Out) : (d.emit o).disp = d.disp := rfl
@[simp] theorem Dev.emit_loc (d : Dev) (o : Out) : (d.emit o).loc = d.loc := rfl
@[simp] theorem Dev.emit_idn (d : Dev) (o : Out) : (d.emit o).idn = d.idn := rfl
@[simp] theorem Dev.emit_boot (d : Dev) (o : Out) : (d.emit o).boot = d.boot := rfl

@[simp] theorem Dev.countN_variant (d : Dev) (f : Fld) (n : Nat) : (d.countN f n).variant = d.variant := rfl
@[simp] theorem Dev.countN_clk (d : Dev) (f : Fld) (n : Nat) : (d.countN f n).clk = d.clk := rfl
@[simp] theorem Dev.countN_out (d : Dev) (f : Fld) (n : Nat) : (d.countN f n).out = d.out := rfl
@[simp] theorem Dev.countN_draws (d : Dev) (f : Fld) (n : Nat) : (d.countN f n).draws = d.draws := rfl
@[simp] theorem Dev.countN_cfg (d : Dev) (f : Fld) (n : Nat) : (d.countN f n).cfg = d.cfg := rfl
@[simp] theorem Dev.countN_tb (d : Dev) (f : Fld) (n : Nat) : (d.countN f n).tb = d.tb := rfl
@[simp] theorem Dev.countN_pw (d : Dev) (f : Fld) (n : Nat) : (d.countN f n).pw = d.pw := rfl
@[simp] theorem Dev.countN_q (d : Dev) (f : Fld) (n : Nat) : (d.countN f n).q = d.q := rfl
@[simp] theorem Dev.countN_fr (d : Dev) (f : Fld) (n : Nat) : (d.countN f n).fr = d.fr := rfl
@[simp] theorem Dev.countN_air (d : Dev) (f : Fld) (n : Nat) : (d.countN f n).air = d.air := rfl
@[simp] theorem Dev.countN_pl (d : Dev) (f : Fld) (n : Nat) : (d.countN f n).pl = d.pl := rfl
@[simp] theorem Dev.countN_led (d : Dev) (f : Fld) (n : Nat) : (d.countN f n).led = d.led := rfl
@[simp] theorem Dev.countN_cmd (d : Dev) (f : Fld) (n : Nat) : (d.countN f n).cmd = d.cmd := rfl
@[simp] theorem Dev.countN_bal (d : Dev) (f : Fld) (n : Nat) : (d.countN f n).bal = d.bal := rfl
@[simp] theorem Dev.countN_met (d : Dev) (f : Fld) (n : Nat) : (d.countN f n).met = d.met := rfl
@[simp] theorem Dev.countN_leg (d : Dev) (f : Fld) (n : Nat) : (d.countN f n).leg = d.leg := rfl
@[simp] theorem Dev.countN_mir (d : Dev) (f : Fld) (n : Nat) : (d.countN f n).mir = d.mir := rfl
@[simp] theorem Dev.countN_up (d : Dev) (f : Fld) (n : Nat) : (d.countN f n).up = d.up := rfl
@[simp] theorem Dev.countN_sto (d : Dev) (f : Fld) (n : Nat) : (d.countN f n).sto = d.sto := rfl
@[simp] theorem Dev.countN_evr (d : Dev) (f : Fld) (n : Nat) : (d.countN f n).evr = d.evr := rfl
@[simp] theorem Dev.countN_pair (d : Dev) (f : Fld) (n : Nat) : (d.countN f n).pair = d.pair := rfl
@[simp] theorem Dev.countN_disp (d : Dev) (f : Fld) (n : Nat) : (d.countN f n).disp = d.disp := rfl
@[simp] theorem Dev.countN_loc (d : Dev) (f : Fld) (n : Nat) : (d.countN f n).loc = d.loc := rfl
@[simp] theorem Dev.countN_idn (d : Dev) (f : Fld) (n : Nat) : (d.countN f n).idn = d.idn := rfl
@[simp] theorem Dev.countN_boot (d : Dev) (f : Fld) (n : Nat) : (d.countN f n).boot = d.boot := rfl

@[simp] theorem Dev.count_variant (d : Dev) (f : Fld) : (d.count f).variant = d.variant := rfl
@[simp] theorem Dev.count_clk (d : Dev) (f : Fld) : (d.count f).clk = d.clk := rfl
@[simp] theorem Dev.count_out (d : Dev) (f : Fld) : (d.count f).out = d.out := rfl
@[simp] theorem Dev.count_draws (d : Dev) (f : Fld) : (d.count f).draws = d.draws := rfl
@[simp] theorem Dev.count_cfg (d : Dev) (f : Fld) : (d.count f).cfg = d.cfg := rfl
@[simp] theorem Dev.count_tb (d : Dev) (f : Fld) : (d.count f).tb = d.tb := rfl
@[simp] theorem Dev.count_pw (d : Dev) (f : Fld) : (d.count f).pw = d.pw := rfl
@[simp] theorem Dev.count_q (d : Dev) (f : Fld) : (d.count f).q = d.q := rfl
@[simp] theorem Dev.count_fr (d : Dev) (f : Fld) : (d.count f).fr = d.fr := rfl
@[simp] theorem Dev.count_air (d : Dev) (f : Fld) : (d.count f).air = d.air := rfl
@[simp] theorem Dev.count_pl (d : Dev) (f : Fld) : (d.count f).pl = d.pl := rfl
@[simp] theorem Dev.count_led (d : Dev) (f : Fld) : (d.count f).led = d.led := rfl
@[simp] theorem Dev.count_cmd (d : Dev) (f : Fld) : (d.count f).cmd = d.cmd := rfl
@[simp] theorem Dev.count_bal (d : Dev) (f : Fld) : (d.count f).bal = d.bal := rfl
@[simp] theorem Dev.count_met (d : Dev) (f : Fld) : (d.count f).met = d.met := rfl
@[simp] theorem Dev.count_leg (d : Dev) (f : Fld) : (d.count f).leg = d.leg := rfl
@[simp] theorem Dev.count_mir (d : Dev) (f : Fld) : (d.count f).mir = d.mir := rfl
@[simp] theorem Dev.count_up (d : Dev) (f : Fld) : (d.count f).up = d.up := rfl
@[simp] theorem Dev.count_sto (d : Dev) (f : Fld) : (d.count f).sto = d.sto := rfl
@[simp] theorem Dev.count_evr (d : Dev) (f : Fld) : (d.count f).evr = d.evr := rfl
@[simp] theorem Dev.count_pair (d : Dev) (f : Fld) : (d.count f).pair = d.pair := rfl
@[simp] theorem Dev.count_disp (d : Dev) (f : Fld) : (d.count f).disp = d.disp := rfl
@[simp] theorem Dev.count_loc (d : Dev) (f : Fld) : (d.count f).loc = d.loc := rfl
@[simp] theorem Dev.count_idn (d : Dev) (f : Fld) : (d.count f).idn = d.idn := rfl
@[simp] theorem Dev.count_boot (d : Dev) (f : Fld) : (d.count f).boot = d.boot := rfl

@[simp] theorem Dev.setCtr_variant (d : Dev) (f : Fld) (n : Nat) : (d.setCtr f n).variant = d.variant := rfl
@[simp] theorem Dev.setCtr_clk (d : Dev) (f : Fld) (n : Nat) : (d.setCtr f n).clk = d.clk := rfl
@[simp] theorem Dev.setCtr_out (d : Dev) (f : Fld) (n : Nat) : (d.setCtr f n).out = d.out := rfl
@[simp] theorem Dev.setCtr_draws (d : Dev) (f : Fld) (n : Nat) : (d.setCtr f n).draws = d.draws := rfl
@[simp] theorem Dev.setCtr_cfg (d : Dev) (f : Fld) (n : Nat) : (d.setCtr f n).cfg = d.cfg := rfl
@[simp] theorem Dev.setCtr_tb (d : Dev) (f : Fld) (n : Nat) : (d.setCtr f n).tb = d.tb := rfl
@[simp] theorem Dev.setCtr_pw (d : Dev) (f : Fld) (n : Nat) : (d.setCtr f n).pw = d.pw := rfl
@[simp] theorem Dev.setCtr_q (d : Dev) (f : Fld) (n : Nat) : (d.setCtr f n).q = d.q := rfl
@[simp] theorem Dev.setCtr_fr (d : Dev) (f : Fld) (n : Nat) : (d.setCtr f n).fr = d.fr := rfl
@[simp] theorem Dev.setCtr_air (d : Dev) (f : Fld) (n : Nat) : (d.setCtr f n).air = d.air := rfl
@[simp] theorem Dev.setCtr_pl (d : Dev) (f : Fld) (n : Nat) : (d.setCtr f n).pl = d.pl := rfl
@[simp] theorem Dev.setCtr_led (d : Dev) (f : Fld) (n : Nat) : (d.setCtr f n).led = d.led := rfl
@[simp] theorem Dev.setCtr_cmd (d : Dev) (f : Fld) (n : Nat) : (d.setCtr f n).cmd = d.cmd := rfl
@[simp] theorem Dev.setCtr_bal (d : Dev) (f : Fld) (n : Nat) : (d.setCtr f n).bal = d.bal := rfl
@[simp] theorem Dev.setCtr_met (d : Dev) (f : Fld) (n : Nat) : (d.setCtr f n).met = d.met := rfl
@[simp] theorem Dev.setCtr_leg (d : Dev) (f : Fld) (n : Nat) : (d.setCtr f n).leg = d.leg := rfl
@[simp] theorem Dev.setCtr_mir (d : Dev) (f : Fld) (n : Nat) : (d.setCtr f n).mir = d.mir := rfl
@[simp] theorem Dev.setCtr_up (d : Dev) (f : Fld) (n : Nat) : (d.setCtr f n).up = d.up := rfl
@[simp] theorem Dev.setCtr_sto (d : Dev) (f : Fld) (n : Nat) : (d.setCtr f n).sto = d.sto := rfl
@[simp] theorem Dev.setCtr_evr (d : Dev) (f : Fld) (n : Nat) : (d.setCtr f n).evr = d.evr := rfl
@[simp] theorem Dev.setCtr_pair (d : Dev) (f : Fld) (n : Nat) : (d.setCtr f n).pair = d.pair := rfl
@[simp] theorem Dev.setCtr_disp (d : Dev) (f : Fld) (n : Nat) : (d.setCtr f n).disp = d.disp := rfl
@[simp] theorem Dev.setCtr_loc (d : Dev) (f : Fld) (n : Nat) : (d.setCtr f n).loc = d.loc := rfl
@[simp] theorem Dev.setCtr_idn (d : Dev) (f : Fld) (n : Nat) : (d.setCtr f n).idn = d.idn := rfl
@[simp] theorem Dev.setCtr_boot (d : Dev) (f : Fld) (n : Nat) : (d.setCtr f n).boot = d.boot := rfl

@[simp] theorem Dev.setDisp_variant (d : Dev) (x : Display) : (d.setDisp x).variant = d.variant := rfl
@[simp] theorem Dev.setDisp_clk (d : Dev) (x : Display) : (d.setDisp x).clk = d.clk := rfl
@[simp] theorem Dev.setDisp_out (d : Dev) (x : Display) : (d.setDisp x).out = d.out := rfl
@[simp] theorem Dev.setDisp_ctrs (d : Dev) (x : Display) : (d.setDisp x).ctrs = d.ctrs := rfl
@[simp] theorem Dev.setDisp_draws (d : Dev) (x : Display) : (d.setDisp x).draws = d.draws := rfl
@[simp] theorem Dev.setDisp_cfg (d : Dev) (x : Display) : (d.setDisp x).cfg = d.cfg := rfl
@[simp] theorem Dev.setDisp_tb (d : Dev) (x : Display) : (d.setDisp x).tb = d.tb := rfl
@[simp] theorem Dev.setDisp_pw (d : Dev) (x : Display) : (d.setDisp x).pw = d.pw := rfl
@[simp] theorem Dev.setDisp_q (d : Dev) (x : Display) : (d.setDisp x).q = d.q := rfl
@[simp] theorem Dev.setDisp_fr (d : Dev) (x : Display) : (d.setDisp x).fr = d.fr := rfl
@[simp] theorem Dev.setDisp_air (d : Dev) (x : Display) : (d.setDisp x).air = d.air := rfl
@[simp] theorem Dev.setDisp_pl (d : Dev) (x : Display) : (d.setDisp x).pl = d.pl := rfl
@[simp] theorem Dev.setDisp_led (d : Dev) (x : Display) : (d.setDisp x).led = d.led := rfl
@[simp] theorem Dev.setDisp_cmd (d : Dev) (x : Display) : (d.setDisp x).cmd = d.cmd := rfl
@[simp] theorem Dev.setDisp_bal (d : Dev) (x : Display) : (d.setDisp x).bal = d.bal := rfl
@[simp] theorem Dev.setDisp_met (d : Dev) (x : Display) : (d.setDisp x).met = d.met := rfl
@[simp] theorem Dev.setDisp_leg (d : Dev) (x : Display) : (d.setDisp x).leg = d.leg := rfl
@[simp] theorem Dev.setDisp_mir (d : Dev) (x : Display) : (d.setDisp x).mir = d.mir := rfl
@[simp] theorem Dev.setDisp_up (d : Dev) (x : Display) : (d.setDisp x).up = d.up := rfl
@[simp] theorem Dev.setDisp_sto (d : Dev) (x : Display) : (d.setDisp x).sto = d.sto := rfl
@[simp] theorem Dev.setDisp_evr (d : Dev) (x : Display) : (d.setDisp x).evr = d.evr := rfl
@[simp] theorem Dev.setDisp_pair (d : Dev) (x : Display) : (d.setDisp x).pair = d.pair := rfl
@[simp] theorem Dev.setDisp_loc (d : Dev) (x : Display) : (d.setDisp x).loc = d.loc := rfl
@[simp] theorem Dev.setDisp_idn (d : Dev) (x : Display) : (d.setDisp x).idn = d.idn := rfl
@[simp] theorem Dev.setDisp_boot (d : Dev) (x : Display) : (d.setDisp x).boot = d.boot := rfl

@[simp] theorem Dev.setTb_variant (d : Dev) (b : Timebase) : (d.setTb b).variant = d.variant := rfl
@[simp] theorem Dev.setTb_clk (d : Dev) (b : Timebase) : (d.setTb b).clk = d.clk := rfl
@[simp] theorem Dev.setTb_out (d : Dev) (b : Timebase) : (d.setTb b).out = d.out := rfl
@[simp] theorem Dev.setTb_ctrs (d : Dev) (b : Timebase) : (d.setTb b).ctrs = d.ctrs := rfl
@[simp] theorem Dev.setTb_draws (d : Dev) (b : Timebase) : (d.setTb b).draws = d.draws := rfl
@[simp] theorem Dev.setTb_cfg (d : Dev) (b : Timebase) : (d.setTb b).cfg = d.cfg := rfl
@[simp] theorem Dev.setTb_pw (d : Dev) (b : Timebase) : (d.setTb b).pw = d.pw := rfl
@[simp] theorem Dev.setTb_q (d : Dev) (b : Timebase) : (d.setTb b).q = d.q := rfl
@[simp] theorem Dev.setTb_fr (d : Dev) (b : Timebase) : (d.setTb b).fr = d.fr := rfl
@[simp] theorem Dev.setTb_air (d : Dev) (b : Timebase) : (d.setTb b).air = d.air := rfl
@[simp] theorem Dev.setTb_pl (d : Dev) (b : Timebase) : (d.setTb b).pl = d.pl := rfl
@[simp] theorem Dev.setTb_led (d : Dev) (b : Timebase) : (d.setTb b).led = d.led := rfl
@[simp] theorem Dev.setTb_cmd (d : Dev) (b : Timebase) : (d.setTb b).cmd = d.cmd := rfl
@[simp] theorem Dev.setTb_bal (d : Dev) (b : Timebase) : (d.setTb b).bal = d.bal := rfl
@[simp] theorem Dev.setTb_met (d : Dev) (b : Timebase) : (d.setTb b).met = d.met := rfl
@[simp] theorem Dev.setTb_leg (d : Dev) (b : Timebase) : (d.setTb b).leg = d.leg := rfl
@[simp] theorem Dev.setTb_mir (d : Dev) (b : Timebase) : (d.setTb b).mir = d.mir := rfl
@[simp] theorem Dev.setTb_up (d : Dev) (b : Timebase) : (d.setTb b).up = d.up := rfl
@[simp] theorem Dev.setTb_sto (d : Dev) (b : Timebase) : (d.setTb b).sto = d.sto := rfl
@[simp] theorem Dev.setTb_evr (d : Dev) (b : Timebase) : (d.setTb b).evr = d.evr := rfl
@[simp] theorem Dev.setTb_pair (d : Dev) (b : Timebase) : (d.setTb b).pair = d.pair := rfl
@[simp] theorem Dev.setTb_disp (d : Dev) (b : Timebase) : (d.setTb b).disp = d.disp := rfl
@[simp] theorem Dev.setTb_loc (d : Dev) (b : Timebase) : (d.setTb b).loc = d.loc := rfl
@[simp] theorem Dev.setTb_idn (d : Dev) (b : Timebase) : (d.setTb b).idn = d.idn := rfl
@[simp] theorem Dev.setTb_boot (d : Dev) (b : Timebase) : (d.setTb b).boot = d.boot := rfl

@[simp] theorem Dev.setMet_variant (d : Dev) (m : Metro) : (d.setMet m).variant = d.variant := rfl
@[simp] theorem Dev.setMet_clk (d : Dev) (m : Metro) : (d.setMet m).clk = d.clk := rfl
@[simp] theorem Dev.setMet_out (d : Dev) (m : Metro) : (d.setMet m).out = d.out := rfl
@[simp] theorem Dev.setMet_ctrs (d : Dev) (m : Metro) : (d.setMet m).ctrs = d.ctrs := rfl
@[simp] theorem Dev.setMet_draws (d : Dev) (m : Metro) : (d.setMet m).draws = d.draws := rfl
@[simp] theorem Dev.setMet_cfg (d : Dev) (m : Metro) : (d.setMet m).cfg = d.cfg := rfl
@[simp] theorem Dev.setMet_tb (d : Dev) (m : Metro) : (d.setMet m).tb = d.tb := rfl
@[simp] theorem Dev.setMet_pw (d : Dev) (m : Metro) : (d.setMet m).pw = d.pw := rfl
@[simp] theorem Dev.setMet_q (d : Dev) (m : Metro) : (d.setMet m).q = d.q := rfl
@[simp] theorem Dev.setMet_fr (d : Dev) (m : Metro) : (d.setMet m).fr = d.fr := rfl
@[simp] theorem Dev.setMet_air (d : Dev) (m : Metro) : (d.setMet m).air = d.air := rfl
@[simp] theorem Dev.setMet_pl (d : Dev) (m : Metro) : (d.setMet m).pl = d.pl := rfl
@[simp] theorem Dev.setMet_led (d : Dev) (m : Metro) : (d.setMet m).led = d.led := rfl
@[simp] theorem Dev.setMet_cmd (d : Dev) (m : Metro) : (d.setMet m).cmd = d.cmd := rfl
@[simp] theorem Dev.setMet_bal (d : Dev) (m : Metro) : (d.setMet m).bal = d.bal := rfl
@[simp] theorem Dev.setMet_leg (d : Dev) (m : Metro) : (d.setMet m).leg = d.leg := rfl
@[simp] theorem Dev.setMet_mir (d : Dev) (m : Metro) : (d.setMet m).mir = d.mir := rfl
@[simp] theorem Dev.setMet_up (d : Dev) (m : Metro) : (d.setMet m).up = d.up := rfl
@[simp] theorem Dev.setMet_sto (d : Dev) (m : Metro) : (d.setMet m).sto = d.sto := rfl
@[simp] theorem Dev.setMet_evr (d : Dev) (m : Metro) : (d.setMet m).evr = d.evr := rfl
@[simp] theorem Dev.setMet_pair (d : Dev) (m : Metro) : (d.setMet m).pair = d.pair := rfl
@[simp] theorem Dev.setMet_disp (d : Dev) (m : Metro) : (d.setMet m).disp = d.disp := rfl
@[simp] theorem Dev.setMet_loc (d : Dev) (m : Metro) : (d.setMet m).loc = d.loc := rfl
@[simp] theorem Dev.setMet_idn (d : Dev) (m : Metro) : (d.setMet m).idn = d.idn := rfl
@[simp] theorem Dev.setMet_boot (d : Dev) (m : Metro) : (d.setMet m).boot = d.boot := rfl

@[simp] theorem Dev.setMir_variant (d : Dev) (m : Mirror) : (d.setMir m).variant = d.variant := rfl
@[simp] theorem Dev.setMir_clk (d : Dev) (m : Mirror) : (d.setMir m).clk = d.clk := rfl
@[simp] theorem Dev.setMir_out (d : Dev) (m : Mirror) : (d.setMir m).out = d.out := rfl
@[simp] theorem Dev.setMir_ctrs (d : Dev) (m : Mirror) : (d.setMir m).ctrs = d.ctrs := rfl
@[simp] theorem Dev.setMir_draws (d : Dev) (m : Mirror) : (d.setMir m).draws = d.draws := rfl
@[simp] theorem Dev.setMir_cfg (d : Dev) (m : Mirror) : (d.setMir m).cfg = d.cfg := rfl
@[simp] theorem Dev.setMir_tb (d : Dev) (m : Mirror) : (d.setMir m).tb = d.tb := rfl
@[simp] theorem Dev.setMir_pw (d : Dev) (m : Mirror) : (d.setMir m).pw = d.pw := rfl
@[simp] theorem Dev.setMir_q (d : Dev) (m : Mirror) : (d.setMir m).q = d.q := rfl
@[simp] theorem Dev.setMir_fr (d : Dev) (m : Mirror) : (d.setMir m).fr = d.fr := rfl
@[simp] theorem Dev.setMir_air (d : Dev) (m : Mirror) : (d.setMir m).air = d.air := rfl
@[simp] theorem Dev.setMir_pl (d : Dev) (m : Mirror) : (d.setMir m).pl = d.pl := rfl
@[simp] theorem Dev.setMir_led (d : Dev) (m : Mirror) : (d.setMir m).led = d.led := rfl
@[simp] theorem Dev.setMir_cmd (d : Dev) (m : Mirror) : (d.setMir m).cmd = d.cmd := rfl
@[simp] theorem Dev.setMir_bal (d : Dev) (m : Mirror) : (d.setMir m).bal = d.bal := rfl
@[simp] theorem Dev.setMir_met (d : Dev) (m : Mirror) : (d.setMir m).met = d.met := rfl
@[simp] theorem Dev.setMir_leg (d : Dev) (m : Mirror) : (d.setMir m).leg = d.leg := rfl
@[simp] theorem Dev.setMir_up (d : Dev) (m : Mirror) : (d.setMir m).up = d.up := rfl
@[simp] theorem Dev.setMir_sto (d : Dev) (m : Mirror) : (d.setMir m).sto = d.sto := rfl
@[simp] theorem Dev.setMir_evr (d : Dev) (m : Mirror) : (d.setMir m).evr = d.evr := rfl
@[simp] theorem Dev.setMir_pair (d : Dev) (m : Mirror) : (d.setMir m).pair = d.pair := rfl
@[simp] theorem Dev.setMir_disp (d : Dev) (m : Mirror) : (d.setMir m).disp = d.disp := rfl
@[simp] theorem Dev.setMir_loc (d : Dev) (m : Mirror) : (d.setMir m).loc = d.loc := rfl
@[simp] theorem Dev.setMir_idn (d : Dev) (m : Mirror) : (d.setMir m).idn = d.idn := rfl
@[simp] theorem Dev.setMir_boot (d : Dev) (m : Mirror) : (d.setMir m).boot = d.boot := rfl

@[simp] theorem Dev.setBal_variant (d : Dev) (b : Balance) : (d.setBal b).variant = d.variant := rfl
@[simp] theorem Dev.setBal_clk (d : Dev) (b : Balance) : (d.setBal b).clk = d.clk := rfl
@[simp] theorem Dev.setBal_out (d : Dev) (b : Balance) : (d.setBal b).out = d.out := rfl
@[simp] theorem Dev.setBal_ctrs (d : Dev) (b : Balance) : (d.setBal b).ctrs = d.ctrs := rfl
@[simp] theorem Dev.setBal_draws (d : Dev) (b : Balance) : (d.setBal b).draws = d.draws := rfl
@[simp] theorem Dev.setBal_cfg (d : Dev) (b : Balance) : (d.setBal b).cfg = d.cfg := rfl
@[simp] theorem Dev.setBal_tb (d : Dev) (b : Balance) : (d.setBal b).tb = d.tb := rfl
@[simp] theorem Dev.setBal_pw (d : Dev) (b : Balance) : (d.setBal b).pw = d.pw := rfl
@[simp] theorem Dev.setBal_q (d : Dev) (b : Balance) : (d.setBal b).q = d.q := rfl
@[simp] theorem Dev.setBal_fr (d : Dev) (b : Balance) : (d.setBal b).fr = d.fr := rfl
@[simp] theorem Dev.setBal_air (d : Dev) (b : Balance) : (d.setBal b).air = d.air := rfl
@[simp] theorem Dev.setBal_pl (d : Dev) (b : Balance) : (d.setBal b).pl = d.pl := rfl
@[simp] theorem Dev.setBal_led (d : Dev) (b : Balance) : (d.setBal b).led = d.led := rfl
@[simp] theorem Dev.setBal_cmd (d : Dev) (b : Balance) : (d.setBal b).cmd = d.cmd := rfl
@[simp] theorem Dev.setBal_met (d : Dev) (b : Balance) : (d.setBal b).met = d.met := rfl
@[simp] theorem Dev.setBal_leg (d : Dev) (b : Balance) : (d.setBal b).leg = d.leg := rfl
@[simp] theorem Dev.setBal_mir (d : Dev) (b : Balance) : (d.setBal b).mir = d.mir := rfl
@[simp] theorem Dev.setBal_up (d : Dev) (b : Balance) : (d.setBal b).up = d.up := rfl
@[simp] theorem Dev.setBal_sto (d : Dev) (b : Balance) : (d.setBal b).sto = d.sto := rfl
@[simp] theorem Dev.setBal_evr (d : Dev) (b : Balance) : (d.setBal b).evr = d.evr := rfl
@[simp] theorem Dev.setBal_pair (d : Dev) (b : Balance) : (d.setBal b).pair = d.pair := rfl
@[simp] theorem Dev.setBal_disp (d : Dev) (b : Balance) : (d.setBal b).disp = d.disp := rfl
@[simp] theorem Dev.setBal_loc (d : Dev) (b : Balance) : (d.setBal b).loc = d.loc := rfl
@[simp] theorem Dev.setBal_idn (d : Dev) (b : Balance) : (d.setBal b).idn = d.idn := rfl
@[simp] theorem Dev.setBal_boot (d : Dev) (b : Balance) : (d.setBal b).boot = d.boot := rfl

@[simp] theorem Dev.setLeg_variant (d : Dev) (x : Legal) : (d.setLeg x).variant = d.variant := rfl
@[simp] theorem Dev.setLeg_clk (d : Dev) (x : Legal) : (d.setLeg x).clk = d.clk := rfl
@[simp] theorem Dev.setLeg_out (d : Dev) (x : Legal) : (d.setLeg x).out = d.out := rfl
@[simp] theorem Dev.setLeg_ctrs (d : Dev) (x : Legal) : (d.setLeg x).ctrs = d.ctrs := rfl
@[simp] theorem Dev.setLeg_draws (d : Dev) (x : Legal) : (d.setLeg x).draws = d.draws := rfl
@[simp] theorem Dev.setLeg_cfg (d : Dev) (x : Legal) : (d.setLeg x).cfg = d.cfg := rfl
@[simp] theorem Dev.setLeg_tb (d : Dev) (x : Legal) : (d.setLeg x).tb = d.tb := rfl
@[simp] theorem Dev.setLeg_pw (d : Dev) (x : Legal) : (d.setLeg x).pw = d.pw := rfl
@[simp] theorem Dev.setLeg_q (d : Dev) (x : Legal) : (d.setLeg x).q = d.q := rfl
@[simp] theorem Dev.setLeg_fr (d : Dev) (x : Legal) : (d.setLeg x).fr = d.fr := rfl
@[simp] theorem Dev.setLeg_air (d : Dev) (x : Legal) : (d.setLeg x).air = d.air := rfl
@[simp] theorem Dev.setLeg_pl (d : Dev) (x : Legal) : (d.setLeg x).pl = d.pl := rfl
@[simp] theorem Dev.setLeg_led (d : Dev) (x : Legal) : (d.setLeg x).led = d.led := rfl
@[simp] theorem Dev.setLeg_cmd (d : Dev) (x : Legal) : (d.setLeg x).cmd = d.cmd := rfl
@[simp] theorem Dev.setLeg_bal (d : Dev) (x : Legal) : (d.setLeg x).bal = d.bal := rfl
@[simp] theorem Dev.setLeg_met (d : Dev) (x : Legal) : (d.setLeg x).met = d.met := rfl
@[simp] theorem Dev.setLeg_mir (d : Dev) (x : Legal) : (d.setLeg x).mir = d.mir := rfl
@[simp] theorem Dev.setLeg_up (d : Dev) (x : Legal) : (d.setLeg x).up = d.up := rfl
@[simp] theorem Dev.setLeg_sto (d : Dev) (x : Legal) : (d.setLeg x).sto = d.sto := rfl
@[simp] theorem Dev.setLeg_evr (d : Dev) (x : Legal) : (d.setLeg x).evr = d.evr := rfl
@[simp] theorem Dev.setLeg_pair (d : Dev) (x : Legal) : (d.setLeg x).pair = d.pair := rfl
@[simp] theorem Dev.setLeg_disp (d : Dev) (x : Legal) : (d.setLeg x).disp = d.disp := rfl
@[simp] theorem Dev.setLeg_loc (d : Dev) (x : Legal) : (d.setLeg x).loc = d.loc := rfl
@[simp] theorem Dev.setLeg_idn (d : Dev) (x : Legal) : (d.setLeg x).idn = d.idn := rfl
@[simp] theorem Dev.setLeg_boot (d : Dev) (x : Legal) : (d.setLeg x).boot = d.boot := rfl

@[simp] theorem Dev.setSto_variant (d : Dev) (x : Store) : (d.setSto x).variant = d.variant := rfl
@[simp] theorem Dev.setSto_clk (d : Dev) (x : Store) : (d.setSto x).clk = d.clk := rfl
@[simp] theorem Dev.setSto_out (d : Dev) (x : Store) : (d.setSto x).out = d.out := rfl
@[simp] theorem Dev.setSto_ctrs (d : Dev) (x : Store) : (d.setSto x).ctrs = d.ctrs := rfl
@[simp] theorem Dev.setSto_draws (d : Dev) (x : Store) : (d.setSto x).draws = d.draws := rfl
@[simp] theorem Dev.setSto_cfg (d : Dev) (x : Store) : (d.setSto x).cfg = d.cfg := rfl
@[simp] theorem Dev.setSto_tb (d : Dev) (x : Store) : (d.setSto x).tb = d.tb := rfl
@[simp] theorem Dev.setSto_pw (d : Dev) (x : Store) : (d.setSto x).pw = d.pw := rfl
@[simp] theorem Dev.setSto_q (d : Dev) (x : Store) : (d.setSto x).q = d.q := rfl
@[simp] theorem Dev.setSto_fr (d : Dev) (x : Store) : (d.setSto x).fr = d.fr := rfl
@[simp] theorem Dev.setSto_air (d : Dev) (x : Store) : (d.setSto x).air = d.air := rfl
@[simp] theorem Dev.setSto_pl (d : Dev) (x : Store) : (d.setSto x).pl = d.pl := rfl
@[simp] theorem Dev.setSto_led (d : Dev) (x : Store) : (d.setSto x).led = d.led := rfl
@[simp] theorem Dev.setSto_cmd (d : Dev) (x : Store) : (d.setSto x).cmd = d.cmd := rfl
@[simp] theorem Dev.setSto_bal (d : Dev) (x : Store) : (d.setSto x).bal = d.bal := rfl
@[simp] theorem Dev.setSto_met (d : Dev) (x : Store) : (d.setSto x).met = d.met := rfl
@[simp] theorem Dev.setSto_leg (d : Dev) (x : Store) : (d.setSto x).leg = d.leg := rfl
@[simp] theorem Dev.setSto_mir (d : Dev) (x : Store) : (d.setSto x).mir = d.mir := rfl
@[simp] theorem Dev.setSto_up (d : Dev) (x : Store) : (d.setSto x).up = d.up := rfl
@[simp] theorem Dev.setSto_evr (d : Dev) (x : Store) : (d.setSto x).evr = d.evr := rfl
@[simp] theorem Dev.setSto_pair (d : Dev) (x : Store) : (d.setSto x).pair = d.pair := rfl
@[simp] theorem Dev.setSto_disp (d : Dev) (x : Store) : (d.setSto x).disp = d.disp := rfl
@[simp] theorem Dev.setSto_loc (d : Dev) (x : Store) : (d.setSto x).loc = d.loc := rfl
@[simp] theorem Dev.setSto_idn (d : Dev) (x : Store) : (d.setSto x).idn = d.idn := rfl
@[simp] theorem Dev.setSto_boot (d : Dev) (x : Store) : (d.setSto x).boot = d.boot := rfl

@[simp] theorem Dev.setCard_variant (d : Dev) (c : Card) : (d.setCard c).variant = d.variant := rfl
@[simp] theorem Dev.setCard_clk (d : Dev) (c : Card) : (d.setCard c).clk = d.clk := rfl
@[simp] theorem Dev.setCard_out (d : Dev) (c : Card) : (d.setCard c).out = d.out := rfl
@[simp] theorem Dev.setCard_ctrs (d : Dev) (c : Card) : (d.setCard c).ctrs = d.ctrs := rfl
@[simp] theorem Dev.setCard_draws (d : Dev) (c : Card) : (d.setCard c).draws = d.draws := rfl
@[simp] theorem Dev.setCard_cfg (d : Dev) (c : Card) : (d.setCard c).cfg = d.cfg := rfl
@[simp] theorem Dev.setCard_tb (d : Dev) (c : Card) : (d.setCard c).tb = d.tb := rfl
@[simp] theorem Dev.setCard_pw (d : Dev) (c : Card) : (d.setCard c).pw = d.pw := rfl
@[simp] theorem Dev.setCard_q (d : Dev) (c : Card) : (d.setCard c).q = d.q := rfl
@[simp] theorem Dev.setCard_fr (d : Dev) (c : Card) : (d.setCard c).fr = d.fr := rfl
@[simp] theorem Dev.setCard_air (d : Dev) (c : Card) : (d.setCard c).air = d.air := rfl
@[simp] theorem Dev.setCard_pl (d : Dev) (c : Card) : (d.setCard c).pl = d.pl := rfl
@[simp] theorem Dev.setCard_led (d : Dev) (c : Card) : (d.setCard c).led = d.led := rfl
@[simp] theorem Dev.setCard_cmd (d : Dev) (c : Card) : (d.setCard c).cmd = d.cmd := rfl
@[simp] theorem Dev.setCard_bal (d : Dev) (c : Card) : (d.setCard c).bal = d.bal := rfl
@[simp] theorem Dev.setCard_met (d : Dev) (c : Card) : (d.setCard c).met = d.met := rfl
@[simp] theorem Dev.setCard_leg (d : Dev) (c : Card) : (d.setCard c).leg = d.leg := rfl
@[simp] theorem Dev.setCard_mir (d : Dev) (c : Card) : (d.setCard c).mir = d.mir := rfl
@[simp] theorem Dev.setCard_up (d : Dev) (c : Card) : (d.setCard c).up = d.up := rfl
@[simp] theorem Dev.setCard_sto (d : Dev) (c : Card) : (d.setCard c).sto = d.sto := rfl
@[simp] theorem Dev.setCard_evr (d : Dev) (c : Card) : (d.setCard c).evr = d.evr := rfl
@[simp] theorem Dev.setCard_pair (d : Dev) (c : Card) : (d.setCard c).pair = d.pair := rfl
@[simp] theorem Dev.setCard_disp (d : Dev) (c : Card) : (d.setCard c).disp = d.disp := rfl
@[simp] theorem Dev.setCard_idn (d : Dev) (c : Card) : (d.setCard c).idn = d.idn := rfl
@[simp] theorem Dev.setCard_boot (d : Dev) (c : Card) : (d.setCard c).boot = d.boot := rfl

@[simp] theorem Dev.setUart_variant (d : Dev) (u : Nat) (x : Uart) : (d.setUart u x).variant = d.variant := rfl
@[simp] theorem Dev.setUart_clk (d : Dev) (u : Nat) (x : Uart) : (d.setUart u x).clk = d.clk := rfl
@[simp] theorem Dev.setUart_out (d : Dev) (u : Nat) (x : Uart) : (d.setUart u x).out = d.out := rfl
@[simp] theorem Dev.setUart_ctrs (d : Dev) (u : Nat) (x : Uart) : (d.setUart u x).ctrs = d.ctrs := rfl
@[simp] theorem Dev.setUart_draws (d : Dev) (u : Nat) (x : Uart) : (d.setUart u x).draws = d.draws := rfl
@[simp] theorem Dev.setUart_cfg (d : Dev) (u : Nat) (x : Uart) : (d.setUart u x).cfg = d.cfg := rfl
@[simp] theorem Dev.setUart_tb (d : Dev) (u : Nat) (x : Uart) : (d.setUart u x).tb = d.tb := rfl
@[simp] theorem Dev.setUart_pw (d : Dev) (u : Nat) (x : Uart) : (d.setUart u x).pw = d.pw := rfl
@[simp] theorem Dev.setUart_q (d : Dev) (u : Nat) (x : Uart) : (d.setUart u x).q = d.q := rfl
@[simp] theorem Dev.setUart_fr (d : Dev) (u : Nat) (x : Uart) : (d.setUart u x).fr = d.fr := rfl
@[simp] theorem Dev.setUart_air (d : Dev) (u : Nat) (x : Uart) : (d.setUart u x).air = d.air := rfl
@[simp] theorem Dev.setUart_pl (d : Dev) (u : Nat) (x : Uart) : (d.setUart u x).pl = d.pl := rfl
@[simp] theorem Dev.setUart_led (d : Dev) (u : Nat) (x : Uart) : (d.setUart u x).led = d.led := rfl
@[simp] theorem Dev.setUart_cmd (d : Dev) (u : Nat) (x : Uart) : (d.setUart u x).cmd = d.cmd := rfl
@[simp] theorem Dev.setUart_bal (d : Dev) (u : Nat) (x : Uart) : (d.setUart u x).bal = d.bal := rfl
@[simp] theorem Dev.setUart_met (d : Dev) (u : Nat) (x : Uart) : (d.setUart u x).met = d.met := rfl
@[simp] theorem Dev.setUart_leg (d : Dev) (u : Nat) (x : Uart) : (d.setUart u x).leg = d.leg := rfl
@[simp] theorem Dev.setUart_mir (d : Dev) (u : Nat) (x : Uart) : (d.setUart u x).mir = d.mir := rfl
@[simp] theorem Dev.setUart_up (d : Dev) (u : Nat) (x : Uart) : (d.setUart u x).up = d.up := rfl
@[simp] theorem Dev.setUart_sto (d : Dev) (u : Nat) (x : Uart) : (d.setUart u x).sto = d.sto := rfl
@[simp] theorem Dev.setUart_evr (d : Dev) (u : Nat) (x : Uart) : (d.setUart u x).evr = d.evr := rfl
@[simp] theorem Dev.setUart_pair (d : Dev) (u : Nat) (x : Uart) : (d.setUart u x).pair = d.pair := rfl
@[simp] theorem Dev.setUart_disp (d : Dev) (u : Nat) (x : Uart) : (d.setUart u x).disp = d.disp := rfl
@[simp] theorem Dev.setUart_idn (d : Dev) (u : Nat) (x : Uart) : (d.setUart u x).idn = d.idn := rfl
@[simp] theorem Dev.setUart_boot (d : Dev) (u : Nat) (x : Uart) : (d.setUart u x).boot = d.boot := rfl

@[simp] theorem Dev.setQueue_variant (d : Dev) (g c : Nat) (q : CQueue) : (d.setQueue g c q).variant = d.variant := rfl
@[simp] theorem Dev.setQueue_clk (d : Dev) (g c : Nat) (q : CQueue) : (d.setQueue g c q).clk = d.clk := rfl
@[simp] theorem Dev.setQueue_out (d : Dev) (g c : Nat) (q : CQueue) : (d.setQueue g c q).out = d.out := rfl
@[simp] theorem Dev.setQueue_ctrs (d : Dev) (g c : Nat) (q : CQueue) : (d.setQueue g c q).ctrs = d.ctrs := rfl
@[simp] theorem Dev.setQueue_draws (d : Dev) (g c : Nat) (q : CQueue) : (d.setQueue g c q).draws = d.draws := rfl
@[simp] theorem Dev.setQueue_cfg (d : Dev) (g c : Nat) (q : CQueue) : (d.setQueue g c q).cfg = d.cfg := rfl
@[simp] theorem Dev.setQueue_tb (d : Dev) (g c : Nat) (q : CQueue) : (d.setQueue g c q).tb = d.tb := rfl
@[simp] theorem Dev.setQueue_pw (d : Dev) (g c : Nat) (q : CQueue) : (d.setQueue g c q).pw = d.pw := rfl
@[simp] theorem Dev.setQueue_fr (d : Dev) (g c : Nat) (q : CQueue) : (d.setQueue g c q).fr = d.fr := rfl
@[simp] theorem Dev.setQueue_air (d : Dev) (g c : Nat) (q : CQueue) : (d.setQueue g c q).air = d.air := rfl
@[simp] theorem Dev.setQueue_pl (d : Dev) (g c : Nat) (q : CQueue) : (d.setQueue g c q).pl = d.pl := rfl
@[simp] theorem Dev.setQueue_led (d : Dev) (g c : Nat) (q : CQueue) : (d.setQueue g c q).led = d.led := rfl
@[simp] theorem Dev.setQueue_cmd (d : Dev) (g c : Nat) (q : CQueue) : (d.setQueue g c q).cmd = d.cmd := rfl
@[simp] theorem Dev.setQueue_bal (d : Dev) (g c : Nat) (q : CQueue) : (d.setQueue g c q).bal = d.bal := rfl
@[simp] theorem Dev.setQueue_met (d : Dev) (g c : Nat) (q : CQueue) : (d.setQueue g c q).met = d.met := rfl
@[simp] theorem Dev.setQueue_leg (d : Dev) (g c : Nat) (q : CQueue) : (d.setQueue g c q).leg = d.leg := rfl
@[simp] theorem Dev.setQueue_mir (d : Dev) (g c : Nat) (q : CQueue) : (d.setQueue g c q).mir = d.mir := rfl
@[simp] theorem Dev.setQueue_up (d : Dev) (g c : Nat) (q : CQueue) : (d.setQueue g c q).up = d.up := rfl
@[simp] theorem Dev.setQueue_sto (d : Dev) (g c : Nat) (q : CQueue) : (d.setQueue g c q).sto = d.sto := rfl
@[simp] theorem Dev.setQueue_evr (d : Dev) (g c : Nat) (q : CQueue) : (d.setQueue g c q).evr = d.evr := rfl
@[simp] theorem Dev.setQueue_pair (d : Dev) (g c : Nat) (q : CQueue) : (d.setQueue g c q).pair = d.pair := rfl
@[simp] theorem Dev.setQueue_disp (d : Dev) (g c : Nat) (q : CQueue) : (d.setQueue g c q).disp = d.disp := rfl
@[simp] theorem Dev.setQueue_loc (d : Dev) (g c : Nat) (q : CQueue) : (d.setQueue g c q).loc = d.loc := rfl
@[simp] theorem Dev.setQueue_idn (d : Dev) (g c : Nat) (q : CQueue) : (d.setQueue g c q).idn = d.idn := rfl
@[simp] theorem Dev.setQueue_boot (d : Dev) (g c : Nat) (q : CQueue) : (d.setQueue g c q).boot = d.boot := rfl

@[simp] theorem Dev.setLink_variant (d : Dev) (k : Nat) (l : Link) : (d.setLink k l).variant = d.variant := rfl
@[simp] theorem Dev.setLink_clk (d : Dev) (k : Nat) (l : Link) : (d.setLink k l).clk = d.clk := rfl
@[simp] theorem Dev.setLink_out (d : Dev) (k : Nat) (l : Link) : (d.setLink k l).out = d.out := rfl
@[simp] theorem Dev.setLink_ctrs (d : Dev) (k : Nat) (l : Link) : (d.setLink k l).ctrs = d.ctrs := rfl
@[simp] theorem Dev.setLink_draws (d : Dev) (k : Nat) (l : Link) : (d.setLink k l).draws = d.draws := rfl
@[simp] theorem Dev.setLink_cfg (d : Dev) (k : Nat) (l : Link) : (d.setLink k l).cfg = d.cfg := rfl
@[simp] theorem Dev.setLink_tb (d : Dev) (k : Nat) (l : Link) : (d.setLink k l).tb = d.tb := rfl
@[simp] theorem Dev.setLink_pw (d : Dev) (k : Nat) (l : Link) : (d.setLink k l).pw = d.pw := rfl
@[simp] theorem Dev.setLink_q (d : Dev) (k : Nat) (l : Link) : (d.setLink k l).q = d.q := rfl
@[simp] theorem Dev.setLink_air (d : Dev) (k : Nat) (l : Link) : (d.setLink k l).air = d.air := rfl
@[simp] theorem Dev.setLink_pl (d : Dev) (k : Nat) (l : Link) : (d.setLink k l).pl = d.pl := rfl
@[simp] theorem Dev.setLink_led (d : Dev) (k : Nat) (l : Link) : (d.setLink k l).led = d.led := rfl
@[simp] theorem Dev.setLink_cmd (d : Dev) (k : Nat) (l : Link) : (d.setLink k l).cmd = d.cmd := rfl
@[simp] theorem Dev.setLink_bal (d : Dev) (k : Nat) (l : Link) : (d.setLink k l).bal = d.bal := rfl
@[simp] theorem Dev.setLink_met (d : Dev) (k : Nat) (l : Link) : (d.setLink k l).met = d.met := rfl
@[simp] theorem Dev.setLink_leg (d : Dev) (k : Nat) (l : Link) : (d.setLink k l).leg = d.leg := rfl
@[simp] theorem Dev.setLink_mir (d : Dev) (k : Nat) (l : Link) : (d.setLink k l).mir = d.mir := rfl
@[simp] theorem Dev.setLink_up (d : Dev) (k : Nat) (l : Link) : (d.setLink k l).up = d.up := rfl
@[simp] theorem Dev.setLink_sto (d : Dev) (k : Nat) (l : Link) : (d.setLink k l).sto = d.sto := rfl
@[simp] theorem Dev.setLink_evr (d : Dev) (k : Nat) (l : Link) : (d.setLink k l).evr = d.evr := rfl
@[simp] theorem Dev.setLink_pair (d : Dev) (k : Nat) (l : Link) : (d.setLink k l).pair = d.pair := rfl
@[simp] theorem Dev.setLink_disp (d : Dev) (k : Nat) (l : Link) : (d.setLink k l).disp = d.disp := rfl
@[simp] theorem Dev.setLink_loc (d : Dev) (k : Nat) (l : Link) : (d.setLink k l).loc = d.loc := rfl
@[simp] theorem Dev.setLink_idn (d : Dev) (k : Nat) (l : Link) : (d.setLink k l).idn = d.idn := rfl
@[simp] theorem Dev.setLink_boot (d : Dev) (k : Nat) (l : Link) : (d.setLink k l).boot = d.boot := rfl

@[simp] theorem Dev.setLane_variant (d : Dev) (n : Nat) (l : Lane) : (d.setLane n l).variant = d.variant := rfl
@[simp] theorem Dev.setLane_clk (d : Dev) (n : Nat) (l : Lane) : (d.setLane n l).clk = d.clk := rfl
@[simp] theorem Dev.setLane_out (d : Dev) (n : Nat) (l : Lane) : (d.setLane n l).out = d.out := rfl
@[simp] theorem Dev.setLane_ctrs (d : Dev) (n : Nat) (l : Lane) : (d.setLane n l).ctrs = d.ctrs := rfl
@[simp] theorem Dev.setLane_draws (d : Dev) (n : Nat) (l : Lane) : (d.setLane n l).draws = d.draws := rfl
@[simp] theorem Dev.setLane_cfg (d : Dev) (n : Nat) (l : Lane) : (d.setLane n l).cfg = d.cfg := rfl
@[simp] theorem Dev.setLane_tb (d : Dev) (n : Nat) (l : Lane) : (d.setLane n l).tb = d.tb := rfl
@[simp] theorem Dev.setLane_pw (d : Dev) (n : Nat) (l : Lane) : (d.setLane n l).pw = d.pw := rfl
@[simp] theorem Dev.setLane_q (d : Dev) (n : Nat) (l : Lane) : (d.setLane n l).q = d.q := rfl
@[simp] theorem Dev.setLane_fr (d : Dev) (n : Nat) (l : Lane) : (d.setLane n l).fr = d.fr := rfl
@[simp] theorem Dev.setLane_pl (d : Dev) (n : Nat) (l : Lane) : (d.setLane n l).pl = d.pl := rfl
@[simp] theorem Dev.setLane_led (d : Dev) (n : Nat) (l : Lane) : (d.setLane n l).led = d.led := rfl
@[simp] theorem Dev.setLane_cmd (d : Dev) (n : Nat) (l : Lane) : (d.setLane n l).cmd = d.cmd := rfl
@[simp] theorem Dev.setLane_bal (d : Dev) (n : Nat) (l : Lane) : (d.setLane n l).bal = d.bal := rfl
@[simp] theorem Dev.setLane_met (d : Dev) (n : Nat) (l : Lane) : (d.setLane n l).met = d.met := rfl
@[simp] theorem Dev.setLane_leg (d : Dev) (n : Nat) (l : Lane) : (d.setLane n l).leg = d.leg := rfl
@[simp] theorem Dev.setLane_mir (d : Dev) (n : Nat) (l : Lane) : (d.setLane n l).mir = d.mir := rfl
@[simp] theorem Dev.setLane_up (d : Dev) (n : Nat) (l : Lane) : (d.setLane n l).up = d.up := rfl
@[simp] theorem Dev.setLane_sto (d : Dev) (n : Nat) (l : Lane) : (d.setLane n l).sto = d.sto := rfl
@[simp] theorem Dev.setLane_evr (d : Dev) (n : Nat) (l : Lane) : (d.setLane n l).evr = d.evr := rfl
@[simp] theorem Dev.setLane_pair (d : Dev) (n : Nat) (l : Lane) : (d.setLane n l).pair = d.pair := rfl
@[simp] theorem Dev.setLane_disp (d : Dev) (n : Nat) (l : Lane) : (d.setLane n l).disp = d.disp := rfl
@[simp] theorem Dev.setLane_loc (d : Dev) (n : Nat) (l : Lane) : (d.setLane n l).loc = d.loc := rfl
@[simp] theorem Dev.setLane_idn (d : Dev) (n : Nat) (l : Lane) : (d.setLane n l).idn = d.idn := rfl
@[simp] theorem Dev.setLane_boot (d : Dev) (n : Nat) (l : Lane) : (d.setLane n l).boot = d.boot := rfl

@[simp] theorem Dev.setPlLane_variant (d : Dev) (n : Nat) (l : PlLane) : (d.setPlLane n l).variant = d.variant := rfl
@[simp] theorem Dev.setPlLane_clk (d : Dev) (n : Nat) (l : PlLane) : (d.setPlLane n l).clk = d.clk := rfl
@[simp] theorem Dev.setPlLane_out (d : Dev) (n : Nat) (l : PlLane) : (d.setPlLane n l).out = d.out := rfl
@[simp] theorem Dev.setPlLane_ctrs (d : Dev) (n : Nat) (l : PlLane) : (d.setPlLane n l).ctrs = d.ctrs := rfl
@[simp] theorem Dev.setPlLane_draws (d : Dev) (n : Nat) (l : PlLane) : (d.setPlLane n l).draws = d.draws := rfl
@[simp] theorem Dev.setPlLane_cfg (d : Dev) (n : Nat) (l : PlLane) : (d.setPlLane n l).cfg = d.cfg := rfl
@[simp] theorem Dev.setPlLane_tb (d : Dev) (n : Nat) (l : PlLane) : (d.setPlLane n l).tb = d.tb := rfl
@[simp] theorem Dev.setPlLane_pw (d : Dev) (n : Nat) (l : PlLane) : (d.setPlLane n l).pw = d.pw := rfl
@[simp] theorem Dev.setPlLane_q (d : Dev) (n : Nat) (l : PlLane) : (d.setPlLane n l).q = d.q := rfl
@[simp] theorem Dev.setPlLane_fr (d : Dev) (n : Nat) (l : PlLane) : (d.setPlLane n l).fr = d.fr := rfl
@[simp] theorem Dev.setPlLane_air (d : Dev) (n : Nat) (l : PlLane) : (d.setPlLane n l).air = d.air := rfl
@[simp] theorem Dev.setPlLane_led (d : Dev) (n : Nat) (l : PlLane) : (d.setPlLane n l).led = d.led := rfl
@[simp] theorem Dev.setPlLane_cmd (d : Dev) (n : Nat) (l : PlLane) : (d.setPlLane n l).cmd = d.cmd := rfl
@[simp] theorem Dev.setPlLane_bal (d : Dev) (n : Nat) (l : PlLane) : (d.setPlLane n l).bal = d.bal := rfl
@[simp] theorem Dev.setPlLane_met (d : Dev) (n : Nat) (l : PlLane) : (d.setPlLane n l).met = d.met := rfl
@[simp] theorem Dev.setPlLane_leg (d : Dev) (n : Nat) (l : PlLane) : (d.setPlLane n l).leg = d.leg := rfl
@[simp] theorem Dev.setPlLane_mir (d : Dev) (n : Nat) (l : PlLane) : (d.setPlLane n l).mir = d.mir := rfl
@[simp] theorem Dev.setPlLane_up (d : Dev) (n : Nat) (l : PlLane) : (d.setPlLane n l).up = d.up := rfl
@[simp] theorem Dev.setPlLane_sto (d : Dev) (n : Nat) (l : PlLane) : (d.setPlLane n l).sto = d.sto := rfl
@[simp] theorem Dev.setPlLane_evr (d : Dev) (n : Nat) (l : PlLane) : (d.setPlLane n l).evr = d.evr := rfl
@[simp] theorem Dev.setPlLane_pair (d : Dev) (n : Nat) (l : PlLane) : (d.setPlLane n l).pair = d.pair := rfl
@[simp] theorem Dev.setPlLane_disp (d : Dev) (n : Nat) (l : PlLane) : (d.setPlLane n l).disp = d.disp := rfl
@[simp] theorem Dev.setPlLane_loc (d : Dev) (n : Nat) (l : PlLane) : (d.setPlLane n l).loc = d.loc := rfl
@[simp] theorem Dev.setPlLane_idn (d : Dev) (n : Nat) (l : PlLane) : (d.setPlLane n l).idn = d.idn := rfl
@[simp] theorem Dev.setPlLane_boot (d : Dev) (n : Nat) (l : PlLane) : (d.setPlLane n l).boot = d.boot := rfl

@[simp] theorem Dev.setDom_variant (d : Dev) (n : Nat) (x : Domain) : (d.setDom n x).variant = d.variant := rfl
@[simp] theorem Dev.setDom_clk (d : Dev) (n : Nat) (x : Domain) : (d.setDom n x).clk = d.clk := rfl
@[simp] theorem Dev.setDom_out (d : Dev) (n : Nat) (x : Domain) : (d.setDom n x).out = d.out := rfl
@[simp] theorem Dev.setDom_ctrs (d : Dev) (n : Nat) (x : Domain) : (d.setDom n x).ctrs = d.ctrs := rfl
@[simp] theorem Dev.setDom_draws (d : Dev) (n : Nat) (x : Domain) : (d.setDom n x).draws = d.draws := rfl
@[simp] theorem Dev.setDom_cfg (d : Dev) (n : Nat) (x : Domain) : (d.setDom n x).cfg = d.cfg := rfl
@[simp] theorem Dev.setDom_tb (d : Dev) (n : Nat) (x : Domain) : (d.setDom n x).tb = d.tb := rfl
@[simp] theorem Dev.setDom_q (d : Dev) (n : Nat) (x : Domain) : (d.setDom n x).q = d.q := rfl
@[simp] theorem Dev.setDom_fr (d : Dev) (n : Nat) (x : Domain) : (d.setDom n x).fr = d.fr := rfl
@[simp] theorem Dev.setDom_air (d : Dev) (n : Nat) (x : Domain) : (d.setDom n x).air = d.air := rfl
@[simp] theorem Dev.setDom_pl (d : Dev) (n : Nat) (x : Domain) : (d.setDom n x).pl = d.pl := rfl
@[simp] theorem Dev.setDom_led (d : Dev) (n : Nat) (x : Domain) : (d.setDom n x).led = d.led := rfl
@[simp] theorem Dev.setDom_cmd (d : Dev) (n : Nat) (x : Domain) : (d.setDom n x).cmd = d.cmd := rfl
@[simp] theorem Dev.setDom_bal (d : Dev) (n : Nat) (x : Domain) : (d.setDom n x).bal = d.bal := rfl
@[simp] theorem Dev.setDom_met (d : Dev) (n : Nat) (x : Domain) : (d.setDom n x).met = d.met := rfl
@[simp] theorem Dev.setDom_leg (d : Dev) (n : Nat) (x : Domain) : (d.setDom n x).leg = d.leg := rfl
@[simp] theorem Dev.setDom_mir (d : Dev) (n : Nat) (x : Domain) : (d.setDom n x).mir = d.mir := rfl
@[simp] theorem Dev.setDom_up (d : Dev) (n : Nat) (x : Domain) : (d.setDom n x).up = d.up := rfl
@[simp] theorem Dev.setDom_sto (d : Dev) (n : Nat) (x : Domain) : (d.setDom n x).sto = d.sto := rfl
@[simp] theorem Dev.setDom_evr (d : Dev) (n : Nat) (x : Domain) : (d.setDom n x).evr = d.evr := rfl
@[simp] theorem Dev.setDom_pair (d : Dev) (n : Nat) (x : Domain) : (d.setDom n x).pair = d.pair := rfl
@[simp] theorem Dev.setDom_disp (d : Dev) (n : Nat) (x : Domain) : (d.setDom n x).disp = d.disp := rfl
@[simp] theorem Dev.setDom_loc (d : Dev) (n : Nat) (x : Domain) : (d.setDom n x).loc = d.loc := rfl
@[simp] theorem Dev.setDom_idn (d : Dev) (n : Nat) (x : Domain) : (d.setDom n x).idn = d.idn := rfl
@[simp] theorem Dev.setDom_boot (d : Dev) (n : Nat) (x : Domain) : (d.setDom n x).boot = d.boot := rfl

@[simp] theorem Dev.setRec_variant (d : Dev) (n : Nat) (r : MeterRec) : (d.setRec n r).variant = d.variant := rfl
@[simp] theorem Dev.setRec_clk (d : Dev) (n : Nat) (r : MeterRec) : (d.setRec n r).clk = d.clk := rfl
@[simp] theorem Dev.setRec_out (d : Dev) (n : Nat) (r : MeterRec) : (d.setRec n r).out = d.out := rfl
@[simp] theorem Dev.setRec_ctrs (d : Dev) (n : Nat) (r : MeterRec) : (d.setRec n r).ctrs = d.ctrs := rfl
@[simp] theorem Dev.setRec_draws (d : Dev) (n : Nat) (r : MeterRec) : (d.setRec n r).draws = d.draws := rfl
@[simp] theorem Dev.setRec_cfg (d : Dev) (n : Nat) (r : MeterRec) : (d.setRec n r).cfg = d.cfg := rfl
@[simp] theorem Dev.setRec_tb (d : Dev) (n : Nat) (r : MeterRec) : (d.setRec n r).tb = d.tb := rfl
@[simp] theorem Dev.setRec_pw (d : Dev) (n : Nat) (r : MeterRec) : (d.setRec n r).pw = d.pw := rfl
@[simp] theorem Dev.setRec_q (d : Dev) (n : Nat) (r : MeterRec) : (d.setRec n r).q = d.q := rfl
@[simp] theorem Dev.setRec_fr (d : Dev) (n : Nat) (r : MeterRec) : (d.setRec n r).fr = d.fr := rfl
@[simp] theorem Dev.setRec_air (d : Dev) (n : Nat) (r : MeterRec) : (d.setRec n r).air = d.air := rfl
@[simp] theorem Dev.setRec_pl (d : Dev) (n : Nat) (r : MeterRec) : (d.setRec n r).pl = d.pl := rfl
@[simp] theorem Dev.setRec_cmd (d : Dev) (n : Nat) (r : MeterRec) : (d.setRec n r).cmd = d.cmd := rfl
@[simp] theorem Dev.setRec_bal (d : Dev) (n : Nat) (r : MeterRec) : (d.setRec n r).bal = d.bal := rfl
@[simp] theorem Dev.setRec_met (d : Dev) (n : Nat) (r : MeterRec) : (d.setRec n r).met = d.met := rfl
@[simp] theorem Dev.setRec_leg (d : Dev) (n : Nat) (r : MeterRec) : (d.setRec n r).leg = d.leg := rfl
@[simp] theorem Dev.setRec_mir (d : Dev) (n : Nat) (r : MeterRec) : (d.setRec n r).mir = d.mir := rfl
@[simp] theorem Dev.setRec_up (d : Dev) (n : Nat) (r : MeterRec) : (d.setRec n r).up = d.up := rfl
@[simp] theorem Dev.setRec_sto (d : Dev) (n : Nat) (r : MeterRec) : (d.setRec n r).sto = d.sto := rfl
@[simp] theorem Dev.setRec_evr (d : Dev) (n : Nat) (r : MeterRec) : (d.setRec n r).evr = d.evr := rfl
@[simp] theorem Dev.setRec_pair (d : Dev) (n : Nat) (r : MeterRec) : (d.setRec n r).pair = d.pair := rfl
@[simp] theorem Dev.setRec_disp (d : Dev) (n : Nat) (r : MeterRec) : (d.setRec n r).disp = d.disp := rfl
@[simp] theorem Dev.setRec_loc (d : Dev) (n : Nat) (r : MeterRec) : (d.setRec n r).loc = d.loc := rfl
@[simp] theorem Dev.setRec_idn (d : Dev) (n : Nat) (r : MeterRec) : (d.setRec n r).idn = d.idn := rfl
@[simp] theorem Dev.setRec_boot (d : Dev) (n : Nat) (r : MeterRec) : (d.setRec n r).boot = d.boot := rfl

@[simp] theorem Dev.setKeys_variant (d : Dev) (n : Nat) (k : KeyBlock) : (d.setKeys n k).variant = d.variant := rfl
@[simp] theorem Dev.setKeys_clk (d : Dev) (n : Nat) (k : KeyBlock) : (d.setKeys n k).clk = d.clk := rfl
@[simp] theorem Dev.setKeys_out (d : Dev) (n : Nat) (k : KeyBlock) : (d.setKeys n k).out = d.out := rfl
@[simp] theorem Dev.setKeys_ctrs (d : Dev) (n : Nat) (k : KeyBlock) : (d.setKeys n k).ctrs = d.ctrs := rfl
@[simp] theorem Dev.setKeys_draws (d : Dev) (n : Nat) (k : KeyBlock) : (d.setKeys n k).draws = d.draws := rfl
@[simp] theorem Dev.setKeys_cfg (d : Dev) (n : Nat) (k : KeyBlock) : (d.setKeys n k).cfg = d.cfg := rfl
@[simp] theorem Dev.setKeys_tb (d : Dev) (n : Nat) (k : KeyBlock) : (d.setKeys n k).tb = d.tb := rfl
@[simp] theorem Dev.setKeys_pw (d : Dev) (n : Nat) (k : KeyBlock) : (d.setKeys n k).pw = d.pw := rfl
@[simp] theorem Dev.setKeys_q (d : Dev) (n : Nat) (k : KeyBlock) : (d.setKeys n k).q = d.q := rfl
@[simp] theorem Dev.setKeys_fr (d : Dev) (n : Nat) (k : KeyBlock) : (d.setKeys n k).fr = d.fr := rfl
@[simp] theorem Dev.setKeys_air (d : Dev) (n : Nat) (k : KeyBlock) : (d.setKeys n k).air = d.air := rfl
@[simp] theorem Dev.setKeys_pl (d : Dev) (n : Nat) (k : KeyBlock) : (d.setKeys n k).pl = d.pl := rfl
@[simp] theorem Dev.setKeys_cmd (d : Dev) (n : Nat) (k : KeyBlock) : (d.setKeys n k).cmd = d.cmd := rfl
@[simp] theorem Dev.setKeys_bal (d : Dev) (n : Nat) (k : KeyBlock) : (d.setKeys n k).bal = d.bal := rfl
@[simp] theorem Dev.setKeys_met (d : Dev) (n : Nat) (k : KeyBlock) : (d.setKeys n k).met = d.met := rfl
@[simp] theorem Dev.setKeys_leg (d : Dev) (n : Nat) (k : KeyBlock) : (d.setKeys n k).leg = d.leg := rfl
@[simp] theorem Dev.setKeys_mir (d : Dev) (n : Nat) (k : KeyBlock) : (d.setKeys n k).mir = d.mir := rfl
@[simp] theorem Dev.setKeys_up (d : Dev) (n : Nat) (k : KeyBlock) : (d.setKeys n k).up = d.up := rfl
@[simp] theorem Dev.setKeys_sto (d : Dev) (n : Nat) (k : KeyBlock) : (d.setKeys n k).sto = d.sto := rfl
@[simp] theorem Dev.setKeys_evr (d : Dev) (n : Nat) (k : KeyBlock) : (d.setKeys n k).evr = d.evr := rfl
@[simp] theorem Dev.setKeys_pair (d : Dev) (n : Nat) (k : KeyBlock) : (d.setKeys n k).pair = d.pair := rfl
@[simp] theorem Dev.setKeys_disp (d : Dev) (n : Nat) (k : KeyBlock) : (d.setKeys n k).disp = d.disp := rfl
@[simp] theorem Dev.setKeys_loc (d : Dev) (n : Nat) (k : KeyBlock) : (d.setKeys n k).loc = d.loc := rfl
@[simp] theorem Dev.setKeys_idn (d : Dev) (n : Nat) (k : KeyBlock) : (d.setKeys n k).idn = d.idn := rfl
@[simp] theorem Dev.setKeys_boot (d : Dev) (n : Nat) (k : KeyBlock) : (d.setKeys n k).boot = d.boot := rfl

@[simp] theorem Dev.setCmd_variant (d : Dev) (c : Cmd) : (d.setCmd c).variant = d.variant := rfl
@[simp] theorem Dev.setCmd_clk (d : Dev) (c : Cmd) : (d.setCmd c).clk = d.clk := rfl
@[simp] theorem Dev.setCmd_out (d : Dev) (c : Cmd) : (d.setCmd c).out = d.out := rfl
@[simp] theorem Dev.setCmd_ctrs (d : Dev) (c : Cmd) : (d.setCmd c).ctrs = d.ctrs := rfl
@[simp] theorem Dev.setCmd_draws (d : Dev) (c : Cmd) : (d.setCmd c).draws = d.draws := rfl
@[simp] theorem Dev.setCmd_cfg (d : Dev) (c : Cmd) : (d.setCmd c).cfg = d.cfg := rfl
@[simp] theorem Dev.setCmd_tb (d : Dev) (c : Cmd) : (d.setCmd c).tb = d.tb := rfl
@[simp] theorem Dev.setCmd_pw (d : Dev) (c : Cmd) : (d.setCmd c).pw = d.pw := rfl
@[simp] theorem Dev.setCmd_q (d : Dev) (c : Cmd) : (d.setCmd c).q = d.q := rfl
@[simp] theorem Dev.setCmd_fr (d : Dev) (c : Cmd) : (d.setCmd c).fr = d.fr := rfl
@[simp] theorem Dev.setCmd_air (d : Dev) (c : Cmd) : (d.setCmd c).air = d.air := rfl
@[simp] theorem Dev.setCmd_pl (d : Dev) (c : Cmd) : (d.setCmd c).pl = d.pl := rfl
@[simp] theorem Dev.setCmd_led (d : Dev) (c : Cmd) : (d.setCmd c).led = d.led := rfl
@[simp] theorem Dev.setCmd_bal (d : Dev) (c : Cmd) : (d.setCmd c).bal = d.bal := rfl
@[simp] theorem Dev.setCmd_met (d : Dev) (c : Cmd) : (d.setCmd c).met = d.met := rfl
@[simp] theorem Dev.setCmd_leg (d : Dev) (c : Cmd) : (d.setCmd c).leg = d.leg := rfl
@[simp] theorem Dev.setCmd_mir (d : Dev) (c : Cmd) : (d.setCmd c).mir = d.mir := rfl
@[simp] theorem Dev.setCmd_up (d : Dev) (c : Cmd) : (d.setCmd c).up = d.up := rfl
@[simp] theorem Dev.setCmd_sto (d : Dev) (c : Cmd) : (d.setCmd c).sto = d.sto := rfl
@[simp] theorem Dev.setCmd_evr (d : Dev) (c : Cmd) : (d.setCmd c).evr = d.evr := rfl
@[simp] theorem Dev.setCmd_pair (d : Dev) (c : Cmd) : (d.setCmd c).pair = d.pair := rfl
@[simp] theorem Dev.setCmd_disp (d : Dev) (c : Cmd) : (d.setCmd c).disp = d.disp := rfl
@[simp] theorem Dev.setCmd_loc (d : Dev) (c : Cmd) : (d.setCmd c).loc = d.loc := rfl
@[simp] theorem Dev.setCmd_idn (d : Dev) (c : Cmd) : (d.setCmd c).idn = d.idn := rfl
@[simp] theorem Dev.setCmd_boot (d : Dev) (c : Cmd) : (d.setCmd c).boot = d.boot := rfl

@[simp] theorem Dev.setCamp_variant (d : Dev) (n : Nat) (c : Camp) : (d.setCamp n c).variant = d.variant := rfl
@[simp] theorem Dev.setCamp_clk (d : Dev) (n : Nat) (c : Camp) : (d.setCamp n c).clk = d.clk := rfl
@[simp] theorem Dev.setCamp_out (d : Dev) (n : Nat) (c : Camp) : (d.setCamp n c).out = d.out := rfl
@[simp] theorem Dev.setCamp_ctrs (d : Dev) (n : Nat) (c : Camp) : (d.setCamp n c).ctrs = d.ctrs := rfl
@[simp] theorem Dev.setCamp_draws (d : Dev) (n : Nat) (c : Camp) : (d.setCamp n c).draws = d.draws := rfl
@[simp] theorem Dev.setCamp_cfg (d : Dev) (n : Nat) (c : Camp) : (d.setCamp n c).cfg = d.cfg := rfl
@[simp] theorem Dev.setCamp_tb (d : Dev) (n : Nat) (c : Camp) : (d.setCamp n c).tb = d.tb := rfl
@[simp] theorem Dev.setCamp_pw (d : Dev) (n : Nat) (c : Camp) : (d.setCamp n c).pw = d.pw := rfl
@[simp] theorem Dev.setCamp_q (d : Dev) (n : Nat) (c : Camp) : (d.setCamp n c).q = d.q := rfl
@[simp] theorem Dev.setCamp_fr (d : Dev) (n : Nat) (c : Camp) : (d.setCamp n c).fr = d.fr := rfl
@[simp] theorem Dev.setCamp_air (d : Dev) (n : Nat) (c : Camp) : (d.setCamp n c).air = d.air := rfl
@[simp] theorem Dev.setCamp_pl (d : Dev) (n : Nat) (c : Camp) : (d.setCamp n c).pl = d.pl := rfl
@[simp] theorem Dev.setCamp_led (d : Dev) (n : Nat) (c : Camp) : (d.setCamp n c).led = d.led := rfl
@[simp] theorem Dev.setCamp_bal (d : Dev) (n : Nat) (c : Camp) : (d.setCamp n c).bal = d.bal := rfl
@[simp] theorem Dev.setCamp_met (d : Dev) (n : Nat) (c : Camp) : (d.setCamp n c).met = d.met := rfl
@[simp] theorem Dev.setCamp_leg (d : Dev) (n : Nat) (c : Camp) : (d.setCamp n c).leg = d.leg := rfl
@[simp] theorem Dev.setCamp_mir (d : Dev) (n : Nat) (c : Camp) : (d.setCamp n c).mir = d.mir := rfl
@[simp] theorem Dev.setCamp_up (d : Dev) (n : Nat) (c : Camp) : (d.setCamp n c).up = d.up := rfl
@[simp] theorem Dev.setCamp_sto (d : Dev) (n : Nat) (c : Camp) : (d.setCamp n c).sto = d.sto := rfl
@[simp] theorem Dev.setCamp_evr (d : Dev) (n : Nat) (c : Camp) : (d.setCamp n c).evr = d.evr := rfl
@[simp] theorem Dev.setCamp_pair (d : Dev) (n : Nat) (c : Camp) : (d.setCamp n c).pair = d.pair := rfl
@[simp] theorem Dev.setCamp_disp (d : Dev) (n : Nat) (c : Camp) : (d.setCamp n c).disp = d.disp := rfl
@[simp] theorem Dev.setCamp_loc (d : Dev) (n : Nat) (c : Camp) : (d.setCamp n c).loc = d.loc := rfl
@[simp] theorem Dev.setCamp_idn (d : Dev) (n : Nat) (c : Camp) : (d.setCamp n c).idn = d.idn := rfl
@[simp] theorem Dev.setCamp_boot (d : Dev) (n : Nat) (c : Camp) : (d.setCamp n c).boot = d.boot := rfl

@[simp] theorem Dev.setSession_variant (d : Dev) (i : Nat) (x : Session) : (d.setSession i x).variant = d.variant := rfl
@[simp] theorem Dev.setSession_clk (d : Dev) (i : Nat) (x : Session) : (d.setSession i x).clk = d.clk := rfl
@[simp] theorem Dev.setSession_out (d : Dev) (i : Nat) (x : Session) : (d.setSession i x).out = d.out := rfl
@[simp] theorem Dev.setSession_ctrs (d : Dev) (i : Nat) (x : Session) : (d.setSession i x).ctrs = d.ctrs := rfl
@[simp] theorem Dev.setSession_draws (d : Dev) (i : Nat) (x : Session) : (d.setSession i x).draws = d.draws := rfl
@[simp] theorem Dev.setSession_cfg (d : Dev) (i : Nat) (x : Session) : (d.setSession i x).cfg = d.cfg := rfl
@[simp] theorem Dev.setSession_tb (d : Dev) (i : Nat) (x : Session) : (d.setSession i x).tb = d.tb := rfl
@[simp] theorem Dev.setSession_pw (d : Dev) (i : Nat) (x : Session) : (d.setSession i x).pw = d.pw := rfl
@[simp] theorem Dev.setSession_q (d : Dev) (i : Nat) (x : Session) : (d.setSession i x).q = d.q := rfl
@[simp] theorem Dev.setSession_fr (d : Dev) (i : Nat) (x : Session) : (d.setSession i x).fr = d.fr := rfl
@[simp] theorem Dev.setSession_air (d : Dev) (i : Nat) (x : Session) : (d.setSession i x).air = d.air := rfl
@[simp] theorem Dev.setSession_pl (d : Dev) (i : Nat) (x : Session) : (d.setSession i x).pl = d.pl := rfl
@[simp] theorem Dev.setSession_led (d : Dev) (i : Nat) (x : Session) : (d.setSession i x).led = d.led := rfl
@[simp] theorem Dev.setSession_cmd (d : Dev) (i : Nat) (x : Session) : (d.setSession i x).cmd = d.cmd := rfl
@[simp] theorem Dev.setSession_bal (d : Dev) (i : Nat) (x : Session) : (d.setSession i x).bal = d.bal := rfl
@[simp] theorem Dev.setSession_met (d : Dev) (i : Nat) (x : Session) : (d.setSession i x).met = d.met := rfl
@[simp] theorem Dev.setSession_leg (d : Dev) (i : Nat) (x : Session) : (d.setSession i x).leg = d.leg := rfl
@[simp] theorem Dev.setSession_mir (d : Dev) (i : Nat) (x : Session) : (d.setSession i x).mir = d.mir := rfl
@[simp] theorem Dev.setSession_sto (d : Dev) (i : Nat) (x : Session) : (d.setSession i x).sto = d.sto := rfl
@[simp] theorem Dev.setSession_evr (d : Dev) (i : Nat) (x : Session) : (d.setSession i x).evr = d.evr := rfl
@[simp] theorem Dev.setSession_pair (d : Dev) (i : Nat) (x : Session) : (d.setSession i x).pair = d.pair := rfl
@[simp] theorem Dev.setSession_disp (d : Dev) (i : Nat) (x : Session) : (d.setSession i x).disp = d.disp := rfl
@[simp] theorem Dev.setSession_loc (d : Dev) (i : Nat) (x : Session) : (d.setSession i x).loc = d.loc := rfl
@[simp] theorem Dev.setSession_idn (d : Dev) (i : Nat) (x : Session) : (d.setSession i x).idn = d.idn := rfl
@[simp] theorem Dev.setSession_boot (d : Dev) (i : Nat) (x : Session) : (d.setSession i x).boot = d.boot := rfl

@[simp] theorem Dev.setPort_variant (d : Dev) (p : Nat) (x : PtpPort) : (d.setPort p x).variant = d.variant := rfl
@[simp] theorem Dev.setPort_clk (d : Dev) (p : Nat) (x : PtpPort) : (d.setPort p x).clk = d.clk := rfl
@[simp] theorem Dev.setPort_out (d : Dev) (p : Nat) (x : PtpPort) : (d.setPort p x).out = d.out := rfl
@[simp] theorem Dev.setPort_ctrs (d : Dev) (p : Nat) (x : PtpPort) : (d.setPort p x).ctrs = d.ctrs := rfl
@[simp] theorem Dev.setPort_draws (d : Dev) (p : Nat) (x : PtpPort) : (d.setPort p x).draws = d.draws := rfl
@[simp] theorem Dev.setPort_cfg (d : Dev) (p : Nat) (x : PtpPort) : (d.setPort p x).cfg = d.cfg := rfl
@[simp] theorem Dev.setPort_pw (d : Dev) (p : Nat) (x : PtpPort) : (d.setPort p x).pw = d.pw := rfl
@[simp] theorem Dev.setPort_q (d : Dev) (p : Nat) (x : PtpPort) : (d.setPort p x).q = d.q := rfl
@[simp] theorem Dev.setPort_fr (d : Dev) (p : Nat) (x : PtpPort) : (d.setPort p x).fr = d.fr := rfl
@[simp] theorem Dev.setPort_air (d : Dev) (p : Nat) (x : PtpPort) : (d.setPort p x).air = d.air := rfl
@[simp] theorem Dev.setPort_pl (d : Dev) (p : Nat) (x : PtpPort) : (d.setPort p x).pl = d.pl := rfl
@[simp] theorem Dev.setPort_led (d : Dev) (p : Nat) (x : PtpPort) : (d.setPort p x).led = d.led := rfl
@[simp] theorem Dev.setPort_cmd (d : Dev) (p : Nat) (x : PtpPort) : (d.setPort p x).cmd = d.cmd := rfl
@[simp] theorem Dev.setPort_bal (d : Dev) (p : Nat) (x : PtpPort) : (d.setPort p x).bal = d.bal := rfl
@[simp] theorem Dev.setPort_met (d : Dev) (p : Nat) (x : PtpPort) : (d.setPort p x).met = d.met := rfl
@[simp] theorem Dev.setPort_leg (d : Dev) (p : Nat) (x : PtpPort) : (d.setPort p x).leg = d.leg := rfl
@[simp] theorem Dev.setPort_mir (d : Dev) (p : Nat) (x : PtpPort) : (d.setPort p x).mir = d.mir := rfl
@[simp] theorem Dev.setPort_up (d : Dev) (p : Nat) (x : PtpPort) : (d.setPort p x).up = d.up := rfl
@[simp] theorem Dev.setPort_sto (d : Dev) (p : Nat) (x : PtpPort) : (d.setPort p x).sto = d.sto := rfl
@[simp] theorem Dev.setPort_evr (d : Dev) (p : Nat) (x : PtpPort) : (d.setPort p x).evr = d.evr := rfl
@[simp] theorem Dev.setPort_pair (d : Dev) (p : Nat) (x : PtpPort) : (d.setPort p x).pair = d.pair := rfl
@[simp] theorem Dev.setPort_disp (d : Dev) (p : Nat) (x : PtpPort) : (d.setPort p x).disp = d.disp := rfl
@[simp] theorem Dev.setPort_loc (d : Dev) (p : Nat) (x : PtpPort) : (d.setPort p x).loc = d.loc := rfl
@[simp] theorem Dev.setPort_idn (d : Dev) (p : Nat) (x : PtpPort) : (d.setPort p x).idn = d.idn := rfl
@[simp] theorem Dev.setPort_boot (d : Dev) (p : Nat) (x : PtpPort) : (d.setPort p x).boot = d.boot := rfl

@[simp] theorem Dev.setChan_variant (d : Dev) (c : Nat) (x : Chan) : (d.setChan c x).variant = d.variant := rfl
@[simp] theorem Dev.setChan_clk (d : Dev) (c : Nat) (x : Chan) : (d.setChan c x).clk = d.clk := rfl
@[simp] theorem Dev.setChan_out (d : Dev) (c : Nat) (x : Chan) : (d.setChan c x).out = d.out := rfl
@[simp] theorem Dev.setChan_ctrs (d : Dev) (c : Nat) (x : Chan) : (d.setChan c x).ctrs = d.ctrs := rfl
@[simp] theorem Dev.setChan_draws (d : Dev) (c : Nat) (x : Chan) : (d.setChan c x).draws = d.draws := rfl
@[simp] theorem Dev.setChan_cfg (d : Dev) (c : Nat) (x : Chan) : (d.setChan c x).cfg = d.cfg := rfl
@[simp] theorem Dev.setChan_tb (d : Dev) (c : Nat) (x : Chan) : (d.setChan c x).tb = d.tb := rfl
@[simp] theorem Dev.setChan_pw (d : Dev) (c : Nat) (x : Chan) : (d.setChan c x).pw = d.pw := rfl
@[simp] theorem Dev.setChan_q (d : Dev) (c : Nat) (x : Chan) : (d.setChan c x).q = d.q := rfl
@[simp] theorem Dev.setChan_fr (d : Dev) (c : Nat) (x : Chan) : (d.setChan c x).fr = d.fr := rfl
@[simp] theorem Dev.setChan_air (d : Dev) (c : Nat) (x : Chan) : (d.setChan c x).air = d.air := rfl
@[simp] theorem Dev.setChan_pl (d : Dev) (c : Nat) (x : Chan) : (d.setChan c x).pl = d.pl := rfl
@[simp] theorem Dev.setChan_led (d : Dev) (c : Nat) (x : Chan) : (d.setChan c x).led = d.led := rfl
@[simp] theorem Dev.setChan_cmd (d : Dev) (c : Nat) (x : Chan) : (d.setChan c x).cmd = d.cmd := rfl
@[simp] theorem Dev.setChan_bal (d : Dev) (c : Nat) (x : Chan) : (d.setChan c x).bal = d.bal := rfl
@[simp] theorem Dev.setChan_leg (d : Dev) (c : Nat) (x : Chan) : (d.setChan c x).leg = d.leg := rfl
@[simp] theorem Dev.setChan_mir (d : Dev) (c : Nat) (x : Chan) : (d.setChan c x).mir = d.mir := rfl
@[simp] theorem Dev.setChan_up (d : Dev) (c : Nat) (x : Chan) : (d.setChan c x).up = d.up := rfl
@[simp] theorem Dev.setChan_sto (d : Dev) (c : Nat) (x : Chan) : (d.setChan c x).sto = d.sto := rfl
@[simp] theorem Dev.setChan_evr (d : Dev) (c : Nat) (x : Chan) : (d.setChan c x).evr = d.evr := rfl
@[simp] theorem Dev.setChan_pair (d : Dev) (c : Nat) (x : Chan) : (d.setChan c x).pair = d.pair := rfl
@[simp] theorem Dev.setChan_disp (d : Dev) (c : Nat) (x : Chan) : (d.setChan c x).disp = d.disp := rfl
@[simp] theorem Dev.setChan_loc (d : Dev) (c : Nat) (x : Chan) : (d.setChan c x).loc = d.loc := rfl
@[simp] theorem Dev.setChan_idn (d : Dev) (c : Nat) (x : Chan) : (d.setChan c x).idn = d.idn := rfl
@[simp] theorem Dev.setChan_boot (d : Dev) (c : Nat) (x : Chan) : (d.setChan c x).boot = d.boot := rfl

@[simp] theorem Dev.setGroup_variant (d : Dev) (g : Nat) (x : Group) : (d.setGroup g x).variant = d.variant := rfl
@[simp] theorem Dev.setGroup_clk (d : Dev) (g : Nat) (x : Group) : (d.setGroup g x).clk = d.clk := rfl
@[simp] theorem Dev.setGroup_out (d : Dev) (g : Nat) (x : Group) : (d.setGroup g x).out = d.out := rfl
@[simp] theorem Dev.setGroup_ctrs (d : Dev) (g : Nat) (x : Group) : (d.setGroup g x).ctrs = d.ctrs := rfl
@[simp] theorem Dev.setGroup_draws (d : Dev) (g : Nat) (x : Group) : (d.setGroup g x).draws = d.draws := rfl
@[simp] theorem Dev.setGroup_cfg (d : Dev) (g : Nat) (x : Group) : (d.setGroup g x).cfg = d.cfg := rfl
@[simp] theorem Dev.setGroup_tb (d : Dev) (g : Nat) (x : Group) : (d.setGroup g x).tb = d.tb := rfl
@[simp] theorem Dev.setGroup_pw (d : Dev) (g : Nat) (x : Group) : (d.setGroup g x).pw = d.pw := rfl
@[simp] theorem Dev.setGroup_q (d : Dev) (g : Nat) (x : Group) : (d.setGroup g x).q = d.q := rfl
@[simp] theorem Dev.setGroup_fr (d : Dev) (g : Nat) (x : Group) : (d.setGroup g x).fr = d.fr := rfl
@[simp] theorem Dev.setGroup_air (d : Dev) (g : Nat) (x : Group) : (d.setGroup g x).air = d.air := rfl
@[simp] theorem Dev.setGroup_pl (d : Dev) (g : Nat) (x : Group) : (d.setGroup g x).pl = d.pl := rfl
@[simp] theorem Dev.setGroup_led (d : Dev) (g : Nat) (x : Group) : (d.setGroup g x).led = d.led := rfl
@[simp] theorem Dev.setGroup_cmd (d : Dev) (g : Nat) (x : Group) : (d.setGroup g x).cmd = d.cmd := rfl
@[simp] theorem Dev.setGroup_bal (d : Dev) (g : Nat) (x : Group) : (d.setGroup g x).bal = d.bal := rfl
@[simp] theorem Dev.setGroup_leg (d : Dev) (g : Nat) (x : Group) : (d.setGroup g x).leg = d.leg := rfl
@[simp] theorem Dev.setGroup_mir (d : Dev) (g : Nat) (x : Group) : (d.setGroup g x).mir = d.mir := rfl
@[simp] theorem Dev.setGroup_up (d : Dev) (g : Nat) (x : Group) : (d.setGroup g x).up = d.up := rfl
@[simp] theorem Dev.setGroup_sto (d : Dev) (g : Nat) (x : Group) : (d.setGroup g x).sto = d.sto := rfl
@[simp] theorem Dev.setGroup_evr (d : Dev) (g : Nat) (x : Group) : (d.setGroup g x).evr = d.evr := rfl
@[simp] theorem Dev.setGroup_pair (d : Dev) (g : Nat) (x : Group) : (d.setGroup g x).pair = d.pair := rfl
@[simp] theorem Dev.setGroup_disp (d : Dev) (g : Nat) (x : Group) : (d.setGroup g x).disp = d.disp := rfl
@[simp] theorem Dev.setGroup_loc (d : Dev) (g : Nat) (x : Group) : (d.setGroup g x).loc = d.loc := rfl
@[simp] theorem Dev.setGroup_idn (d : Dev) (g : Nat) (x : Group) : (d.setGroup g x).idn = d.idn := rfl
@[simp] theorem Dev.setGroup_boot (d : Dev) (g : Nat) (x : Group) : (d.setGroup g x).boot = d.boot := rfl

@[simp] theorem Dev.setAoc_variant (d : Dev) (n : Nat) (x : Aoc) : (d.setAoc n x).variant = d.variant := rfl
@[simp] theorem Dev.setAoc_clk (d : Dev) (n : Nat) (x : Aoc) : (d.setAoc n x).clk = d.clk := rfl
@[simp] theorem Dev.setAoc_out (d : Dev) (n : Nat) (x : Aoc) : (d.setAoc n x).out = d.out := rfl
@[simp] theorem Dev.setAoc_ctrs (d : Dev) (n : Nat) (x : Aoc) : (d.setAoc n x).ctrs = d.ctrs := rfl
@[simp] theorem Dev.setAoc_draws (d : Dev) (n : Nat) (x : Aoc) : (d.setAoc n x).draws = d.draws := rfl
@[simp] theorem Dev.setAoc_cfg (d : Dev) (n : Nat) (x : Aoc) : (d.setAoc n x).cfg = d.cfg := rfl
@[simp] theorem Dev.setAoc_tb (d : Dev) (n : Nat) (x : Aoc) : (d.setAoc n x).tb = d.tb := rfl
@[simp] theorem Dev.setAoc_q (d : Dev) (n : Nat) (x : Aoc) : (d.setAoc n x).q = d.q := rfl
@[simp] theorem Dev.setAoc_fr (d : Dev) (n : Nat) (x : Aoc) : (d.setAoc n x).fr = d.fr := rfl
@[simp] theorem Dev.setAoc_air (d : Dev) (n : Nat) (x : Aoc) : (d.setAoc n x).air = d.air := rfl
@[simp] theorem Dev.setAoc_pl (d : Dev) (n : Nat) (x : Aoc) : (d.setAoc n x).pl = d.pl := rfl
@[simp] theorem Dev.setAoc_led (d : Dev) (n : Nat) (x : Aoc) : (d.setAoc n x).led = d.led := rfl
@[simp] theorem Dev.setAoc_cmd (d : Dev) (n : Nat) (x : Aoc) : (d.setAoc n x).cmd = d.cmd := rfl
@[simp] theorem Dev.setAoc_bal (d : Dev) (n : Nat) (x : Aoc) : (d.setAoc n x).bal = d.bal := rfl
@[simp] theorem Dev.setAoc_met (d : Dev) (n : Nat) (x : Aoc) : (d.setAoc n x).met = d.met := rfl
@[simp] theorem Dev.setAoc_leg (d : Dev) (n : Nat) (x : Aoc) : (d.setAoc n x).leg = d.leg := rfl
@[simp] theorem Dev.setAoc_mir (d : Dev) (n : Nat) (x : Aoc) : (d.setAoc n x).mir = d.mir := rfl
@[simp] theorem Dev.setAoc_up (d : Dev) (n : Nat) (x : Aoc) : (d.setAoc n x).up = d.up := rfl
@[simp] theorem Dev.setAoc_sto (d : Dev) (n : Nat) (x : Aoc) : (d.setAoc n x).sto = d.sto := rfl
@[simp] theorem Dev.setAoc_evr (d : Dev) (n : Nat) (x : Aoc) : (d.setAoc n x).evr = d.evr := rfl
@[simp] theorem Dev.setAoc_pair (d : Dev) (n : Nat) (x : Aoc) : (d.setAoc n x).pair = d.pair := rfl
@[simp] theorem Dev.setAoc_disp (d : Dev) (n : Nat) (x : Aoc) : (d.setAoc n x).disp = d.disp := rfl
@[simp] theorem Dev.setAoc_loc (d : Dev) (n : Nat) (x : Aoc) : (d.setAoc n x).loc = d.loc := rfl
@[simp] theorem Dev.setAoc_idn (d : Dev) (n : Nat) (x : Aoc) : (d.setAoc n x).idn = d.idn := rfl
@[simp] theorem Dev.setAoc_boot (d : Dev) (n : Nat) (x : Aoc) : (d.setAoc n x).boot = d.boot := rfl

end Sys2Proof.Machine
end

