-- ==== Sys2Proof/Laws/Ops.lean ====
section
/-!
SUPPORT. The shared operations: what running a command can do, what bringing the device up to a command's instant changes, and what
writing to a class queue or raising an event leaves alone.
-/

namespace Sys2Proof.Machine

/-- The state a command leaves that changes only the device. -/
theorem run_eq (t : Nat) (s : State) (f : Dev → Dev) :
    run t s f = .next { s with dev := { f (s.dev.advance t) with clk := (s.dev.advance t).clk } } := rfl

/-- The state a command leaves that may change the word memories too. -/
theorem runS_eq (t : Nat) (s : State) (f : Stores → Dev → Stores × Dev) :
    runS t s f = .next { s with
      stores := (f s.stores (s.dev.advance t)).1
      dev := { (f s.stores (s.dev.advance t)).2 with clk := (s.dev.advance t).clk } } := rfl

/-- A fold whose step keeps a projection keeps it. -/
theorem foldl_keeps {α β : Type} (p : Dev → β) (f : Dev → α → Dev) (h : ∀ d a, p (f d a) = p d) (l : List α) (d : Dev) :
    p (l.foldl f d) = p d := by
  induction l generalizing d with
  | nil => rfl
  | cons a r ih => rw [List.foldl_cons, ih, h]

/-- A projection that does not see what writing to class queues changes: the queues and the counters. -/
structure SeesNoQueue {β : Type} (p : Dev → β) : Prop where
  q    : ∀ d x, p { d with q := x } = p d
  ctrs : ∀ d x, p { d with ctrs := x } = p d

namespace SeesNoQueue

variable {β : Type} {p : Dev → β}

theorem count (h : SeesNoQueue p) (d : Dev) (f : Fld) : p (d.count f) = p d := h.ctrs d _

theorem countN (h : SeesNoQueue p) (d : Dev) (f : Fld) (n : Nat) : p (d.countN f n) = p d := h.ctrs d _

theorem setQueue (h : SeesNoQueue p) (d : Dev) (g c : Nat) (q : CQueue) : p (d.setQueue g c q) = p d := h.q d _

theorem notePages (h : SeesNoQueue p) (d : Dev) (c : Nat) : p (d.notePages c) = p d := by
  unfold Dev.notePages
  split
  · exact h.ctrs d _
  · rfl

theorem spill (h : SeesNoQueue p) (d : Dev) (g c : Nat) (k : Packet) : p (d.spill g c k) = p d := by
  unfold Dev.spill
  simp only [h.notePages, h.count, h.setQueue]

theorem place (h : SeesNoQueue p) {d d' : Dev} {g c : Nat} {k : Packet} (e : d.place g c k = some d') : p d' = p d := by
  unfold Dev.place at e
  simp only at e
  split at e
  · split at e
    · cases e
      rw [h.spill, h.setQueue]
    · cases e
  · split at e
    · cases e
      rw [h.spill, h.setQueue]
    · split at e
      · cases e
        rw [h.setQueue, h.setQueue]
      · cases e

theorem settlePart (h : SeesNoQueue p) (d : Dev) (g c : Nat) : p (d.settlePart g c) = p d := by
  unfold Dev.settlePart
  simp only
  split
  · rfl
  · split
    · rfl
    · split
      · rw [h.count, h.setQueue]
      · cases e : (d.setQueue g c { d.queue g c with part := none }).place g c _ with
        | none => rfl
        | some d' => exact (h.place e).trans (h.setQueue ..)

theorem settleHeld (h : SeesNoQueue p) (g c : Nat) (l : List Packet) (d : Dev) : p (d.settleHeld g c l) = p d := by
  induction l generalizing d with
  | nil => exact h.setQueue ..
  | cons k r ih =>
    unfold Dev.settleHeld
    split
    · rename_i e
      rw [ih, h.place e]
    · exact h.setQueue ..

theorem noteBp (h : SeesNoQueue p) (d : Dev) (g c : Nat) : p (d.noteBp g c) = p d := by
  unfold Dev.noteBp
  simp only
  split
  · exact h.setQueue ..
  · exact h.setQueue ..
  · rfl

theorem pressure (h : SeesNoQueue p) (d : Dev) (c : Nat) : p (d.pressure c) = p d := by
  unfold Dev.pressure
  split
  · exact h.q d _
  · exact (h.ctrs _ _).trans (h.q d _)
  · rfl

theorem settle (h : SeesNoQueue p) (d : Dev) (g c : Nat) : p (d.settle g c) = p d := by
  unfold Dev.settle
  simp only [h.pressure, h.noteBp, h.settleHeld, h.settlePart]

theorem settleAll (h : SeesNoQueue p) (d : Dev) : p d.settleAll = p d :=
  foldl_keeps p _ (fun x c => foldl_keeps p _ (fun y g => h.settle y g c) _ x) _ d

theorem enqueue (h : SeesNoQueue p) (d : Dev) (g c : Nat) (k : Packet) : p (d.enqueue g c k) = p d := by
  unfold Dev.enqueue
  split
  · exact h.count ..
  · exact (h.settle ..).trans (h.setQueue ..)

/-- Raising an event changes nothing but the event input and the counters. -/
theorem raise (h : SeesNoQueue p) (d : Dev) (code : Nat) (args : List Nat) (slot : Option Nat) :
    p (d.raise code args slot) = p d := h.enqueue ..

end SeesNoQueue

/-- A projection that does not see what moves by itself between two commands (R29, R63, R81, R92, R139, R510, R518, R543, R544, R549): local pins
with UARTs and the card, counters, outputs, transmissions and gains, lanes that a window aborts, impulsive blanking, and the shedding step. -/
structure SeesNoDrift {β : Type} (p : Dev → β) : Prop where
  loc  : ∀ d x, p { d with loc := x } = p d
  ctrs : ∀ d x, p { d with ctrs := x } = p d
  out  : ∀ d x, p { d with out := x } = p d
  fr   : ∀ d x, p { d with fr := x } = p d
  air  : ∀ d x, p { d with air := x } = p d
  pl   : ∀ d x, p { d with pl := x } = p d
  up   : ∀ d x, p { d with up := x } = p d

namespace SeesNoDrift

variable {β : Type} {p : Dev → β}

theorem countN (h : SeesNoDrift p) (d : Dev) (f : Fld) (n : Nat) : p (d.countN f n) = p d := h.ctrs d _

theorem count (h : SeesNoDrift p) (d : Dev) (f : Fld) : p (d.count f) = p d := h.ctrs d _

theorem emit (h : SeesNoDrift p) (d : Dev) (o : Out) : p (d.emit o) = p d := h.out d _

theorem onlyIf (_ : SeesNoDrift p) (d : Dev) (c : Bool) (f : Dev → Dev) (hf : ∀ x, p (f x) = p x) : p (d.onlyIf c f) = p d := by
  unfold Dev.onlyIf
  split
  · exact hf d
  · rfl

theorem sendLines (h : SeesNoDrift p) (u n : Nat) (d : Dev) : p (d.sendLines u n) = p d := by
  induction n generalizing d with
  | zero => rfl
  | succ n ih =>
    unfold Dev.sendLines
    simp only
    split
    · rfl
    · split
      · rfl
      · rw [ih, h.emit, h.count]
        exact h.loc d _

theorem sendLog (h : SeesNoDrift p) (d : Dev) : p d.sendLog = p d := foldl_keeps p _ (fun x _ => h.sendLines _ _ x) _ d

theorem countOver (h : SeesNoDrift p) (d : Dev) (a b : Nat) : p (d.countOver a b) = p d := foldl_keeps p _ (fun x _ => h.countN x _ _) _ d

theorem plSample (h : SeesNoDrift p) (d : Dev) (s ms : Nat) (v : Int) : p (d.plSample s ms v) = p d := by
  unfold Dev.plSample
  simp only
  rw [h.onlyIf _ _ _ fun x => h.count x _, h.onlyIf _ _ _ fun x => h.count x _,
    h.onlyIf _ _ _ fun x => (h.onlyIf _ _ _ fun y => h.count y _).trans (h.count x _)]
  exact h.pl d _

theorem plConvert (h : SeesNoDrift p) (d : Dev) (a b : Nat) : p (d.plConvert a b) = p d :=
  foldl_keeps p _ (fun x _ => foldl_keeps p _ (fun y _ =>
    (h.onlyIf _ _ _ fun z => h.count z _).trans (foldl_keeps p _ (fun z _ => h.plSample z _ _ _) _ y)) _ x) _ d

theorem openWindow (h : SeesNoDrift p) (d : Dev) (x : Tx) : p (d.openWindow x) = p d := by
  have h1 : ∀ y q f, p (Dev.abortLanes y q f) = p y := fun y q f =>
    foldl_keeps p _ (fun z _ => (h.air _ _).trans (h.count z _)) _ y
  have h2 : ∀ y q f, p (Dev.dropRequests y q f) = p y := fun y q f =>
    (foldl_keeps p _ (fun z _ => h.count z _) _ _).trans (h.fr y _)
  exact (h.fr _ _).trans ((h2 ..).trans (h1 ..))

theorem addTx (h : SeesNoDrift p) (d : Dev) (x : Tx) : p (d.addTx x) = p d := by
  unfold Dev.addTx
  simp only
  generalize (if x.opens ≤ d.clk then x.opened else x) = y
  split
  · exact (h.openWindow ..).trans (h.fr d _)
  · exact h.fr d _

theorem applyGain (h : SeesNoDrift p) (d : Dev) (e : Nat × Nat × Nat) : p (d.applyGain e) = p d := by
  unfold Dev.applyGain
  split
  · rfl
  · simp only
    rw [h.addTx]
    split
    · exact h.fr d _
    · exact (h.emit ..).trans (h.fr d _)

theorem openDue (h : SeesNoDrift p) (d : Dev) : p d.openDue = p d := by
  unfold Dev.openDue
  extract_lets d1 now d2
  have e1 : p d1 = p d := foldl_keeps p _ h.applyGain _ d
  have e2 : p d2 = p d1 := foldl_keeps p _ h.openWindow _ d1
  exact (h.fr d2 _).trans (e2.trans e1)

theorem keyPorts (h : SeesNoDrift p) (d : Dev) : p d.keyPorts = p d :=
  foldl_keeps p _ (fun x a => by split <;> first | rfl | exact (h.emit ..).trans (h.fr x _)) _ d

theorem keyFes (h : SeesNoDrift p) (d : Dev) : p d.keyFes = p d :=
  foldl_keeps p _ (fun x a => by split <;> first | rfl | exact (h.emit ..).trans (h.pl x _)) _ d

theorem keyCard (h : SeesNoDrift p) (d : Dev) : p d.keyCard = p d := by
  unfold Dev.keyCard
  split
  · exact (h.emit ..).trans (h.loc d _)
  · rfl

theorem shedWork (h : SeesNoDrift p) (d : Dev) : p d.shedWork = p d := by
  unfold Dev.shedWork
  simp only
  repeat' split
  all_goals first | rfl | exact h.up d _

theorem settleOuts (h : SeesNoDrift p) (d : Dev) : p d.settleOuts = p d := h.loc d _

/-- All that bringing the device up to an instant does beside moving the running axis and the timebase. -/
theorem advance (h : SeesNoDrift p) (d : Dev) (t : Nat) : p (d.advance t) = p (d.settleOuts.moveTo t) := by
  unfold Dev.advance
  simp only
  rw [h.shedWork, h.keyCard, h.keyFes, h.keyPorts, h.openDue, h.plConvert, h.countOver, h.sendLog]

/-- A projection that sees neither the running axis nor the timebase is as before. -/
theorem advance_eq (h : SeesNoDrift p) (hc : ∀ d x, p { d with clk := x } = p d) (ht : ∀ d x, p { d with tb := x } = p d)
    (d : Dev) (t : Nat) : p (d.advance t) = p d := by
  have e : ∀ x : Dev, p (x.moveTo t) = p x := fun x => by
    have e1 : x.moveTo t =
        { { { x with tb := x.tb.slew x.slewPpm (max x.clk t - x.clk) } with out := [] } with clk := max x.clk t } := rfl
    rw [e1, hc, h.out, ht]
  exact (h.advance d t).trans ((e _).trans (h.settleOuts d))

end SeesNoDrift

/-- The running axis stands at a command's instant, or where it stood if that was later. -/
@[simp] theorem Dev.advance_clk (d : Dev) (t : Nat) : (d.advance t).clk = max d.clk t :=
  SeesNoDrift.advance (p := Dev.clk) ⟨fun _ _ => rfl, fun _ _ => rfl, fun _ _ => rfl, fun _ _ => rfl, fun _ _ => rfl, fun _ _ => rfl,
    fun _ _ => rfl⟩ d t

@[simp] theorem Dev.advance_variant (d : Dev) (t : Nat) : (d.advance t).variant = d.variant :=
  SeesNoDrift.advance_eq (p := Dev.variant) ⟨fun _ _ => rfl, fun _ _ => rfl, fun _ _ => rfl, fun _ _ => rfl, fun _ _ => rfl, fun _ _ => rfl,
    fun _ _ => rfl⟩ (fun _ _ => rfl) (fun _ _ => rfl) d t

@[simp] theorem Dev.advance_draws (d : Dev) (t : Nat) : (d.advance t).draws = d.draws :=
  SeesNoDrift.advance_eq (p := Dev.draws) ⟨fun _ _ => rfl, fun _ _ => rfl, fun _ _ => rfl, fun _ _ => rfl, fun _ _ => rfl, fun _ _ => rfl,
    fun _ _ => rfl⟩ (fun _ _ => rfl) (fun _ _ => rfl) d t

@[simp] theorem Dev.advance_cfg (d : Dev) (t : Nat) : (d.advance t).cfg = d.cfg :=
  SeesNoDrift.advance_eq (p := Dev.cfg) ⟨fun _ _ => rfl, fun _ _ => rfl, fun _ _ => rfl, fun _ _ => rfl, fun _ _ => rfl, fun _ _ => rfl,
    fun _ _ => rfl⟩ (fun _ _ => rfl) (fun _ _ => rfl) d t

@[simp] theorem Dev.advance_pw (d : Dev) (t : Nat) : (d.advance t).pw = d.pw :=
  SeesNoDrift.advance_eq (p := Dev.pw) ⟨fun _ _ => rfl, fun _ _ => rfl, fun _ _ => rfl, fun _ _ => rfl, fun _ _ => rfl, fun _ _ => rfl,
    fun _ _ => rfl⟩ (fun _ _ => rfl) (fun _ _ => rfl) d t

@[simp] theorem Dev.advance_q (d : Dev) (t : Nat) : (d.advance t).q = d.q :=
  SeesNoDrift.advance_eq (p := Dev.q) ⟨fun _ _ => rfl, fun _ _ => rfl, fun _ _ => rfl, fun _ _ => rfl, fun _ _ => rfl, fun _ _ => rfl,
    fun _ _ => rfl⟩ (fun _ _ => rfl) (fun _ _ => rfl) d t

@[simp] theorem Dev.advance_led (d : Dev) (t : Nat) : (d.advance t).led = d.led :=
  SeesNoDrift.advance_eq (p := Dev.led) ⟨fun _ _ => rfl, fun _ _ => rfl, fun _ _ => rfl, fun _ _ => rfl, fun _ _ => rfl, fun _ _ => rfl,
    fun _ _ => rfl⟩ (fun _ _ => rfl) (fun _ _ => rfl) d t

@[simp] theorem Dev.advance_cmd (d : Dev) (t : Nat) : (d.advance t).cmd = d.cmd :=
  SeesNoDrift.advance_eq (p := Dev.cmd) ⟨fun _ _ => rfl, fun _ _ => rfl, fun _ _ => rfl, fun _ _ => rfl, fun _ _ => rfl, fun _ _ => rfl,
    fun _ _ => rfl⟩ (fun _ _ => rfl) (fun _ _ => rfl) d t

@[simp] theorem Dev.advance_bal (d : Dev) (t : Nat) : (d.advance t).bal = d.bal :=
  SeesNoDrift.advance_eq (p := Dev.bal) ⟨fun _ _ => rfl, fun _ _ => rfl, fun _ _ => rfl, fun _ _ => rfl, fun _ _ => rfl, fun _ _ => rfl,
    fun _ _ => rfl⟩ (fun _ _ => rfl) (fun _ _ => rfl) d t

@[simp] theorem Dev.advance_met (d : Dev) (t : Nat) : (d.advance t).met = d.met :=
  SeesNoDrift.advance_eq (p := Dev.met) ⟨fun _ _ => rfl, fun _ _ => rfl, fun _ _ => rfl, fun _ _ => rfl, fun _ _ => rfl, fun _ _ => rfl,
    fun _ _ => rfl⟩ (fun _ _ => rfl) (fun _ _ => rfl) d t

@[simp] theorem Dev.advance_leg (d : Dev) (t : Nat) : (d.advance t).leg = d.leg :=
  SeesNoDrift.advance_eq (p := Dev.leg) ⟨fun _ _ => rfl, fun _ _ => rfl, fun _ _ => rfl, fun _ _ => rfl, fun _ _ => rfl, fun _ _ => rfl,
    fun _ _ => rfl⟩ (fun _ _ => rfl) (fun _ _ => rfl) d t

@[simp] theorem Dev.advance_mir (d : Dev) (t : Nat) : (d.advance t).mir = d.mir :=
  SeesNoDrift.advance_eq (p := Dev.mir) ⟨fun _ _ => rfl, fun _ _ => rfl, fun _ _ => rfl, fun _ _ => rfl, fun _ _ => rfl, fun _ _ => rfl,
    fun _ _ => rfl⟩ (fun _ _ => rfl) (fun _ _ => rfl) d t

@[simp] theorem Dev.advance_sto (d : Dev) (t : Nat) : (d.advance t).sto = d.sto :=
  SeesNoDrift.advance_eq (p := Dev.sto) ⟨fun _ _ => rfl, fun _ _ => rfl, fun _ _ => rfl, fun _ _ => rfl, fun _ _ => rfl, fun _ _ => rfl,
    fun _ _ => rfl⟩ (fun _ _ => rfl) (fun _ _ => rfl) d t

@[simp] theorem Dev.advance_evr (d : Dev) (t : Nat) : (d.advance t).evr = d.evr :=
  SeesNoDrift.advance_eq (p := Dev.evr) ⟨fun _ _ => rfl, fun _ _ => rfl, fun _ _ => rfl, fun _ _ => rfl, fun _ _ => rfl, fun _ _ => rfl,
    fun _ _ => rfl⟩ (fun _ _ => rfl) (fun _ _ => rfl) d t

@[simp] theorem Dev.advance_pair (d : Dev) (t : Nat) : (d.advance t).pair = d.pair :=
  SeesNoDrift.advance_eq (p := Dev.pair) ⟨fun _ _ => rfl, fun _ _ => rfl, fun _ _ => rfl, fun _ _ => rfl, fun _ _ => rfl, fun _ _ => rfl,
    fun _ _ => rfl⟩ (fun _ _ => rfl) (fun _ _ => rfl) d t

@[simp] theorem Dev.advance_disp (d : Dev) (t : Nat) : (d.advance t).disp = d.disp :=
  SeesNoDrift.advance_eq (p := Dev.disp) ⟨fun _ _ => rfl, fun _ _ => rfl, fun _ _ => rfl, fun _ _ => rfl, fun _ _ => rfl, fun _ _ => rfl,
    fun _ _ => rfl⟩ (fun _ _ => rfl) (fun _ _ => rfl) d t

@[simp] theorem Dev.advance_idn (d : Dev) (t : Nat) : (d.advance t).idn = d.idn :=
  SeesNoDrift.advance_eq (p := Dev.idn) ⟨fun _ _ => rfl, fun _ _ => rfl, fun _ _ => rfl, fun _ _ => rfl, fun _ _ => rfl, fun _ _ => rfl,
    fun _ _ => rfl⟩ (fun _ _ => rfl) (fun _ _ => rfl) d t

@[simp] theorem Dev.advance_boot (d : Dev) (t : Nat) : (d.advance t).boot = d.boot :=
  SeesNoDrift.advance_eq (p := Dev.boot) ⟨fun _ _ => rfl, fun _ _ => rfl, fun _ _ => rfl, fun _ _ => rfl, fun _ _ => rfl, fun _ _ => rfl,
    fun _ _ => rfl⟩ (fun _ _ => rfl) (fun _ _ => rfl) d t

/-- An event changes neither the running axis nor what has been put out. -/
@[simp] theorem Dev.raise_clk (d : Dev) (code : Nat) (args : List Nat) (slot : Option Nat) : (d.raise code args slot).clk = d.clk :=
  SeesNoQueue.raise (p := Dev.clk) ⟨fun _ _ => rfl, fun _ _ => rfl⟩ ..

@[simp] theorem Dev.raise_variant (d : Dev) (code : Nat) (args : List Nat) (slot : Option Nat) : (d.raise code args slot).variant = d.variant :=
  SeesNoQueue.raise (p := Dev.variant) ⟨fun _ _ => rfl, fun _ _ => rfl⟩ ..

@[simp] theorem Dev.raise_out (d : Dev) (code : Nat) (args : List Nat) (slot : Option Nat) : (d.raise code args slot).out = d.out :=
  SeesNoQueue.raise (p := Dev.out) ⟨fun _ _ => rfl, fun _ _ => rfl⟩ ..

@[simp] theorem Dev.raise_draws (d : Dev) (code : Nat) (args : List Nat) (slot : Option Nat) : (d.raise code args slot).draws = d.draws :=
  SeesNoQueue.raise (p := Dev.draws) ⟨fun _ _ => rfl, fun _ _ => rfl⟩ ..

@[simp] theorem Dev.raise_cfg (d : Dev) (code : Nat) (args : List Nat) (slot : Option Nat) : (d.raise code args slot).cfg = d.cfg :=
  SeesNoQueue.raise (p := Dev.cfg) ⟨fun _ _ => rfl, fun _ _ => rfl⟩ ..

@[simp] theorem Dev.raise_tb (d : Dev) (code : Nat) (args : List Nat) (slot : Option Nat) : (d.raise code args slot).tb = d.tb :=
  SeesNoQueue.raise (p := Dev.tb) ⟨fun _ _ => rfl, fun _ _ => rfl⟩ ..

@[simp] theorem Dev.raise_pw (d : Dev) (code : Nat) (args : List Nat) (slot : Option Nat) : (d.raise code args slot).pw = d.pw :=
  SeesNoQueue.raise (p := Dev.pw) ⟨fun _ _ => rfl, fun _ _ => rfl⟩ ..

@[simp] theorem Dev.raise_fr (d : Dev) (code : Nat) (args : List Nat) (slot : Option Nat) : (d.raise code args slot).fr = d.fr :=
  SeesNoQueue.raise (p := Dev.fr) ⟨fun _ _ => rfl, fun _ _ => rfl⟩ ..

@[simp] theorem Dev.raise_air (d : Dev) (code : Nat) (args : List Nat) (slot : Option Nat) : (d.raise code args slot).air = d.air :=
  SeesNoQueue.raise (p := Dev.air) ⟨fun _ _ => rfl, fun _ _ => rfl⟩ ..

@[simp] theorem Dev.raise_pl (d : Dev) (code : Nat) (args : List Nat) (slot : Option Nat) : (d.raise code args slot).pl = d.pl :=
  SeesNoQueue.raise (p := Dev.pl) ⟨fun _ _ => rfl, fun _ _ => rfl⟩ ..

@[simp] theorem Dev.raise_led (d : Dev) (code : Nat) (args : List Nat) (slot : Option Nat) : (d.raise code args slot).led = d.led :=
  SeesNoQueue.raise (p := Dev.led) ⟨fun _ _ => rfl, fun _ _ => rfl⟩ ..

@[simp] theorem Dev.raise_cmd (d : Dev) (code : Nat) (args : List Nat) (slot : Option Nat) : (d.raise code args slot).cmd = d.cmd :=
  SeesNoQueue.raise (p := Dev.cmd) ⟨fun _ _ => rfl, fun _ _ => rfl⟩ ..

@[simp] theorem Dev.raise_bal (d : Dev) (code : Nat) (args : List Nat) (slot : Option Nat) : (d.raise code args slot).bal = d.bal :=
  SeesNoQueue.raise (p := Dev.bal) ⟨fun _ _ => rfl, fun _ _ => rfl⟩ ..

@[simp] theorem Dev.raise_met (d : Dev) (code : Nat) (args : List Nat) (slot : Option Nat) : (d.raise code args slot).met = d.met :=
  SeesNoQueue.raise (p := Dev.met) ⟨fun _ _ => rfl, fun _ _ => rfl⟩ ..

@[simp] theorem Dev.raise_leg (d : Dev) (code : Nat) (args : List Nat) (slot : Option Nat) : (d.raise code args slot).leg = d.leg :=
  SeesNoQueue.raise (p := Dev.leg) ⟨fun _ _ => rfl, fun _ _ => rfl⟩ ..

@[simp] theorem Dev.raise_mir (d : Dev) (code : Nat) (args : List Nat) (slot : Option Nat) : (d.raise code args slot).mir = d.mir :=
  SeesNoQueue.raise (p := Dev.mir) ⟨fun _ _ => rfl, fun _ _ => rfl⟩ ..

@[simp] theorem Dev.raise_up (d : Dev) (code : Nat) (args : List Nat) (slot : Option Nat) : (d.raise code args slot).up = d.up :=
  SeesNoQueue.raise (p := Dev.up) ⟨fun _ _ => rfl, fun _ _ => rfl⟩ ..

@[simp] theorem Dev.raise_sto (d : Dev) (code : Nat) (args : List Nat) (slot : Option Nat) : (d.raise code args slot).sto = d.sto :=
  SeesNoQueue.raise (p := Dev.sto) ⟨fun _ _ => rfl, fun _ _ => rfl⟩ ..

@[simp] theorem Dev.raise_evr (d : Dev) (code : Nat) (args : List Nat) (slot : Option Nat) : (d.raise code args slot).evr = d.evr :=
  SeesNoQueue.raise (p := Dev.evr) ⟨fun _ _ => rfl, fun _ _ => rfl⟩ ..

@[simp] theorem Dev.raise_pair (d : Dev) (code : Nat) (args : List Nat) (slot : Option Nat) : (d.raise code args slot).pair = d.pair :=
  SeesNoQueue.raise (p := Dev.pair) ⟨fun _ _ => rfl, fun _ _ => rfl⟩ ..

@[simp] theorem Dev.raise_disp (d : Dev) (code : Nat) (args : List Nat) (slot : Option Nat) : (d.raise code args slot).disp = d.disp :=
  SeesNoQueue.raise (p := Dev.disp) ⟨fun _ _ => rfl, fun _ _ => rfl⟩ ..

@[simp] theorem Dev.raise_loc (d : Dev) (code : Nat) (args : List Nat) (slot : Option Nat) : (d.raise code args slot).loc = d.loc :=
  SeesNoQueue.raise (p := Dev.loc) ⟨fun _ _ => rfl, fun _ _ => rfl⟩ ..

@[simp] theorem Dev.raise_idn (d : Dev) (code : Nat) (args : List Nat) (slot : Option Nat) : (d.raise code args slot).idn = d.idn :=
  SeesNoQueue.raise (p := Dev.idn) ⟨fun _ _ => rfl, fun _ _ => rfl⟩ ..

@[simp] theorem Dev.raise_boot (d : Dev) (code : Nat) (args : List Nat) (slot : Option Nat) : (d.raise code args slot).boot = d.boot :=
  SeesNoQueue.raise (p := Dev.boot) ⟨fun _ _ => rfl, fun _ _ => rfl⟩ ..

end Sys2Proof.Machine
end

