-- ==== Sys2Proof/WellFormed.lean ====
section
/-!
DEFINITION. Well-formed commands: every operand fits the field that carries it, names something a device can have, and belongs to
its row (spec 02, R43; 03, R60, R66; 06, R158; 12, R336, R345, R349–R353).
-/

namespace Sys2Proof

/-- A number below a bound, and one that fits a field of `n` bits. -/
def lt (v n : Nat) : Bool := decide (v < n)
def fits (n v : Nat) : Bool := decide (v < 2 ^ n)

/-- A slot number (R3). -/
def isSlot (n : Nat) : Bool := fits 21 n

/-- A packet's five tag words, where it starts here (R43). -/
def Burst.wf (b : Burst) : Bool := lt b.cls 5 && (b.tags.all fun w => w.length == 5)

def CtrlMsg.wf (m : CtrlMsg) : Bool := lt m.typ 256 && lt m.len 256 && decide (m.payload.length ≤ m.len)

/-- A block on a line: a 2-bit sync header and 64 bits. -/
def LineBlock.wf (b : LineBlock) : Bool := lt b.sync 4 && fits 64 b.bits

def LinkFrame.wf (f : LinkFrame) : Bool := f.line.all LineBlock.wf

def Phy.wf (p : Phy) : Bool := lt p.n 16 && lt p.mcs 8

/-- A PHY header's length field (R96–R98). -/
def Phr.wf (p : Phr) : Bool := lt p.mark 4 && fits 11 p.len && lt p.mcs 8

/-- What a correlator reports names a detector of the device (R82). -/
def Heard.wf (x : Heard) : Bool := lt x.stream 32 && lt x.sub 256 && x.phy.wf

/-- A frame's PSDU is no longer than a PHY header can say (R96–R98). -/
def RxEnd.wf (e : RxEnd) : Bool := decide (e.psdu.length ≤ 2047)

def PlFrame.wf (f : PlFrame) : Bool := lt f.modn 4 && fits 6 f.seg

/-- A COMMAND's fields (R345). -/
def CmdMsg.wf (m : CmdMsg) : Bool :=
  fits 36 m.ref && fits 36 m.id && fits 6 m.kind && lt m.form 8 && fits 24 m.deadline && fits 36 m.atS && fits 18 m.argWords
    && fits 18 m.tgtWords

/-- A COMMAND of the row whose KIND is `k`. A KIND that names nothing comes as any COMMAND row (R204). -/
def CmdMsg.wfAs (m : CmdMsg) (k : Nat) : Bool := m.wf && (m.kind == k || m.kind == 0 || decide (13 ≤ m.kind))

/-- A CONTROL's fields (R349). -/
def Control.wf (c : Control) : Bool := fits 36 c.ref && fits 4 c.op && fits 36 c.req && fits 72 c.arg

/-- A CONTROL of the row whose OP is `n` (R349). -/
def Control.wfAs (c : Control) (n : Nat) : Bool := c.wf && (c.op == n || c.badOp)

/-- Object address and count fields (R350, R351, R353). -/
def ObjRead.wf (r : ObjRead) : Bool := fits 36 r.ref && fits 36 r.req && fits 8 r.region && fits 28 r.offset && fits 13 r.count
def ObjWrite.wf (w : ObjWrite) : Bool := fits 36 w.ref && fits 36 w.req && fits 8 w.region && fits 28 w.offset && fits 13 w.count

/-- A segment comes from one of two peers, on a port or the pair link (R330, R460). -/
def Segment.wf (g : Segment) : Bool := lt g.peer 2 && lt g.port 3 && g.line.all LineBlock.wf

def Foreign.wf (f : Foreign) : Bool :=
  fits 64 f.gm && lt f.prio1 256 && lt f.cls 256 && lt f.acc 256 && fits 16 f.var && lt f.prio2 256 && fits 16 f.steps
    && fits 64 f.sender && fits 16 f.sport

def StartFacts.wf (f : StartFacts) : Bool := f.missing.all (fun d => lt d 64)

/-- A checkpoint part's header (R462). -/
def CkptPart.wf (p : CkptPart) : Bool := fits 36 p.no && fits 16 p.part && fits 6 p.typ && fits 36 p.off && fits 18 p.n

/-- A command is well formed. Its instant may be any. -/
def Instr.wf : Instr → Bool
  | .packetWrite _ g b => lt g 8 && b.wf
  | .staleTimeout _ g c => lt g 8 && lt c 5
  | .flush _ g c => lt g 8 && lt c 5
  | .mireFill _ g c _ => lt g 8 && lt c 5
  | .linkFrameSend _ link => lt link 16
  | .linkFrame _ link f => lt link 16 && f.wf
  | .delayReq _ link => lt link 16
  | .delayResp _ link _ _ _ _ => lt link 16
  | .status _ link _ => lt link 16
  | .alarm _ link bits => lt link 16 && fits 8 bits
  | .reedSilent _ link => lt link 16
  | .blockLock _ link line => lt link 16 && line.all LineBlock.wf
  | .blockLockLost _ link line => lt link 16 && line.all LineBlock.wf
  | .alignTimeout _ link => lt link 16
  | .lostTimeout _ link => lt link 16
  | .startBlockTimeout _ link => lt link 16
  | .streamGainChange _ stream gain => lt stream 32 && fits 6 gain
  | .detection _ x => x.wf
  | .phrClassMark _ stream sub mark => lt stream 32 && lt sub 256 && lt mark 4
  | .pendingGrant _ => true
  | .starved _ stream sub _ => lt stream 32 && lt sub 256
  | .phrDecoded _ lane p => lt lane 128 && p.wf
  | .macHeaderComplete _ lane _ => lt lane 128
  | .directoryLookup _ lane => lt lane 128
  | .frameEnd _ lane e => lt lane 128 && e.wf
  | .holdClose _ _ _ => true
  | .ackStart _ lane => lt lane 128
  | .ackEnd _ lane => lt lane 128
  | .mailWindowEnd _ slot => isSlot slot
  | .jobTableEntry _ => true
  | .jobAssign _ => true
  | .backoffEnd _ lane => lt lane 128
  | .ccaEnd _ lane _ => lt lane 128
  | .slottedCca _ _ => true
  | .txStart _ lane => lt lane 128
  | .blankEnd _ stream => lt stream 32
  | .txEnd _ lane => lt lane 128
  | .ackReceived _ lane _ => lt lane 128
  | .ackWaitTimeout _ lane => lt lane 128
  | .jobDeadline _ _ _ => true
  | .dwellBucket _ stream chan => lt stream 32 && lt chan 8192
  | .hornListenStart _ slot => isSlot slot
  | .hornListenEnd _ slot => isSlot slot
  | .hornCountReset _ => true
  | .plPreamble _ lane _ => lt lane 32
  | .plFrameEnd _ lane f => lt lane 32 && f.wf
  | .reasmTimeout _ stream _ tag => lt stream 32 && fits 16 tag
  | .plRespStart _ lane => lt lane 32
  | .plRespEnd _ lane => lt lane 32
  | .plAccessSlot _ lane => lt lane 32
  | .plTxEnd _ lane => lt lane 32
  | .plResponse _ lane _ check => lt lane 32 && fits 16 check
  | .plAwaitTimeout _ lane => lt lane 32
  | .routeRecompute _ => true
  | .routeRequest _ slot => isSlot slot
  | .sweepPeriod _ stream => lt stream 32
  | .sweepReply _ stream _ => lt stream 32
  | .sweepWindowEnd _ stream => lt stream 32
  | .validateFrame _ _ => true
  | .verifyDone _ slot => isSlot slot
  | .indexLookup _ slot => isSlot slot
  | .commit _ => true
  | .blockTimeLimit _ => true
  | .blockSigned _ => true
  | .staleScan _ => true
  | .rebuildWalkDone _ _ => true
  | .rebuildReleaseEnd _ => true
  | .rebuildAbort _ => true
  | .read _ m => m.wfAs 1
  | .disconnect _ m => m.wfAs 2
  | .reconnect _ m => m.wfAs 3
  | .tariffPush _ m => m.wfAs 4
  | .keyRotate _ m => m.wfAs 5
  | .campaignCreate _ m => m.wfAs 6
  | .campaignStart _ m => m.wfAs 6
  | .campaignActivate _ m => m.wfAs 6
  | .campaignCancel _ m => m.wfAs 6
  | .cancel _ m => m.wfAs 7
  | .enrol _ m => m.wfAs 8
  | .remove _ m => m.wfAs 9
  | .clearQuar _ m => m.wfAs 10
  | .rebuild _ m => m.wfAs 11
  | .sweepStart _ m => m.wfAs 12
  | .sweepStop _ m => m.wfAs 12
  | .transactionOpen _ cmd slot => fits 36 cmd && isSlot slot
  | .respWaitExpiry _ cmd slot => fits 36 cmd && isSlot slot
  | .transactionDeadline _ cmd slot => fits 36 cmd && isSlot slot
  | .tariffCut _ cmd => fits 36 cmd
  | .tariffSwitch _ cmd => fits 36 cmd
  | .arming _ camp => lt camp 64
  | .roundStart _ camp tgt => lt camp 64 && lt tgt 256
  | .reportWindowEnd _ camp tgt => lt camp 64 && lt tgt 256
  | .actCutoff _ camp => lt camp 64
  | .confirmQuery _ camp slot => lt camp 64 && isSlot slot
  | .noConfirm _ camp slot => lt camp 64 && isSlot slot
  | .campaignDeadline _ camp => lt camp 64
  | .membershipWrite _ w => w.wf && w.kind == .membership
  | .zoneReference _ z endS => lt z 4096 && fits 36 endS
  | .balWaitExpiry _ z endS => lt z 4096 && fits 36 endS
  | .correlatorRun _ => true
  | .changeBoundary _ => true
  | .syncDec _ _ => true
  | .metroReset _ c => c.wfAs 5
  | .metrologyWrite _ w => w.wf && w.kind == .metrology
  | .tickEnd _ => true
  | .boundary _ => true
  | .billReq _ w => w.wf && w.kind == .billReq
  | .buttonPress _ => true
  | .scrollAdvance _ => true
  | .scrollResume _ => true
  | .announce _ p dom f _ _ => lt p 2 && lt dom 256 && f.wf
  | .sync _ p dom seq _ => lt p 2 && lt dom 256 && fits 16 seq
  | .ptpDelayReq _ p => lt p 2
  | .ptpDelayResp _ p dom seq _ => lt p 2 && lt dom 256 && fits 16 seq
  | .syncSend _ p => lt p 2
  | .syncTimeout _ => true
  | .stepTakeEffect _ => true
  | .timeStep _ c => c.wfAs 1
  | .timeSet _ c => c.wfAs 2
  | .leap _ c => c.wfAs 3
  | .leapSecond _ => true
  | .startWaitExpiry _ => true
  | .beacon _ stream _ => lt stream 32
  | .rtcMeasure _ _ _ => true
  | .outageRtcUpdate _ raw _ => fits 48 raw
  | .pps _ => true
  | .cyclePulse _ => true
  | .tsqExpired _ p id => lt p 2 && fits 12 id
  | .mirrorRead _ addr => fits 20 addr
  | .mirrorHoldRelease _ => true
  | .mirrorFlip _ => true
  | .mirrorHold _ => true
  | .portLinkUp _ port => lt port 2
  | .portLinkDown _ port => lt port 2
  | .handshakeDone _ sess _ => lt sess 4
  | .handshakeTimeout _ sess _ => lt sess 4
  | .sessionTimeout _ sess => lt sess 4
  | .sessionBackoffEnd _ sess => lt sess 4
  | .keyUpdate _ sess => lt sess 4
  | .cxpSegment _ g => g.wf
  | .reasmTo _ peer seq => lt peer 2 && fits 36 seq
  | .ledgerAck _ port ref bno csn => lt port 2 && fits 36 ref && fits 36 bno && fits 72 csn
  | .blockReq _ ref first last => fits 36 ref && fits 36 first && fits 36 last
  | .ledgerBlock _ ref _ => fits 36 ref
  | .blockResend _ bno => fits 36 bno
  | .objRead _ r => r.wf
  | .objWrite _ w => w.wf && w.kind == .other
  | .recordWrite _ w => w.wf && w.kind == .record
  | .eventRead _ ref req cursor count => fits 36 ref && fits 36 req && fits 36 cursor && fits 9 count
  | .heartbeat _ => true
  | .lease _ req epoch _ _ => fits 36 req && fits 36 epoch
  | .leaseExpiry _ => true
  | .pairHbSend _ => true
  | .pairHb _ path role _ epoch csn _ => lt path 3 && lt role 3 && fits 36 epoch && fits 72 csn
  | .lastGasp _ _ => true
  | .configCheck _ w => w.wf && w.kind == .cfgCheck
  | .configInstall _ w => w.wf && w.kind == .cfgInstall
  | .configClear _ w => w.wf && w.kind == .cfgClear
  | .configWriteDone _ _ => true
  | .fwApply _ w => w.wf && w.kind == .fwApply
  | .fwClear _ w => w.wf && w.kind == .fwClear
  | .fwAbort _ w => w.wf && w.kind == .fwAbort
  | .fwBuildDone _ _ _ => true
  | .fwVerifyDone _ => true
  | .warmRestart _ c => c.wfAs 4 && c.arg != 1 && c.arg != 2
  | .warmRestartFirmware _ c => c.wfAs 4 && c.arg == 1
  | .warmRestartLegal _ c => c.wfAs 4 && c.arg == 2
  | .warmRestartResume _ => true
  | .swap _ c => c.wfAs 6
  | .storeWrite _ => true
  | .checkpoint _ => true
  | .checkpointValid _ => true
  | .stripeTimeout _ => true
  | .scrub _ _ _ die _ _ _ => lt die 64
  | .dieLost _ die => lt die 64
  | .storeCopyDone _ => true
  | .dayIndex _ _ => true
  | .archiveExpiry _ => true
  | .discardDone _ slot => slot.all isSlot
  | .discardTimeout _ slot _ => slot.all isSlot
  | .eventIntake _ => true
  | .eventFormat _ => true
  | .mainsLoss _ => true
  | .lastGaspRepeat _ => true
  | .holdupMetroEnd _ => true
  | .holdupSeal _ => true
  | .holdupStoreDone _ => true
  | .holdupEnd _ => true
  | .holdCrit _ => true
  | .comparatorCrossing _ chan _ => lt chan 9
  | .bandFiltered _ chan _ => lt chan 8
  | .tamper _ chan => lt chan 8
  | .domainReady _ dom => lt dom 56
  | .wakeFail _ dom => lt dom 56
  | .domainIdle _ dom => lt dom 56
  | .closeDone _ dom => lt dom 56
  | .switchDone _ dom => lt dom 56
  | .suppliesGood _ => true
  | .supplyTimeout _ => true
  | .supplyFault _ => true
  | .thermalTrip _ => true
  | .coldStart _ f => f.wf
  | .ledgerReady _ => true
  | .trialConfirm _ _ => true
  | .trialTimeout _ => true
  | .hbInterval _ => true
  | .peerWaitExpiry _ => true
  | .shipRetry _ => true
  | .ckptShip _ p => p.wf
  | .takeoverTimeout _ => true
  | .autoReturn _ => true
  | .handoverTimeout _ => true
  | .displayCommit _ addr mode _ _ => fits 36 addr && lt mode 16
  | .frameTick _ _ => true
  | .railsReady _ => true
  | .railFault _ => true
  | .railHoldExpiry _ => true
  | .dischargeDone _ _ => true
  | .tempRecheck _ _ => true
  | .uartRequest _ u _ _ => lt u 4
  | .uartGap _ u => lt u 4
  | .cardInsert _ => true
  | .cardRemove _ => true
  | .cardIdentified _ _ _ _ => true
  | .cardVerifyDone _ _ => true
  | .cardImportDone _ _ => true
  | .logBlockDue _ => true
  | .cardWriteConfirmed _ => true
  | .cardBusyTimeout _ _ => true
  | .coreWatchdog _ => true
  | .epochHold _ => true
  | .vbakLow _ _ => true
  | .vbakLoss _ => true
  | .announceReceiptTimeout _ p => lt p 2
  | .followUp _ p dom seq _ => lt p 2 && lt dom 256 && fits 16 seq
  | .announceSend _ p => lt p 2
  | .ptpDelayReqReceived _ p dom seq sender sport => lt p 2 && lt dom 256 && fits 16 seq && fits 64 sender && fits 16 sport
  | .fatalAlert _ sess => lt sess 4
  | .arpRequest _ port addr => lt port 2 && fits 32 addr
  | .echoRequest _ port _ => lt port 2
  | .pageProgramDone _ die temp _ => lt die 64 && lt temp 256
  | .pairBlockLock _ line => line.all LineBlock.wf
  | .pairBlockLockLost _ line => line.all LineBlock.wf

end Sys2Proof
end

