-- ==== Sys2Proof/Tests/Slice0.lean ====
section
/-!
SUPPORT. Tests of the model's own author: for each statement a state and operands that meet what it asks, with what the command
does there, and terms that well-formedness refuses.
-/

set_option Elab.async false

namespace Sys2Proof.Tests

open Sys2Proof Sys2Proof.Machine

/-- A state after reset with its device changed. -/
def dev (f : Dev → Dev) : State := { State.reset with dev := f State.reset.dev }

/-- What a command answers is a next state whose device passes `p`. -/
def after (r : Result) (p : Dev → Bool) : Bool :=
  match r with
  | .next s => p s.dev
  | _ => false

/-- A device with words written into its settings. -/
def withCfg (l : List (Nat × Word)) (d : Dev) : Dev := { d with cfg := l.foldl (fun m p => Memory.write m p.1 p.2) d.cfg }

theorem witness_EveryCommandAnswers : State.reset.pending = [] := rfl

theorem witness_StoresStayCanonical : State.reset.stores.wf = true ∧ ∃ s', step (State.reset.put (.flush 0 0 0)) = .next s' :=
  ⟨rfl, _, rfl⟩

/-- A state at instant `c`. -/
def at' (c : Nat) (s : State) : State := { s with dev := { s.dev with clk := c } }

/-- A burst that writes one whole packet of one octet, class C1. -/
def oneOctet : Burst := ⟨some [pk [(1, 35, 33), (1, 31, 16)], 0, 0, 0, 0], 0, [nonetWord [0x5A]], true, false⟩

/-- The packet that burst makes. -/
def onePacket : Packet := { Packet.ofTags [pk [(1, 35, 33), (1, 31, 16)], 0, 0, 0, 0] with data := [nonetWord [0x5A]] }

/-- A device with one class queue as given. -/
def withQueue (g c : Nat) (q : CQueue) : State := dev fun d => d.setQueue g c q

theorem witness_PacketWrite :
    onePacket.wellMade = true ∧ onePacket.len ≤ groupMax 7 ∧ 4 * (0 + onePacket.words) ≤ 3 * groupRing 7 ∧
    (State.reset.dev.advance 5).calm = true ∧
    after (exec (.packetWrite 5 7 oneOctet) State.reset) (fun d => (d.queue 7 1).ring == [onePacket] && (d.queue 7 1).qseq == 1) = true ∧
    after (exec (.packetWrite 5 7 { oneOctet with bad := true }) State.reset) (fun d => (d.queue 7 1).ring == [] && d.ctrs == []) = true ∧
    after (exec (.packetWrite 5 7 { oneOctet with words := List.replicate 65 (nonetWord [1, 2, 3, 4]), last := false }) State.reset)
      (fun d => (d.queue 7 1).drop && d.ctr (fOversize 1) == 1) = true ∧
    after (exec (.packetWrite 5 7 { oneOctet with words := [nonetWord [1, 2]] }) State.reset)
      (fun d => (d.queue 7 1).ring == [] && d.ctr (fMalformed 1) == 1) = true := by
  and_intros <;> decide +kernel

theorem witness_QueueCommandsComplete :
    (let s := withQueue 7 1 { CQueue.empty with part := some ⟨{ onePacket with data := [] }, 5, true, false⟩, qseq := 65535 };
      (s.dev.advance 5).isStale 7 1 = false ∧ (s.dev.advance 5).calm = true ∧
      after (exec (.packetWrite 5 7 { oneOctet with tags := none, cls := 1 }) s)
        (fun d => (d.queue 7 1).part == none && (d.queue 7 1).qseq == 0 && d.ctr (fFlushed 1) == 1) = true) ∧
    (let s := withQueue 0 2 { CQueue.empty with part := some ⟨onePacket, 0, false, false⟩ };
      after (exec (.staleTimeout 1 0 2) s) (fun d => (d.queue 0 2).part == none && d.ctr (fStale 2) == 1) = true) ∧
    (let s := withQueue 0 1 { CQueue.empty with ring := [onePacket] };
      (s.dev.advance 1).calm = true ∧ after (exec (.flush 1 0 1) s) (fun d => (d.queue 0 1).ring == [] && d.ctr (fFlushed 1) == 1) = true) ∧
    (let s := withQueue 0 1 { CQueue.empty with chain := [(0, onePacket)], wr := 6 };
      (s.dev.advance 1).calm = true ∧
      after (exec (.mireFill 1 0 1 none) s) (fun d => (d.queue 0 1).ring == [onePacket] && (d.queue 0 1).chain == []) = true ∧
      after (exec (.mireFill 1 0 1 (some 0)) s) (fun d => (d.queue 0 1).visible == [] && d.ctr (fEcc 1) == 1) = true) := by
  and_intros <;> decide +kernel

theorem witness_ClassQueuesKeepTheirOrder :
    (∃ d', State.reset.dev.place 7 1 onePacket = some d') ∧
    (((withQueue 0 1 { CQueue.empty with ring := [onePacket] }).dev.takePacket 0).map (·.1) = some onePacket) :=
  ⟨⟨_, rfl⟩, by decide +kernel⟩

theorem witness_CountersStopAtAllOnes : (State.reset.dev.countN (fStale 0) (2 ^ 40)).ctr (fStale 0) = (fStale 0).top := by
  decide +kernel

/-- A device with field link 0 as given. -/
def withLink (l : Link) : State := dev fun d => d.setLink 0 l

/-- 64 valid blocks, and as many without a valid sync header. -/
def validLine : List LineBlock := List.replicate 64 (ctlBlock 0x1E 0)
def badLine : List LineBlock := List.replicate 64 ⟨0, 0⟩

theorem witness_LinkStatesMove :
    after (exec (.blockLock 7 0 validLine) (withLink { Link.down with st := .locking })) (fun d => (d.link 0).st == .aligning) = true ∧
    after (exec (.blockLockLost 7 0 badLine) (withLink { Link.down with st := .up })) (fun d => (d.link 0).st == .lost) = true ∧
    after (exec (.alignTimeout (2 ^ 34) 0) (withLink { Link.down with st := .aligning })) (fun d => (d.link 0).st == .lost) = true ∧
    after (exec (.startBlockTimeout (2 ^ 34) 0) (withLink { Link.down with st := .up })) (fun d => (d.link 0).st == .lost) = true ∧
    after (exec (.lostTimeout (2 ^ 34) 0) (withLink { Link.down with st := .lost })) (fun d => (d.link 0).st == .locking) = true := by
  and_intros <;> decide +kernel

/-- A frame of a link that carries no stream, as its far end sends it. -/
def plainFrame : LinkFrame := ⟨(scramble 0 (State.reset.dev.frameBlocks 0 0 9 [])).1, 0⟩

/-- The same with a bit of its start block wrong. -/
def wrongFrame : LinkFrame := ⟨(scramble 0 ((State.reset.dev.frameBlocks 0 0 9 []).map fun b => ⟨b.sync, b.bits + 1⟩)).1, 0⟩

theorem witness_LinkFramesAreExchanged :
    after (exec (.linkFrameSend 7 0) (withLink { Link.down with st := .locking, txSeq := 65535 })) (fun d => (d.link 0).txSeq == 0) = true ∧
    after (exec (.linkFrame 7 0 plainFrame) (withLink { Link.down with st := .up, rxSeq := some 8, bad := 2 })) (fun d =>
      (d.link 0).bad == 0 && d.ctr (fFramesOk 0) == 1) = true ∧
    after (exec (.linkFrame 7 0 wrongFrame) (withLink { Link.down with st := .up, bad := 2 })) (fun d =>
      (d.link 0).bad == 3 && (d.link 0).st == .up && d.ctr (fCrcErr 0) == 1) = true ∧
    after (exec (.linkFrame 7 0 plainFrame) (withLink { Link.down with st := .aligning, good := 7, exch := true })) (fun d =>
      (d.link 0).st == .up) = true ∧
    after (exec (.delayReq 7 0) (withLink { Link.down with st := .up, sent := 1000 })) (fun d => (d.link 0).sent == 0) = true ∧
    after (exec (.delayResp 7 0 10 15 20 33) (withLink { Link.down with st := .up, req := some 10 })) (fun d =>
      (d.link 0).delay == 9 && (d.link 0).offset == -4) = true ∧
    after (exec (.delayResp 7 0 11 15 20 33) (withLink { Link.down with st := .up, req := some 10 })) (fun d =>
      (d.link 0).req == some 10 && d.ctr (fCtrlDrop 0) == 1) = true := by
  and_intros <;> decide +kernel

/-- An enabled RF stream 0 on local port 0 that searches subchannel 0 for FSK mode 0, with PD9, PD13, PD17 and PD36 ON. -/
def withStream (d : Dev) : Dev :=
  let d1 := withCfg [(blkRf, pk [(1, 35, 35), (868000, 27, 0)]), (blkRf + 2, pk [(1, 23, 23), (1, 22, 15)]), (blkRf + 3, 8)] d
  { d1 with
    pw := { d1.pw with doms := [(9, ⟨2, 0, 0, 0, false⟩), (13, ⟨2, 0, 0, 0, false⟩), (17, ⟨2, 0, 0, 0, false⟩), (36, ⟨2, 0, 0, 0, false⟩)] }
    air := { d1.air with lanes := [(0, Lane.idle)] }
    pair := { d1.pair with st := 3 }
    up := { d1.up with lease := some (2 ^ 60) } }

theorem witness_LinkMessagesAct :
    after (exec (.status 7 0 []) (withLink { Link.down with st := .aligning })) (fun d => (d.link 0).status == 7) = true ∧
    after (exec (.alarm 7 0 3) (withLink { Link.down with st := .up, alarm := 1 })) (fun d => (d.items 7) == [.event ⟨0x012, [0], none⟩]) = true ∧
    after (exec (.reedSilent (2 ^ 38) 0) (withLink { Link.down with st := .up })) (fun d => (d.items 7) == [.event ⟨0x015, [0], none⟩]) = true ∧
    after (exec (.reedSilent (2 ^ 38) 0) (withLink { Link.down with st := .up, silent := true })) (fun d => (d.items 7) == []) = true ∧
    after (exec (.streamGainChange 0 0 15) (dev withStream)) (fun d => d.rfGain 0 == 15 && d.blanked 0 [199]) = true := by
  and_intros <;> decide +kernel

/-- A detection on that stream. -/
def heard0 : Heard := ⟨0, 0, false, ⟨false, 0, 0, false⟩, 100, 0, 50⟩

theorem witness_DetectionsAreGranted :
    (let d := (withStream State.reset.dev).advance 7; let x := d.detectOf heard0;
      d.searching 0 = true ∧ d.searches 0 0 x.phy = true ∧ d.blanked 0 x.subs = false ∧ d.quiet = false ∧ d.aboveFloor heard0 = true ∧
      d.selfHeard 0 x.subs = false ∧ d.freeLane? = some 0) ∧
    after (exec (.detection 7 heard0) (dev withStream)) (fun d => (d.lane 0).st == .rx && d.ctr (fGranted 0) == 1) = true ∧
    (let s := dev fun d => { withStream d with fr := { d.fr with pend := [⟨(withStream d).detectOf heard0, 2, 1, 0⟩] } };
      after (exec (.detection 7 heard0) s) (fun d => d.ctr (fBusySub 0) == 1) = true ∧
      after (exec (.phrClassMark 7 0 0 1) s) (fun d => (d.fr.pend.map Request.cls) == [0]) = true ∧
      after (exec (.pendingGrant 7) s) (fun d => (d.lane 0).st == .rx && d.fr.pend == []) = true ∧
      after (exec (.starved 7000000 0 0 false) s) (fun d => d.fr.pend == [] && d.ctr (fStarved 0) == 1) = true) := by
  and_intros <;> decide +kernel

/-- That stream with its dwell entry, TX_LANES 1, one retry, MIN_BE 0 and MAX_BE 3, two assessments, and mail windows of 50 ms. -/
def withAir (d : Dev) : Dev :=
  withCfg [(blkAir, pk [(1, 35, 28), (1, 27, 25), (3, 20, 17), (2, 16, 14), (16, 13, 6)]), (blkAir + 1, pk [(50, 35, 26)]),
    (blkAir + 5, pk [(4, 35, 32), (6, 31, 24), (30, 23, 16), (500, 15, 4)]),
    (blkDwell, pk [(800000, 35, 8), (1, 0, 0)]), (blkDwell + 1, pk [(900000, 35, 8)]), (blkDwell + 2, pk [(3600, 35, 24), (100000, 23, 0)])]
    (withStream d)

/-- A record in use with the receive counter at 9. -/
def rec9 : MeterRec := { MeterRec.blank with inUse := true, eui := 0x11, rxCtr := 9, mail := true }

/-- The device of stream 0 with lane 0 as given and a record at slot 7. -/
def withLane (l : Lane) : State := dev fun d =>
  let e := (withAir d).setLane 0 l
  { e with led := { e.led with recs := [(7, rec9)], dir := { d.led.dir with stash := [(0x11, 7)] } } }

def det9 : Detect := ⟨0, 0, false, ⟨false, 0, 0, false⟩, 100, 50⟩
def os9 : List Octet := sentHeader 1 false true 77 0 (.short 0) 0x11
def hdr9 : MacHdr := (parseMac os9).getD ⟨0, 0, false, false, 0, none, .none, .none, 0⟩
def psdu9 : List Octet := withFcs true (os9 ++ [1, 2])
def phr9 : Phr := ⟨false, 0, true, psdu9.length, 0, false⟩
def rx9 : Lane := { Lane.idle with st := .rx, det := det9 }
def phrd9 : Lane := { rx9 with phr := some phr9 }

theorem witness_LanesReceiveFrames :
    phr9.valid det9.phy = true ∧
    after (exec (.phrDecoded 7 0 phr9) (withLane rx9)) (fun d => (d.lane 0).phr == some phr9) = true ∧
    after (exec (.phrDecoded 7 0 { phr9 with len := 0 }) (withLane rx9)) (fun d => (d.lane 0).st == .idle && d.ctr (fPhrErr 0) == 1) = true ∧
    after (exec (.macHeaderComplete 7 0 os9) (withLane phrd9)) (fun d => (d.lane 0).hdr == some hdr9) = true ∧
    after (exec (.macHeaderComplete 7 0 (os9.take 5)) (withLane phrd9)) (fun d => (d.lane 0).st == .idle && d.ctr (fAddrFilter 0) == 1) = true ∧
    after (exec (.macHeaderComplete 7 0 (sentHeader 2 false true 77 0 (.short 0) 0x11)) (withLane phrd9)) (fun d =>
      (d.lane 0).st == .idle && d.ctr (fAddrFilter 0) == 1) = true ∧
    after (exec (.macHeaderComplete 7 0 os9) (withLane { rx9 with phr := some { phr9 with len := 4 } })) (fun d =>
      (d.lane 0).st == .idle && d.ctr (fPhrErr 0) == 1) = true ∧
    after (exec (.directoryLookup 7 0) (withLane { phrd9 with hdr := some hdr9 })) (fun d => (d.lane 0).slot == some 7 && (d.lane 0).rxCtr == 9) = true ∧
    after (exec (.directoryLookup 7 0) (withLane { phrd9 with hdr := some { hdr9 with ftype := 3 } })) (fun d => d.ctr (fAddrFilter 0) == 1) = true ∧
    after (exec (.directoryLookup 7 0) (withLane { phrd9 with hdr := some { hdr9 with src := .ext 0x12, sec := true } })) (fun d =>
      (d.lane 0).st == .idle && d.ctr (fUnknownSrc 0) == 1) = true ∧
    after (exec (.directoryLookup 7 0) (withLane { phrd9 with hdr := some { hdr9 with src := .ext 0x12 } })) (fun d =>
      (d.lane 0).st == .rx && (d.lane 0).cls == 4) = true := by
  and_intros <;> decide +kernel

def looked9 : Lane := { phrd9 with hdr := some hdr9, looked := true, grp := 1 }

/-- A device whose duplicate group 1 is as given. -/
def withGroup (x : DupGroup) (s : State) : State := { s with dev := { s.dev with fr := { s.dev.fr with grps := [(1, x)] } } }

theorem witness_LanesReceiveFrames_end :
    after (exec (.frameEnd 7 0 ⟨5000, 50, psdu9.map (· + 1)⟩) (withLane looked9)) (fun d => (d.lane 0).st == .idle && d.ctr (fFcsErr 0) == 1) = true ∧
    after (exec (.frameEnd 7 0 ⟨5000, 50, psdu9⟩) (withGroup ⟨0, 0, 0, det9.phy, none, none⟩ (withLane looked9))) (fun d =>
      (d.lane 0).st == .hold && (d.lane 0).cls == 4 && (NMap.find d.fr.grps 1).map DupGroup.hold == some (some 5000)) = true ∧
    (let c := frameContent hdr9 (plainDone 5000 (ofBE (psdu9.drop (psdu9.length - 2))) 50 hdr9 []);
      after (exec (.frameEnd 7 0 ⟨5000, 50, psdu9⟩) (withGroup ⟨0, 0, 0, det9.phy, none, some [c]⟩ (withLane looked9))) (fun d =>
        (d.lane 0).st == .idle && d.ctr (fLateDup 0) == 1)) = true ∧
    after (exec (.frameEnd 7 0 ⟨5000, 50, psdu9⟩) (withLane { looked9 with slot := some 7 })) (fun d =>
      (d.lane 0).st == .idle && d.ctr (fSecFail 0) == 1) = true := by
  and_intros <;> decide +kernel

/-- A secured frame with counter 10 under key 1. -/
def key9 : List Octet := List.replicate 16 7
def shdr9 : List Octet := sentHeader 1 true false 77 0 (.short 0) 0x11 ++ sentAux 5 10 1
def sec9 : List Octet := shdr9 ++ ccmSeal key9 (secNonce 0x11 10 5) shdr9 [1, 2] 4

theorem witness_FrameChecksOfARecord :
    (openFrame [(1, key9)] 9 { hdr9 with sec := true } 0x11 sec9).1 = .pass ∧ State.reset.dev.macFilter hdr9 = true ∧
    (dev fun d => d.setRec 7 rec9).dev.rec? 7 = some rec9 ∧ (none : Option Octet).bind State.reset.dev.classOfOctet = none ∧
    (dev (withCfg [(blkClassOct, 0x841)])).dev.classOfOctet 0x41 = some 0 := by
  and_intros <;> decide +kernel

def done9 : RxDone := plainDone 5000 7 50 hdr9 [0x11, 0x22]
def hold9 : Lane := { looked9 with st := .hold, slot := some 7, fin := some done9 }

/-- The transmission of lane 0 in a phase, its first sample at 0. -/
def txn9 (ph : TxPhase) (os : List Octet) (horn : Nat) : Tx := ⟨0, 0, [0], ph, 0, 0, 0, det9.phy, 0, os, horn⟩
def withTx (x : Tx) (s : State) : State := { s with dev := { s.dev with fr := { s.dev.fr with txs := [x] } } }

theorem witness_KeptCopiesAreAcknowledged :
    after (exec (.holdClose (2 ^ 36) false 1) (at' (2 ^ 36) (withGroup ⟨0, 0, 0, det9.phy, some 5000, none⟩ (withLane hold9)))) (fun d =>
      (d.lane 0).st == .turn && (d.lane 0).fpend && (d.queue 0 2).ring.length == 1
        && (d.rec? 7).map MeterRec.rxCtr == some 9) = true ∧
    after (exec (.ackStart (2 ^ 36) 0) (at' (2 ^ 36) (withTx (txn9 .reserved [1] 0) (withLane { hold9 with st := .turn, fpend := true })))) (fun d =>
      (d.lane 0).st == .ack && d.out.contains (.ack 0 0 det9.phy [1])) = true ∧
    after (exec (.ackEnd (2 ^ 36) 0) (at' (2 ^ 36) (withLane { hold9 with st := .ack, fpend := true }))) (fun d =>
      (d.lane 0).st == .idle && (NMap.find d.air.mail 7).isSome) = true ∧
    after (exec (.ackEnd (2 ^ 36) 0) (at' (2 ^ 36) (withLane { hold9 with st := .ack }))) (fun d =>
      (d.lane 0).st == .idle && (NMap.find d.air.mail 7).isNone) = true ∧
    after (exec (.mailWindowEnd 10 7) (dev fun d => { d with air := { d.air with mail := [(7, ⟨0, 0, det9.phy, 1, 10, true, false⟩)] } }))
      (fun d => d.air.mail == []) = true ∧
    after (exec (.blankEnd (2 ^ 36) 0) (at' (2 ^ 36) (dev fun d => { d with fr := { d.fr with txs := [txn9 .tail [] 0, { txn9 .onAir [] 0 with lane := 1 }] } })))
      (fun d => d.fr.txs.map Tx.phase == [.onAir]) = true := by
  and_intros <;> decide +kernel

theorem witness_KeptCopiesAreAcknowledged_turn :
    (let d := (at' (2 ^ 36) (withLane hold9)).dev; let l := d.lane 0;
      d.streamUp 0 = true ∧ d.txCount 0 < 4 ∧ d.dwellAckFits 0 [0] (det9.phy.airUs l.ackOctets) = true ∧ d.rfSrcLink 0 = false) ∧
    (withTx (txn9 .reserved [] 0) (withLane hold9)).dev.txCount 0 = 1 ∧ State.reset.dev.streamUp 0 = false := by
  and_intros <;> decide +kernel

/-- A multicast job that names its stream, its frame built. -/
def job9 : Job := { Job.base .other none 2 0 (2 ^ 40) [1, 2] with via := some (0, 0, det9.phy), frame := some [1, 2, 3], seq := 3 }

def withJobs (q : List Job) (t : NMap Job) (l : Lane) : State := dev fun d =>
  let e := (withAir d).setLane 0 l
  let x : Dev := { e with air := { e.air with jobs := t, nextJ := 9 } }
  q.foldl Dev.queueJob x

theorem witness_JobsAreScheduled :
    after (exec (.jobTableEntry 7) (withJobs [{ job9 with start := 50 }] [] Lane.idle)) (fun d =>
      d.items 3 == [] && NMap.find d.air.jobs 9 == some { job9 with start := 50 }) = true ∧
    after (exec (.jobTableEntry 7) (withJobs [{ job9 with start := 50, pl := true }] [] Lane.idle)) (fun d =>
      d.items 3 == [] && (NMap.find d.pl.jobs 9).isSome) = true ∧
    after (exec (.jobAssign 7) (withJobs [] [(4, job9)] Lane.idle)) (fun d => (d.lane 0).st == .cca && (d.lane 0).job == some 4) = true ∧
    after (exec (.jobDeadline (2 ^ 40) false 4) (at' (2 ^ 40) (withJobs [] [(4, job9)] Lane.idle))) (fun d => d.air.jobs == []) = true ∧
    ((withJobs [] [] Lane.idle).dev.entriesOf 0).find? (fun e => e.1 == 0 / 256) ≠ none ∧
    (let s := withJobs [] [] Lane.idle;
      after (exec (.dwellBucket (2 ^ 50) 0 0) (at' (2 ^ 50) { s with dev := s.dev.updDwell 0 0 fun _ => ⟨[(0, 5)], []⟩ })) (fun d =>
        (d.dwellOf 0 0).used == [])) = true := by
  and_intros <;> decide +kernel

def tx9 : Lane := { Lane.idle with det := det9, job := some 4 }

/-- A record of a slotted meter that is synchronised, its slots every 2 s. -/
def slotted9 : MeterRec :=
  { rec9 with period := 2, window := 200, syncT := 4, homeKhz := 848000, stream1 := 0, dlMode := 0 }

theorem witness_TransmissionsRun :
    (let s (l : Lane) (j : Job) := at' (2 ^ 36) (withJobs [] [(4, j)] l); let c := { tx9 with st := .cca };
      after (exec (.backoffEnd (2 ^ 36) 0) (s c job9)) (fun d => (d.lane 0).phase == 1) = true ∧
      (s { c with phase := 1, heard := true } job9).dev.channelBusy { c with phase := 1, heard := true } [] = true ∧
      (s { c with phase := 1 } job9).dev.channelBusy { c with phase := 1 } [] = false ∧
      after (exec (.ccaEnd (2 ^ 36) 0 []) (s { c with phase := 1 } job9)) (fun d => (d.lane 0).phase == 2) = true ∧
      after (exec (.ccaEnd (2 ^ 36) 0 []) (s { c with phase := 1, horn := true } job9)) (fun d => (d.lane 0).phase == 2) = true ∧
      after (exec (.ccaEnd (2 ^ 36) 0 []) (s { c with phase := 1, heard := true } job9)) (fun d =>
        (d.lane 0).be == 1 && (d.lane 0).busy == 1 && d.ctr (fCcaBusy 0) == 1) = true ∧
      after (exec (.ccaEnd (2 ^ 36) 0 []) (s { c with phase := 1, heard := true, slotted := true } job9)) (fun d =>
        (d.lane 0).st == .idle && d.ctr (fSlotBusy 0) == 1) = true ∧
      after (exec (.ccaEnd (2 ^ 36) 0 []) (s { c with phase := 1, heard := true, busy := 1 } job9)) (fun d =>
        (d.lane 0).st == .idle && d.ctr (fLbtFail 0) == 1) = true) := by
  and_intros <;> decide +kernel

theorem witness_TransmissionsRun_tx :
    (let s (l : Lane) (j : Job) (x : Tx) := at' (2 ^ 36) (withTx x (withJobs [] [(4, j)] l)); let c := { tx9 with st := .cca, phase := 2 };
      after (exec (.txStart (2 ^ 36) 0) (s c job9 (txn9 .planned [1, 2, 3] 0))) (fun d =>
        (d.lane 0).st == .tx && d.out.contains (.air 0 0 det9.phy [1, 2, 3])) = true ∧
      after (exec (.txStart (2 ^ 36) 0) (s { c with horn := true } job9 (txn9 .planned [9] 4))) (fun d =>
        (d.lane 0).st == .tx && d.out.contains (.horn 0 0 [9] 4)) = true ∧
      after (exec (.txEnd (2 ^ 36) 0) (s { tx9 with st := .tx } { job9 with ar := true } (txn9 .onAir [1] 0))) (fun d => (d.lane 0).st == .await) = true ∧
      after (exec (.txEnd (2 ^ 36) 0) (s { tx9 with st := .tx } { job9 with ar := false } (txn9 .onAir [1] 0))) (fun d =>
        (d.lane 0).st == .idle && d.air.jobs == []) = true ∧
      after (exec (.txEnd (2 ^ 36) 0) (s { tx9 with st := .tx, horn := true } job9 (txn9 .onAir [1] 0))) (fun d =>
        (d.lane 0).st == .idle && d.air.jobs == []) = true ∧
      (parseMac (ackPsdu 3 0 false true)).map MacHdr.dst = some (.ext 0) ∧
      after (exec (.ackReceived (2 ^ 36) 0 ⟨ackPsdu 3 0 false true, true, 0⟩) (s { tx9 with st := .await } job9 (txn9 .tail [1] 0))) (fun d =>
        (d.lane 0).st == .idle && d.ctr (fTxAcked 0) == 1) = true ∧
      after (exec (.ackWaitTimeout (2 ^ 36) 0) (s { tx9 with st := .await } job9 (txn9 .tail [1] 0))) (fun d =>
        (d.lane 0).st == .idle && d.ctr (fNoAck 0) == 1) = true) := by
  and_intros <;> decide +kernel

theorem witness_TransmissionsRun_slotted :
    (let s := withJobs [] [(4, { job9 with slot := some 7, via := none, deadline := 2 ^ 50 })] Lane.idle; let t := 5999935 * 2 ^ 36 / 1000000 + 1;
      after (exec (.slottedCca t 4) (at' t { s with dev := s.dev.setRec 7 slotted9 })) (fun d =>
        (d.lane 0).st == .cca && (d.lane 0).phase == 1 && (d.lane 0).job == some 4)) = true := by
  and_intros <;> decide +kernel

theorem witness_TransmissionsRun_horn :
    (let s := dev fun d => { d with air := { d.air with horn := [(7, ⟨0, 0, det9.phy, 5, 9, false, false⟩)] } };
      after (exec (.hornListenStart 5 7) s) (fun d => (liveWindow d.air.horn 7).isSome) = true ∧
      after (exec (.hornListenEnd 9 7) s) (fun d => d.air.horn == []) = true) := by
  and_intros <;> decide +kernel

/-- Powerline stream 0 on front end 0, its lane as given, with a record at slot 7. -/
def withPl (l : PlLane) (j : NMap Job) : State := at' (2 ^ 36) (dev fun d0 =>
  let d := withCfg [(blkPl, pk [(1, 35, 35)]), (blkPl + 2, pk [(1390, 14, 3)]), (blkPlNet, pk [(1000, 35, 24), (2, 23, 20), (7, 19, 16), (3, 15, 12), (8, 11, 8), (5, 7, 5), (3, 4, 2)]),
    (blkPlNet + 1, pk [(900, 35, 24), (8, 23, 20)]), (blkPlNet + 2, pk [(360, 35, 24), (30, 23, 16), (20, 15, 10)]), (blkPlNet + 3, pk [(80, 35, 24), (1, 23, 16), (2, 15, 13), (100, 12, 0)])] d0
  let e := (d.setPlLane 0 l).setRec 7 rec9
  { e with
    pw := { e.pw with doms := [(33, ⟨2, 0, 0, 0, false⟩)] }
    pl := { e.pl with jobs := j, grps := [(1, ⟨0, 0, 0, ⟨false, 0, 0, false⟩, some 5000, none⟩)] }
    led := { e.led with dir := { e.led.dir with stash := [(0x11, 7)] } }
    pair := { e.pair with st := 3 }
    up := { e.up with lease := some (2 ^ 60) } })

def plIn (st : PlSt) : PlLane := { PlLane.init with st := st, grp := 1 }

/-- A frame of one segment to the device itself, asking for an acknowledgement. -/
def plOf (h : List Octet) : PlFrame := ⟨true, false, 0, 0, true, 5000, 90, withFcs true (h ++ [9])⟩
def plHdr9 : List Octet := sentHeader 1 false true 77 0 (.ext 0) 0x12
def plMac9 : MacHdr := (parseMac plHdr9).getD hdr9
def plRx9 : PlRx := PlRx.of plMac9 (plOf plHdr9) (plainDone 5000 7 50 plMac9 (plHdr9 ++ [9]))

theorem witness_PowerlineFramesAreReceived :
    (withPl (plIn .idle) []).dev.plHears 0 0 = true ∧
    after (exec (.plPreamble 7 0 ⟨70, 0, 90⟩) (withPl (plIn .idle) [])) (fun d => (d.plLane 0).st == .rx && (d.plLane 0).tag == 70) = true ∧
    after (exec (.plPreamble 7 0 ⟨70, 0, 90⟩) (withPl { plIn .access with job := some 4, draw := 1000, since := 2 ^ 36 } [(4, { job9 with start := 2 ^ 36 })])) (fun d =>
      (d.plLane 0).st == .rx && (d.plLane 0).be == 1 && d.ctr (fPlCcaBusy 0) == 1) = true ∧
    after (exec (.plPreamble 7 0 ⟨70, 0, 90⟩) (withPl { plIn .access with job := some 4, draw := 1000, since := 2 ^ 36, busy := 4 } [(4, job9)])) (fun d =>
      (d.plLane 0).st == .rx && d.ctr (fPlLbtFail 0) == 1 && d.pl.jobs == []) = true ∧
    after (exec (.plFrameEnd 7 0 { plOf plHdr9 with fchOk := false }) (withPl (plIn .rx) [])) (fun d =>
      (d.plLane 0).st == .idle && d.ctr (fPlFchErr 0) == 1) = true ∧
    after (exec (.plFrameEnd 7 0 (plOf [])) (withPl (plIn .rx) [])) (fun d => (d.plLane 0).st == .idle && d.ctr (fPlRxFrames 0) == 0) = true ∧
    after (exec (.plFrameEnd 7 0 (plOf (sentHeader 1 true true 77 0 (.ext 0) 0x12))) (withPl (plIn .rx) [])) (fun d =>
      (d.plLane 0).st == .idle && d.ctr (fPlUnknownSrc 0) == 1) = true ∧
    after (exec (.plFrameEnd 7 0 { plOf plHdr9 with psdu := plHdr9 ++ [9, 0, 0] }) (withPl (plIn .rx) [])) (fun d =>
      (d.plLane 0).st == .nack && d.ctr (fPlFcsErr 0) == 1) = true ∧
    after (exec (.plFrameEnd 7 0 (plOf plHdr9)) (withPl (plIn .rx) [])) (fun d =>
      (d.plLane 0).st == .hold && (d.plLane 0).cls == 4 && d.ctr (fPlRxFrames 0) == 1) = true := by
  and_intros <;> decide +kernel

theorem witness_PowerlineFramesAreReceived_held :
    after (exec (.holdClose 7 true 1) (withPl { plIn .hold with frame := some plRx9, ar := true, endT := 5000 } [])) (fun d =>
      (d.plLane 0).st == .turn && (d.queue 1 2).ring.map Packet.len == [plRx9.head.length + 1]) = true ∧
    (let s := withPl (plIn .idle) [];
      after (exec (.reasmTimeout 7 0 5 6) (at' (2 ^ 41) { s with dev := s.dev.setReasm 0 [⟨5, 6, 10, 0, [], none⟩] })) (fun d =>
        NMap.look d.pl.reasm 0 [] == [] && d.ctr (fPlReasmTo 0) == 1) = true) ∧
    after (exec (.plRespStart 7 0) (withPl { plIn .turn with ack := true, check := 3 } [])) (fun d =>
      (d.plLane 0).st == .resp && d.out.contains (.plResp 0 true 3)) = true := by
  and_intros <;> decide +kernel

/-- The time of a response is free: whatever it is, a lane can have sent its last sample. -/
theorem witness_PowerlineFramesAreReceived_sent (d : Dev) (n us : Nat) (h : d.tb.off = 0) :
    ({ d with clk := (d.plLane n).first + usT us } : Dev).plStopped n us = true := by
  simp only [Dev.plStopped, Dev.axis, Dev.plLane, h, decide_eq_true_eq]
  omega

def plJob9 : Job := { job9 with pl := true, slot := some 7, via := none, deadline := 2 ^ 50 }

/-- What does not rest on the free air time of a G.9903 frame. -/
theorem witness_PowerlineJobsAreSent :
    (withPl { plIn .access with job := some 4 } [(4, plJob9)]).dev.plOthersSend 0 = false ∧
    after (exec (.plAccessSlot 7 0) (withPl { plIn .access with job := some 4 } [(4, plJob9)])) (fun d => (d.plLane 0).st == .idle) = true ∧
    after (exec (.plResponse 7 0 true (frameCheck [])) (withPl { plIn .await with job := some 4 } [(4, plJob9)])) (fun d => (d.plLane 0).st == .idle) = true ∧
    after (exec (.plResponse 7 0 true 7) (withPl { plIn .await with job := some 4 } [(4, plJob9)])) (fun d => (d.plLane 0).st == .await) = true ∧
    after (exec (.plResponse 7 0 false (frameCheck [])) (withPl { plIn .await with job := some 4 } [(4, plJob9)])) (fun d =>
      (d.plLane 0).st == .access && (d.plLane 0).be == 3) = true ∧
    after (exec (.plAwaitTimeout 7 0) (withPl { plIn .await with job := some 4 } [(4, plJob9)])) (fun d =>
      (d.plLane 0).st == .access && d.ctr (fPlNoAck 0) == 1) = true := by
  and_intros <;> decide +kernel

/-- A job can have a deadline late enough for its frame, whatever the frame's air time. -/
theorem witness_PowerlineJobsAreSent_slot (d : Dev) (n : Nat) :
    ∃ x, d.clk + d.plLead n + usT (d.plAirOf n { plJob9 with deadline := x }) ≤ x :=
  have h : ∀ x, d.plAirOf n { plJob9 with deadline := x } = d.plAirOf n plJob9 := fun _ => rfl
  ⟨d.clk + d.plLead n + usT (d.plAirOf n plJob9), by simp only [h, Nat.le_refl]⟩

def cand9 : Route := ⟨0, 7, 1, 4, 0⟩

theorem witness_PowerlineJobsAreSent_routes :
    (let s0 := withPl (plIn .idle) [(4, plJob9)];
      let r : MeterRec := { rec9 with pl := true, cands := [cand9] };
      let s := { s0 with dev := { s0.dev.setRec 7 r with pl := { s0.dev.pl with lastS := [(7, 0)] } } };
      s.dev.routeDue = true ∧
      after (exec (.routeRecompute 7) s) (fun d =>
        ((d.rec? 7).bind MeterRec.route).map Route.cost == some 4 && d.pl.route == 2 ^ 36) = true ∧
      after (exec (.routeRequest 7 7) s) (fun d =>
        (d.items 3).length == 1 && NMap.find d.pl.rreq 7 == some (2 ^ 36)) = true) := by
  and_intros <;> decide +kernel

theorem witness_AdoptedRouteIsTheBest :
    ({ rec9 with cands := [{ cand9 with cost := 9 }, cand9] }.adopt 7 5).route = some { cand9 with time := 5 } := by
  decide +kernel

def reply9 : SweepReply := ⟨0x99, [0xD1, 0, 1, 0, 2, 1], 80⟩

def withSweep (w : Sweep) : State :=
  let s := withPl (plIn .idle) []
  { s with dev := s.dev.setSweep 0 w }

theorem witness_SweepsWalkThePrefixTree :
    after (exec (.sweepPeriod 7 0) (withSweep Sweep.init)) (fun d =>
      (d.sweep 0).st == .query && (d.sweep 0).id == 1 && (d.items 3).length == 1) = true ∧
    after (exec (.sweepPeriod 7 0) (withSweep { Sweep.init with st := .quiet })) (fun d => (d.sweep 0).st == .quiet) = true ∧
    reply9.answers 1 = true ∧
    after (exec (.sweepReply 7 0 reply9) (withSweep { Sweep.init with st := .wait, id := 1 })) (fun d => (d.sweep 0).reps == [reply9]) = true ∧
    after (exec (.sweepReply 7 0 reply9) (withSweep { Sweep.init with st := .confirm, id := 1 })) (fun d => (d.sweep 0).reps == [reply9]) = true ∧
    after (exec (.sweepWindowEnd 7 0) (withSweep { Sweep.init with st := .wait, stack := [(1, 0)] })) (fun d =>
      (d.sweep 0).cur == (1, 0) && (d.sweep 0).st == .query) = true ∧
    after (exec (.sweepWindowEnd 7 0) (withSweep { Sweep.init with st := .wait, heard := true })) (fun d =>
      (d.sweep 0).cur == (1, 0) && (d.sweep 0).stack == [(1, 1#64 <<< 63)]) = true ∧
    after (exec (.sweepWindowEnd 7 0) (withSweep { Sweep.init with st := .wait, reps := [reply9] })) (fun d =>
      (d.sweep 0).st == .quiet && (d.sweep 0).todo == [0x99]) = true ∧
    (let f : Found := ⟨0x99, 1, 1, 80, false, true, 0, false⟩;
      after (exec (.sweepWindowEnd 7 0) (withSweep { Sweep.init with st := .confirm, heard := true, found := [{ f with tries := 1 }] })) (fun d =>
        d.ctr (fDiscDropped 0) == 1) = true) := by
  and_intros <;> decide +kernel

/-- One reading of a meter at 15 minutes, ending at 9,000 s. -/
def read6 : Reading := ⟨9000, 0, 0, [0, 0, 0, 0]⟩
def info6 : FrameInfo := ⟨some 7, 2, 5000, 0, 0, 200, false, 10, 0, 0x11, 20000 * 2 ^ 36⟩
def rec6 : MeterRec := { rec9 with ivlMin := 15, ttActive := 7, lastEnd := 8100, lastCsn := 3 }
def pay6 : List Octet := [0x10, 1, 0, 7, 0, 15, 0, 0, 0, 0, 0, 35, 40] ++ List.replicate 83 0
def set6 : ReadingSet := ⟨false, false, 7, 15, 0, [read6], [], [sigAt (pay6.take 32) (pay6.drop 32)]⟩
def meta6 : RxMeta := ⟨0, 0x11, 10, 0, 20000 * 2 ^ 36, false, 0⟩
def pkt6 : Packet := ⟨2, 96, 1, 5000, some 7, none, 0, 0, 200, packOctets pay6, .frame meta6⟩

/-- A ledger that runs, one assigned slot with a signature key, and device time set at 20,000 s. -/
def withLedger (f : Ledger → Ledger) : State := dev fun d0 =>
  let d := withCfg [(blkLedger + 1, pk [(4, 19, 12)])] d0
  let e := (d.setRec 7 rec6).setKeys 7 { KeyBlock.blank with sigV := true }
  { e with
    led := f { e.led with enrolled := true, accepts := true, csn := 4, bno := 2 }
    tb := { e.tb with set := true, off := 20000 * 2 ^ 36 } }

/-- The first is also in a queue of received frames, or an item of the commit input. -/
def withQ6 (p : Packet) (f : Ledger → Ledger) : State :=
  let s := withLedger f
  { s with dev := s.dev.setQueue 0 2 { s.dev.queue 0 2 with ring := [p] } }
def withItem6 (i : CommitItem) (f : Ledger → Ledger) : State :=
  let s := withLedger f
  { s with dev := s.dev.queueCommit i }

def val6 (st : ValStage) : Validating := ⟨info6, set6, st, [0], [], true, none⟩
def commits (d : Dev) : List CommitKind := d.committable.map (·.2.kind)
def old6 (l : Ledger) : Ledger := { l with recs := [(7, { rec6 with lastEnd := 90000 })], inVal := [(7, val6 .lookup)] }

theorem witness_ReadingsReachTheCommitInput_frames :
    parseSet pay6 = some set6 ∧ ((withQ6 pkt6 id).dev.nextFrame 0).map (·.1) = some pkt6 ∧
    (withQ6 pkt6 id).dev.nextFrame 1 = none ∧ pkt6.meta false = some meta6 ∧ pkt6.slot = some 7 ∧ { pkt6 with slot := none }.slot = none ∧
    { pkt6 with item := .none, data := [] }.meta false = none ∧
    (withQ6 pkt6 id).dev.waitsAside pkt6 = false ∧
    (withLedger fun l => { l with inVal := [(7, val6 .verify)] }).dev.waitsAside pkt6 = true ∧
    after (exec (.validateFrame 7 false) (withQ6 pkt6 id)) (fun d =>
      (NMap.find d.led.inVal 7).map Validating.set == some set6 && (NMap.find d.led.inVal 7).map Validating.unit == some true) = true ∧
    after (exec (.validateFrame 7 true) (withQ6 pkt6 id)) (fun d => (d.queue 0 2).ring == [pkt6]) = true ∧
    after (exec (.validateFrame 7 false) (withQ6 { pkt6 with data := packOctets [0x11], len := 1 } id)) (fun d =>
      commits d == [.reject info6 4] && d.led.inVal == []) = true ∧
    after (exec (.validateFrame 7 false) (withQ6 pkt6 fun l => { l with recs := [] })) (fun d => commits d == [.reject info6 6]) = true ∧
    after (exec (.validateFrame 7 false) (withQ6 pkt6 fun l => { l with inVal := [(7, val6 .verify)] })) (fun d =>
      d.led.aside == [pkt6]) = true := by
  and_intros <;> decide +kernel

theorem witness_ReadingsReachTheCommitInput_sets :
    (withLedger id).dev.needLook rec6 (val6 .verify) [(0, read6)] = [] ∧
    (withLedger old6).dev.needLook { rec6 with lastEnd := 90000 } (val6 .lookup) [(0, read6)] = [9000] ∧
    ((withLedger id).dev.keyBlock 7).sigV = true ∧ ((withLedger id).dev.keyBlock 8).sigV = false ∧
    after (exec (.verifyDone 7 7) (withLedger fun l => { l with inVal := [(7, val6 .verify)] })) (fun d =>
      (NMap.find d.led.inVal 7).map Validating.sigs == some [2] && commits d == [.run 7]) = true ∧
    after (exec (.indexLookup 7 7) (withLedger old6)) (fun d =>
      (NMap.find d.led.inVal 7).map Validating.look == some [(9000, none)] && commits d == [.run 7]) = true := by
  and_intros <;> decide +kernel

theorem witness_CommitsTakeTheirNumbers :
    after (exec (.commit 7) (withItem6 ⟨2, 5000, 0, 0, some 7, .run 7⟩ fun l => { l with inVal := [(7, val6 .queued)] })) (fun d =>
      d.led.csn == 5 && commits d == [] && (d.rec? 7).map MeterRec.lastEnd == some 9000) = true ∧
    after (exec (.commit 7) (withLedger id)) (fun d => d.led.csn == 4) = true ∧
    after (exec (.commit 7) (withItem6 ⟨2, 5000, 0, 0, some 7, .reject info6 3⟩ fun l => { l with recs := [] })) (fun d =>
      d.led.csn == 5 && d.ctr fRejected == 1) = true ∧
    after (exec (.commit 7) (withItem6 ⟨2, 5000, 0, 0, some 7, .status info6 6⟩ id)) (fun d =>
      d.led.csn == 5 && (d.rec? 7).map (MeterRec.has · sbOutage) == some true) = true ∧
    after (exec (.commit 7) (withItem6 ⟨4, 5000, 0, 0, none, .discovery info6 0 0 0 true⟩ fun l => { l with ann := [(0x11, 20000 * 2 ^ 36)] }))
      (fun d => d.led.csn == 4 + b2n (d.ctr fAnnSuppr == 0)) = true ∧
    after (exec (.commit 7) (withItem6 ⟨1, 0, 0, 0, none, .dirSwitch⟩ fun l => { l with rebuild := { l.rebuild with st := .switch } })) (fun d =>
      d.led.csn == 5 && d.led.rebuild.st == .release) = true ∧
    bestBy CommitItem.first [⟨2, 5000, 0, 0, some 7, .run 7⟩, ⟨1, 6000, 0, 0, none, .dirSwitch⟩] = some ⟨1, 6000, 0, 0, none, .dirSwitch⟩ := by
  and_intros <;> decide +kernel

def entry6 (c : Nat) : Entry := mkEntry 0x03 c 5 (some 7) 256 [0, 0]

theorem witness_EntriesFollowOneAnother :
    (let d := (withLedger id).dev;
      (d.append (entry6 0)).2.led.openB = none ∧ ((d.append (entry6 1)).2.led.openB.map fun o => o.entries.map Entry.csn) = some [4] ∧
      ((d.append (entry6 0) true).2.led.openB.map fun o => o.entries.map Entry.csn) = some [4]) ∧
    (withLedger fun l => { l with openB := some ⟨List.replicate 4095 (entry6 1), 0⟩ }).dev.led.openB.map (·.entries.length) = some 4095 := by
  and_intros <;> decide +kernel

theorem witness_RecordsFollowTheJudgement :
    (let d := (withLedger id).dev;
      (d.judgeReading rec6 info6 set6 read6 0 none).outcome = 2 ∧
      (let f := info6;
        let s := { set6 with mclk := 20000 * 1000 % 65536 };
        (d.judgeReading rec6 f s read6 0 none).outcome = 0 ∧
        (d.judgeReading rec6 f s read6 2 none) = rejectedAs 1 0 0 ∧
        (d.judgeReading { rec6 with lastCsn := 0 } f s read6 0 none) = ⟨1, 0, 32, 0⟩ ∧
        (d.judgeReading { rec6 with lastEnd := 10800 } f s read6 0 none) = ⟨1, 0, 4, 0⟩ ∧
        (d.judgeReading { rec6 with lastEnd := 9000 } f s read6 0 none) = rejectedAs 2 0 3 ∧
        (d.judgeReading { rec6 with lastEnd := 90000 } f s read6 0 none) = quarantinedAs 20 0)) := by
  and_intros <;> decide +kernel

def block6 : Block := ⟨1, 0, 1, 3, 0, 1, [entry6 1], 0, 0, none, 0, 0, none, 0⟩

theorem witness_BlocksSealAndAreSigned :
    after (exec (.blockTimeLimit (2 ^ 36)) (withLedger fun l => { l with openB := some ⟨[entry6 1], 0⟩ })) (fun d =>
      d.led.openB.isNone && d.led.bno == 3 && d.led.signQ == [2]) = true ∧
    (let s := withLedger fun l => { l with blocks := [(1, block6)], signQ := [1, 2] }
     let d := s.dev.advance (2 ^ 36)
     d.led.signQ = [1, 2] ∧ (NMap.find d.led.blocks 1).isSome = true ∧ d.passedUs (max block6.sealClk d.led.signAt) 1600 = true) ∧
    rec6.inUse = true ∧
    after (exec (.staleScan (2 ^ 36)) { withLedger id with dev := withCfg [(blkLedger + 1, 0)] (withLedger id).dev }) (fun d =>
      d.led.scan == 20001 && d.led.csn == 4) = true ∧
    after (exec (.staleScan (2 ^ 36)) (withLedger id)) (fun d =>
      d.led.scan == 20001 && d.led.csn == 5 && (d.rec? 7).map (MeterRec.has · sbStale) == some true) = true := by
  and_intros <;> decide +kernel

def withRebuild (st : RebuildSt) : State := withLedger fun l => { l with
  rebuild := ⟨st, 0, 5, 1, DirSet.empty⟩, dir := { DirSet.empty with stash := [(0x11, 7)] } }

theorem witness_RebuildsRunTheirStates :
    after (exec (.rebuildWalkDone 7 true) (withRebuild .build)) (fun d => d.led.rebuild.st == .abort && d.led.rebuild.cause == 1) = true ∧
    after (exec (.rebuildWalkDone 7 false) (withRebuild .build)) (fun d => d.led.rebuild.st == .switch && commits d == [.dirSwitch]) = true ∧
    after (exec (.rebuildReleaseEnd (2 ^ 36)) (withRebuild .release)) (fun d => d.led.rebuild.st == .idle) = true ∧
    after (exec (.rebuildAbort (2 ^ 36)) (withRebuild .abort)) (fun d => d.led.rebuild.st == .idle && d.items 7 == [.event ⟨0x023, [1], none⟩]) = true := by
  and_intros <;> decide +kernel

theorem witness_DirectoryFindsWhatItInserts :
    (DirSet.empty.find 0x11 = none) ∧ ((DirSet.empty.insert (0x11, 7) 0).bind fun p => p.1.find 0x11) = some 7 := by
  and_intros <;> decide +kernel

theorem witness_DirectoryFindsWhatItInserts_sound : DirSet.empty.Sound := by
  refine ⟨?_, ?_, ?_, ?_⟩ <;> simp [DirSet.empty, DirSet.entries]

def slot7 : Word := pk [(7, 35, 15)]
def msg7 (kind : Nat) (args tgts : List Word) : CmdMsg :=
  ⟨1, 5, kind, if tgts.isEmpty then 4 else 0, 60, 0, args.length, tgts.length, args ++ tgts⟩

/-- What the message's own entry in the table reads. -/
def ended7 (d : Dev) (code : Nat) : Bool := (d.cmd? 5).map (fun c => (c.ended, c.reason)) == some (true, code)

def open7 (d : Dev) (mc : Nat) : Bool := (d.txn? 5 7).map (fun x => (x.st, x.mcmd)) == some (TxnSt.opened, mc)

/-- The jobs that wait. -/
def jobs7 (d : Dev) : List JobFor := d.jobQ.map Job.who

theorem witness_MeterCommandsAreAccepted :
    (let d := (withLedger id).dev
     let m := msg7 1 [0, 100] [slot7]
     d.pw.hu = none ∧ d.boot.recovery = 0 ∧ d.ledgerRuns = true ∧ d.listed 5 = none ∧ d.cmdCount < 1024 ∧ d.targets m = [7] ∧
      d.targetRefusal m = none ∧ m.sound 1 = true ∧ m.tgtsFit = true ∧ d.openTxns + (d.targets m).length ≤ 262144 ∧ rec6.openTx < 7) ∧
    (let k := msg7 5 [pk [(3, 35, 28)], 0, 0, 0, 0, 0, 0, 0] [slot7]
     (withLedger id).dev.rotateRefusal k = none ∧ (listedSlots k).map (·.1) = [7] ∧ k.argWords = 8 * k.tgtWords) ∧
    after (exec (.read 7 (msg7 1 [0, 100] [slot7])) (withLedger id)) (open7 · 1) = true ∧
    after (exec (.read 7 (msg7 1 [0, 100] [pk [(8, 35, 15)]])) (withLedger id)) (fun d => d.led.csn == 5 && d.cmd? 5 == none) = true ∧
    after (exec (.read 7 (msg7 1 [0] [slot7])) (withLedger id)) (fun d => d.led.csn == 5 && d.cmd? 5 == none) = true ∧
    after (exec (.disconnect 7 (msg7 2 [] [slot7])) (withLedger id)) (open7 · 2) = true ∧
    after (exec (.reconnect 7 (msg7 3 [] [slot7])) (withLedger id)) (open7 · 3) = true ∧
    after (exec (.tariffPush 7 (msg7 4 [pk [(9, 35, 28), (4, 27, 17)], 30000, 40000, 0] [slot7])) (withLedger id)) (open7 · 4) = true := by
  and_intros <;> decide +kernel

theorem witness_MeterCommandsAreAccepted_turned :
    (let m := msg7 1 [0, 100] [slot7]
     let s := withLedger id
     (withLedger fun l => { l with accepts := false }).dev.ledgerRuns = false ∧
     after (exec (.read 7 m) { s with dev := { s.dev with boot := { s.dev.boot with recovery := 1 } } }) (fun d => d.led.csn == 4) = true ∧
     after (exec (.read 7 m) { s with dev := s.dev.setCmd { s.dev.newCmd m with kind := 2 } }) (fun d => d.led.csn == 4) = true ∧
     { s.dev with pw := { s.dev.pw with hu := some ⟨0, 0, 2, false, false, false⟩ } }.pw.hu ≠ none ∧
     { s.dev with cmd := { s.dev.cmd with tab := List.replicate 1024 (9, s.dev.newCmd m) } }.cmdCount = 1024) := by
  and_intros <;> decide +kernel

def cmd7 (id kind phase : Nat) (args : List Word) : Cmd :=
  ⟨id, kind, 0, 0, 2 ^ 42, 0, false, 1, 0, 0, rcAccepted, 3, 0, args, [], false, phase, false, false⟩
def txn7 (st : TxnSt) (mcmd : Nat) (staged : Bool) : Txn := ⟨9, 7, st, 0, 1, 0, false, mcmd, false, 0, 2 ^ 42, false, staged, 0, []⟩

/-- That ledger with a command 9 and its transaction with slot 7. -/
def withCmd (c : Cmd) (x : Txn) (r : MeterRec) : State :=
  let s := withLedger fun l => { l with recs := [(7, r)] }
  { s with dev := { (s.dev.setCmd c).setTxn x with
    cfg := Memory.write s.dev.cfg blkCommands (pk [(30, 35, 24), (120, 23, 12)]) } }

def enrolArgs : List Word := [0, pk [(0x22, 35, 4)], 0, pk [(15, 15, 4)]] ++ List.replicate 24 0

theorem witness_DeviceCommandsComplete :
    after (exec (.cancel 7 (msg7 7 [9] [])) (withCmd (cmd7 9 1 0 []) (txn7 .opened 1 false) rec6)) (fun d =>
      ended7 d rcComplete && (d.txn? 9 7).map Txn.st == some .ended) = true ∧
    after (exec (.cancel 7 (msg7 7 [8] [])) (withLedger id)) (fun d => d.cmd? 5 == none && d.led.csn == 5) = true ∧
    (let m := msg7 8 enrolArgs []
     m.sound 8 = true ∧ m.noTgts = true ∧ m.argWords = 28) ∧
    after (exec (.remove 7 (msg7 9 [slot7, 0, pk [(0x12, 35, 4)]] [])) (withLedger id)) (fun d => d.cmd? 5 == none && d.led.csn == 5) = true ∧
    after (exec (.remove 7 (msg7 9 [slot7, 0, pk [(0x11, 35, 4)]] [])) (withLedger id)) (fun d =>
      ended7 d rcComplete && d.rec? 7 == none && NMap.find d.led.heldS 7 == some 2) = true ∧
    after (exec (.clearQuar 7 (msg7 0x0A [] [slot7])) (withLedger fun l => { l with recs := [(7, rec6.setBit sbQuarantined true)] })) (fun d =>
      ended7 d rcComplete && (d.rec? 7).map (MeterRec.has · sbQuarantined) == some false) = true ∧
    after (exec (.rebuild 7 (msg7 0x0B [pk [(18, 35, 31)]] [])) (let s := withLedger id; { s with dev := { s.dev with boot := { s.dev.boot with dramGiw := 2 } } }))
      (fun d => d.led.rebuild.st == .build && d.led.rebuild.new.log2 == 18) = true ∧
    (let s := withPl (plIn .idle) [];
      let r := { s with dev := { s.dev with led := { s.dev.led with enrolled := true, accepts := true } } };
      after (exec (.sweepStart 7 (msg7 0x0C [0] [])) r) (fun d => ended7 d rcComplete && (d.sweep 0).st == .query) = true ∧
      after (exec (.sweepStop 7 (msg7 0x0C [pk [(1, 30, 30)]] [])) { r with dev := r.dev.setSweep 0 { Sweep.init with st := .wait } })
        (fun d => ended7 d rcComplete && (d.sweep 0).st == .idle) = true) := by
  and_intros <;> decide +kernel

theorem witness_TransactionsRunToTheirEnd_forms :
    { txn7 .resp 6 false with reset := true, last := 0 }.switched = true ∧
    after (exec (.transactionOpen 7 9 7) (withCmd { cmd7 9 1 0 [0, 5] with waiting := [7] } { txn7 .ended 1 false with slot := 8 } rec6)) (fun d =>
      jobs7 d == [.txn 9 7]) = true ∧
    after (exec (.transactionOpen 7 9 7) (withCmd (cmd7 9 4 0 [0, 30000, 40000]) (txn7 .opened 4 false) { rec6 with stagedV := true })) (fun d =>
      (d.txn? 9 7).map Txn.over' == some true && jobs7 d == []) = true ∧
    after (exec (.transactionDeadline (2 ^ 42) 9 7) (withCmd { cmd7 9 1 0 [0, 5] with waiting := [7] } { txn7 .ended 1 false with slot := 8 } rec6))
      (fun d => (d.cmd? 9).map (fun c => (c.waiting, c.notOk)) == some ([], 1)) = true := by
  and_intros <;> decide +kernel

theorem witness_TransactionsRunToTheirEnd :
    after (exec (.transactionOpen 7 9 7) (withCmd (cmd7 9 1 0 [0, 5]) (txn7 .opened 1 false) rec6)) (fun d =>
      jobs7 d == [.txn 9 7] && (d.txn? 9 7).map Txn.jobs == some 2) = true ∧
    after (exec (.respWaitExpiry (2 ^ 36 * 31) 9 7) (withCmd (cmd7 9 1 0 [0, 5]) (txn7 .resp 1 false) rec6)) (fun d =>
      jobs7 d == [.txn 9 7]) = true ∧
    after (exec (.respWaitExpiry (2 ^ 42) 9 7) (withCmd (cmd7 9 1 0 [0, 5]) (txn7 .resp 1 false) rec6)) (fun d =>
      (d.txn? 9 7).map Txn.st == some .ended && (d.cmd? 9).map Cmd.reason == some rcFailed) = true ∧
    after (exec (.transactionDeadline (2 ^ 42) 9 7) (withCmd (cmd7 9 1 0 [0, 5]) (txn7 .job 1 false) rec6)) (fun d =>
      (d.txn? 9 7).map Txn.st == some .ended) = true ∧
    after (exec (.tariffCut 7 9) (withCmd (cmd7 9 4 0 [0, 15000, 16000]) (txn7 .resp 4 false) rec6)) (fun d =>
      (d.cmd? 9).map Cmd.phase == some 1 && (d.txn? 9 7).map (fun x => (x.mcmd, x.over')) == some (5, true)) = true ∧
    after (exec (.tariffSwitch 7 9) (withCmd (cmd7 9 4 1 [0, 5000, 6000]) (txn7 .ended 4 true) { rec6 with stagedV := true, ttStaged := 8 }))
      (fun d => (d.cmd? 9).map Cmd.reason == some rcComplete && (d.rec? 7).map MeterRec.ttActive == some 8) = true := by
  and_intros <;> decide +kernel

/-- A campaign 2 of command 9 with member 7 on one RF target. -/
def camp7 (st act : Nat) (g : Target) (toArm : List Nat) : Camp :=
  { Camp.ofWords 9 [] [] with
    st := st, nb := 1, quads := 16, octets := 64, rate := 1, rounds := 2, duty := 100, uniMax := 4, rptWin := 10, armMin := 5
    confMin := 5, cutMin := 5, actS := act, targets := [g], members := if toArm.isEmpty then [(7, Member.none)] else [], toArm := toArm
    deadline := 2 ^ 42 }

def tgt7 (phase : Nat) (next : List Nat) : Target := { Target.none with group := 5, phase := phase, next := next }

def withCamp (c : Camp) (state : Nat) : State :=
  let s := withCmd (cmd7 9 6 0 []) (txn7 .ended 7 false) { rec6 with campId := 2, campState := state }
  { s with dev := s.dev.setCamp 2 c }

def desc7 : List Word :=
  [pk [(3, 35, 30), (1, 29, 14), (16, 13, 5)], 0, 0, 64, 30000, 0, pk [(1, 35, 24), (2, 23, 16), (100, 15, 9), (4, 8, 0)],
    pk [(10, 35, 24), (5, 23, 12), (5, 11, 0)], pk [(5, 35, 24), (1, 23, 15)]] ++ List.replicate 8 0 ++ [0, 0, pk [(5, 35, 20)]]

theorem witness_CampaignCommandsAct :
    (let m := msg7 6 ([0, 0] ++ desc7) [slot7]
     m.sound 6 = true ∧ m.tgtsFit = true ∧ m.argWords = 19 + 3 * fld (m.args.getD 10 0) 23 15 ∧ m.campOp = 0 ∧ m.args.getD 1 0 = 0) ∧
    after (exec (.campaignStart 7 (msg7 6 [pk [(1, 35, 34)], 9] [])) (withLedger id)) (fun d => d.led.csn == 5 && d.cmd? 5 == none) = true ∧
    after (exec (.campaignStart 7 (msg7 6 [pk [(1, 35, 34)], 9] [])) (withCamp (camp7 3 0 (tgt7 0 []) []) 2)) (fun d => d.cmd? 5 == none) = true ∧
    after (exec (.campaignActivate 7 (msg7 6 [pk [(2, 35, 34)], 9, 20000] [])) (withCamp (camp7 3 0 (tgt7 0 []) []) 6)) (fun d =>
      (d.camp? 2).map Camp.actS == some 0) = true ∧
    after (exec (.campaignCancel 7 (msg7 6 [pk [(3, 35, 34)], 9] [])) (withCamp (camp7 6 0 (tgt7 0 []) []) 2)) (fun d => d.cmd? 5 == none) = true ∧
    after (exec (.campaignStart 7 (msg7 6 [pk [(1, 35, 34)], 9] [])) (withCamp (camp7 1 0 (tgt7 0 []) [7]) 0)) (fun d =>
      ended7 d rcComplete && (d.camp? 2).map Camp.st == some 2) = true ∧
    after (exec (.campaignActivate 7 (msg7 6 [pk [(2, 35, 34)], 9, 30000] [])) (withCamp (camp7 3 0 (tgt7 0 []) []) 6)) (fun d =>
      ended7 d rcComplete && (d.camp? 2).map Camp.actS == some 30000) = true ∧
    after (exec (.campaignCancel 7 (msg7 6 [pk [(3, 35, 34)], 9] [])) (withCamp (camp7 3 0 (tgt7 0 []) []) 2)) (fun d =>
      ended7 d rcComplete && d.stateIn 2 7 == 13 && (d.camp? 2).map Camp.st == some 6) = true := by
  and_intros <;> decide +kernel

theorem witness_CampaignsRunTheirRounds_horn :
    after (exec (.roundStart 7 2 0) (let s := withCamp (camp7 2 0 { tgt7 0 [] with gwake := 5 } []) 2
      { s with dev := { s.dev with cfg := Memory.write s.dev.cfg (blkAir + 3) 0 } })) (fun d =>
      decide (200 ≤ d.hornSub 0) || jobs7 d == [.group 2 0]) = true ∧
    after (exec (.roundStart (2 ^ 42) 2 0) (withCamp (camp7 2 0 (tgt7 5 []) []) 2)) (fun d => (d.camp? 2).map Camp.st == some 3) = true := by
  and_intros <;> decide +kernel

theorem witness_CampaignsRunTheirRounds :
    after (exec (.arming 7 2) (withCamp (camp7 2 0 (tgt7 0 []) [7]) 0)) (fun d =>
      d.stateIn 2 7 == 1 && (d.txn? 9 7).map Txn.mcmd == some 7) = true ∧
    after (exec (.roundStart 7 2 0) (withCamp (camp7 2 0 (tgt7 0 []) []) 2)) (fun d =>
      jobs7 d == [.fwBlock 2 0] && (d.camp? 2).map Camp.st == some 3) = true ∧
    after (exec (.reportWindowEnd (2 ^ 41) 2 0) (withCamp (camp7 3 0 (tgt7 2 [0]) []) 3)) (fun d =>
      (d.camp? 2).map (fun k => k.targets.map Target.round) == some [1]) = true ∧
    after (exec (.reportWindowEnd (2 ^ 41) 2 0) (withCamp (camp7 3 0 (tgt7 2 []) []) 3)) (fun d =>
      (d.camp? 2).map (fun k => k.targets.map Target.phase) == some [3] && d.stateIn 2 7 == 10) = true ∧
    after (exec (.actCutoff 7 2) (withCamp (camp7 3 20100 (tgt7 0 []) []) 3)) (fun d => d.stateIn 2 7 == 11) = true ∧
    after (exec (.campaignDeadline (2 ^ 42) 2) (withCamp (camp7 3 0 (tgt7 0 []) []) 6)) (fun d => d.stateIn 2 7 == 11) = true ∧
    after (exec (.confirmQuery 7 2 7) (withCamp { camp7 5 19000 (tgt7 3 []) [] with later := false } 6)) (fun d =>
      (d.txn? 9 7).map Txn.mcmd == some 9) = true ∧
    (let s := withCamp { camp7 5 19000 (tgt7 3 []) [] with later := false, members := [(7, { Member.none with asked := true })] } 6;
      after (exec (.noConfirm 7 2 7) { s with dev := { s.dev with cmd := { s.dev.cmd with txns := [] } } }) (fun d =>
        d.stateIn 2 7 == 10) = true) := by
  and_intros <;> decide +kernel

/-- A balance engine that runs with zone 3 on feeder 0, intervals of 15 min, one member in slot 7 and a correlator window. -/
def withBal (f : Balance → Balance) : State :=
  let s := withLedger id
  let d := withCfg [(blkBalance, pk [(15, 35, 30), (60, 29, 20), (1, 19, 14)]), (blkBalance + 1, pk [(300, 35, 22)]),
    (blkBalance + 2, pk [(rec6.mtype, 35, 20), (1, 19, 19), (1, 18, 16), (3, 15, 13)]),
    (blkZones + 12, pk [(1, 35, 35)]), (blkZones + 15, pk [(50, 35, 20), (2, 19, 16), (2, 15, 12), (1, 11, 8), (2, 7, 1)])] s.dev
  { s with dev := { d with
    pw := { d.pw with doms := [(51, ⟨2, 0, 0, 0, false⟩)] }
    tb := { d.tb with off := 100000 * 2 ^ 36 }
    met := { d.met with tick := 9990000 }
    bal := f { d.bal with begun := 90000, mem := [(7, pk [(3, 35, 24), (1, 23, 23)])], corr := [(7, Corr.fresh 10)] } } }

theorem witness_BalanceIntervalsClose :
    (let d := (withBal id).dev
     d.balOn = true ∧ d.zOpen 3 90900 = true ∧ d.zDone 3 + d.balIvlS = 90900 ∧ d.zRefKind 3 ≠ 2 ∧ (90900 * 100 + 1) * 2 ^ 36 ≤ d.now * 100) ∧
    after (exec (.zoneReference 7 3 90900) (withBal id)) (fun d => (d.zIvl 3 90900).ref == some 0) = true ∧
    after (exec (.balWaitExpiry (2 ^ 36) 3 90900) (withBal id)) (fun d => d.zDone 3 == 90900 && d.led.csn == 5) = true ∧
    after (exec (.correlatorRun 7) (withBal id)) (fun d =>
      d.bal.hour == 100000 && d.led.csn == 5 && (NMap.find d.bal.corr 7).map Corr.start == some 100000) = true := by
  and_intros <;> decide +kernel

theorem witness_AlarmsFollowTheirHistories :
    (let d := (withBal fun b => { b with zones := [(3, { Zone.empty with loss := 1, open' := [(90900, { ZIvl.empty with contrib := 1, ref := some 9000 })] })] }).dev;
      let y := (d.evaluate 3 90900 false).zone 3;
      fld (y.words.getD 0 0) 35 33 = 1 ∧ y.loss = 3 ∧ y.lossAl = true ∧ y.cum = 9000) ∧
    (let d := (withBal fun b => { b with mem := [] }).dev; fld (((d.evaluate 3 90900 false).zone 3).words.getD 0 0) 35 33 = 6) := by
  and_intros <;> decide +kernel

/-- A chain that runs, with PPS on pin 0 and CYCLE on pin 1, cycles of 100 ms, and device time set. -/
def withMet (f : Metro → Metro) : State :=
  let s := withLedger id
  let d := withCfg [(blkMetro, pk [(1, 27, 27)]), (blkLocal, pk [(8, 35, 32)]), (blkLocal + 1, pk [(9, 35, 32)]), (blkTime + 6, 100)] s.dev
  { s with dev := { d with met := f { d.met with run := some 0 } } }

def ctl9 (op : Nat) : Control := ⟨1, op, 5, 0, false⟩

theorem witness_ResetsWaitForTheirBoundary :
    (let d := (withMet id).dev; d.syncEn = true ∧ d.syncFall = false ∧ d.keptAnswer 5 = none ∧ d.boot.recovery = 0 ∧ d.tb.set = true) ∧
    after (exec (.syncDec 7 true) (withMet id)) (fun d =>
      d.met.pend == [⟨.resetBall, 500001, 0, 0⟩] && d.evr.raw.map EvRec.code == [0x051] && d.led.csn == 5) = true ∧
    after (exec (.syncDec 7 false) (withMet id)) (fun d => d.met.pend == []) = true ∧
    after (exec (.syncDec 7 true) (withMet fun m => { m with run := none })) (fun d => d.met.pend == [] && d.led.csn == 4) = true ∧
    (withLedger id).dev.syncEn = false ∧ { State.reset.dev with pw := { State.reset.dev.pw with hu := some ⟨0, 0, 2, false, false, false⟩ } }.pw.hu ≠ none ∧
    after (exec (.metroReset 7 (ctl9 5)) (withMet fun m => { m with run := none })) (fun d => d.met.pend == [] && (d.keptAnswer 5).isSome) = true ∧
    after (exec (.syncDec 7 true) (withMet fun m => { m with pend := [⟨.resetBall, 500001, 0, 0⟩] })) (fun d => d.led.csn == 4) = true ∧
    after (exec (.metroReset 7 (ctl9 5)) (withMet id)) (fun d =>
      d.met.pend == [⟨.resetCxp, 500001, 0, 0⟩] && (d.keptAnswer 5).isSome) = true ∧
    (let s := withMet id;
      let r := { s with dev := { s.dev with loc := { s.dev.loc with pins := 2 }, pw := { s.dev.pw with doms := [(55, ⟨2, 0, 0, 0, false⟩)] } } };
      r.dev.pinsRun = true ∧ r.dev.domOn 55 = true ∧ r.dev.nowS ≠ r.dev.loc.pps ∧
      after (exec (.pps 7) r) (fun d => d.loc.pps == 20000 && d.out == [.pulse 0 10]) = true ∧
      after (exec (.cyclePulse 7) r) (fun d => d.loc.cycle == 200000 && d.out == [.pulse 1 10]) = true) := by
  and_intros <;> decide +kernel

theorem witness_OutputsAreMarkedAfterAChange :
    (let x : Chan := { Chan.none with marks := [327680] }; let g : Group := { Group.none with preset := 2 };
      x.marked g 327680 = false ∧ x.marked g (327680 + periodU 2) = true ∧ x.marked g (327680 + 36 * periodU 2) = false) ∧
    (let x : Chan := { Chan.none with marks := [327680] }; let g : Group := { Group.none with preset := 2, scs := true };
      x.marked g (327680 + 40 * periodU 2) = true ∧ x.marked g (327680 + 80 * periodU 2) = false) := by
  and_intros <;> decide +kernel

/-- A check meter with DEM_MIN 15 and one season, whose last boundary was at 19,800 s. -/
def withLegal (f : LegalPart → LegalPart) : State :=
  let s := withMet id
  { s with dev := { s.dev with
    pw := { s.dev.pw with doms := [(53, ⟨2, 0, 0, 0, false⟩)] }
    tb := { s.dev.tb with off := 21000 * 2 ^ 36 }
    leg := f { s.dev.leg with
      img := List.replicate 96 0 ++ [pk [(15, 35, 30)]]
      st := { s.dev.leg.st with highT := 19800 * 2 ^ 36, start := 19800 * 2 ^ 36, grid := true, ticks := 90000 } } } }

theorem witness_TicksAndBoundariesAreTaken :
    (let s := withLegal id;
      (after (exec (.tickEnd (2 ^ 36)) { s with dev := { s.dev with met := { s.dev.met with tick := 2069999 } } }) fun d => d.met.tick == 2070000 && d.leg.st.ticks == 90001) = true ∧
      (after (exec (.boundary (2 ^ 36)) { s with dev := { s.dev with met := { s.dev.met with tick := 2070000 } } }) fun d =>
        d.leg.st.bnum == 1 && d.leg.st.highT == 20700 * 2 ^ 36 && d.leg.st.ticks == 0 && d.led.csn == 5) = true) ∧
    after (exec (.boundary 7) State.reset) (fun d => d.led.csn == 1) = true ∧
    after (exec (.changeBoundary 7) State.reset) (fun d => d.met.pend == []) = true ∧
    after (exec (.changeBoundary 7) (withMet fun m => { m with run := none, pend := [⟨.start, 500000, 0, 0⟩, ⟨.gain, 500001, 3, 2⟩] })) (fun d =>
      d.met.pend == [⟨.gain, 500001, 3, 2⟩] && d.leg.due == some (20000 * 2 ^ 36, 1, 20000 * 2 ^ 36) && d.met.run == some 500000) = true := by
  and_intros <;> decide +kernel

theorem witness_RegistersLoseNothing :
    (RegSet.zero.regs.length = 48) ∧ RegSet.zero.rems.length = 48 ∧ ((RegSet.zero.add 3 2 1999).reg 3 2 = 1) ∧
    (RegSet.zero.tick 3 (-5000) 7000 true).reg 3 1 = 5 ∧ (RegSet.zero.tick 3 (-5000) 7000 true).reg 3 3 = 7 := by
  and_intros <;> decide +kernel

/-- A running clock with PTP on port 0 in a given port state, LOCK_NS 50, UNLOCK_NS 200, slews up to 100 ppm, beacons every 60 s. -/
def withTime (st : Nat) (f : Timebase → Timebase) (p : PtpPort) : State :=
  let s := withLedger id
  let d := withCfg [(blkTime, pk [(1, 35, 35), (200, 23, 16), (4, 7, 5)]), (blkTime + 1, pk [(2, 35, 32), (6, 31, 28), (50, 27, 20), (200, 19, 10), (100, 9, 1), (1, 0, 0)]),
    (blkTime + 3, pk [(37, 35, 28), (5, 8, 2)]), (blkTime + 6, pk [(60, 35, 24)]), (blkTime + 7, pk [(3, 35, 28)])] (withStream s.dev)
  { s with dev := { d with tb := f { d.tb with st := st, ports := [(0, p)] } } }

def foreign11 : Foreign := ⟨5, 100, 6, 0x21, 0x4E5D, 100, 0, 5, 1⟩

/-- The master's instants of an exchange with no path delay and no offset, at 20,000 s. -/
def ptp11 : Int := (20000 + 946684800) * 1000000000

theorem witness_PtpPortsExchange :
    (let s := withTime 1 id PtpPort.init;
      (s.dev.advance 7).ptpTakes 0 0 = true ∧
      after (exec (.announce 7 0 0 foreign11 none none) s) (fun d => (d.port 0).best == some foreign11 && (d.port 0).st == 9) = true) ∧
    (let s := withTime 1 id { PtpPort.init with st := 9, best := some foreign11 };
      after (exec (.sync 7 0 0 3 none) s) (fun d => (d.port 0).sync.isSome) = true ∧
      after (exec (.ptpDelayReq 7 0) s) (fun d => d.out == [.delayReq 0 0] && d.tb.tsq.length == 1) = true) ∧
    (let s := withTime 1 id { PtpPort.init with st := 9, sync := some (3, none, 20000000000000) };
      after (exec (.followUp 7 0 0 3 ptp11) s) (fun d => (d.port 0).sync == some (3, some ptp11, 20000000000000)) = true) ∧
    (let s := withTime 1 (fun b => { b with tsq := [⟨0, 8, 20000000000000, 0⟩] })
        { PtpPort.init with st := 9, sync := some (3, some (ptp11 - 100), 20000000000000), req := some (5 * 4096 + 8) };
      let d := s.dev.advance 7; d.pw.hu = none ∧ d.tb.step = none ∧ d.tb.set = true ∧ d.tb.prov = false ∧ d.tb.st = tbAcquire ∧
      (d.takeStamp 0 8).1 = some 20000000000000 ∧
      after (exec (.ptpDelayResp 7 0 0 5 (ptp11 + 60)) s) (fun d => (d.port 0).delays == [80] && d.tb.lastOff == 20) = true) ∧
    (let s := withTime 1 id { PtpPort.init with st := 6 }; (s.dev.advance 0).slave = none ∧
      after (exec (.syncSend 0 0) s) (fun d => d.out == [.sync 0 0 946704800 0 0]) = true ∧
      after (exec (.ptpDelayReqReceived 0 0 0 9 5 1) s) (fun d => d.out == [.delayResp 0 9 946704800 0 0 5 1]) = true ∧
      after (exec (.announceSend 0 0) s) (fun d => d.out.length == 1) = true) ∧
    after (exec (.syncTimeout (2 ^ 36)) (withTime 1 id PtpPort.init)) (fun d => d.tb.st == tbFreerun) = true ∧
    after (exec (.tsqExpired (2 ^ 36) 0 8) (withTime 1 (fun b => { b with tsq := [⟨0, 8, 0, 0⟩] }) PtpPort.init)) (fun d =>
      d.tb.tsq == [] && d.ctr fTsqExpired == 1) = true := by
  and_intros <;> decide +kernel

theorem witness_DeviceTimeIsMoved_wait :
    (let s := withTime 5 (fun b => { b with pend := some 3000000000 }) PtpPort.init; let d := s.dev.advance 7
     d.tb.st = tbStepWait ∧ d.tb.set = true ∧
      after (exec (.timeStep 7 ⟨1, 1, 5, 0, true⟩) s) (fun d => d.tb.step.map Step.cause == some 2) = true) ∧
    (let s := withTime 4 (fun b => { b with prov := true }) PtpPort.init;
     let r := { s with dev := { s.dev with boot := { s.dev.boot with phase := 3 }, pair := { s.dev.pair with st := 2 } } };
      after (exec (.startWaitExpiry (5 * 2 ^ 36)) r) (fun d => !d.tb.prov) = true) := by
  and_intros <;> decide +kernel

theorem witness_DeviceTimeIsMoved :
    (let x : Step := ⟨20000 * 2 ^ 36, 2 * 2 ^ 36, 0, none⟩; let s := withTime 1 (fun b => { b with step := some x }) PtpPort.init;
      let d := s.dev.advance 7; d.tb.step = some x ∧ d.pw.hu = none ∧ x.ts ≤ d.now ∧
      after (exec (.stepTakeEffect 7) s) (fun d => d.nowS == 20002 && d.ctr fSteps == 1 && d.tb.lastStep == 20002 * 2 ^ 36) = true ∧
      after (exec (.timeStep 7 (ctl9 1)) s) (fun d => d.keptAnswer 5 == some (0x13, [5, pk [(rcBusy, 35, 28)], 0, 0])) = true ∧
      after (exec (.stepTakeEffect 7) { s with dev := { s.dev with pw := { s.dev.pw with hu := some ⟨0, 0, 0, false, false, false⟩ } } }) (fun d =>
        d.tb.step == none) = true) ∧
    (let s := withTime 1 id PtpPort.init; let d := s.dev.advance 7; d.keptAnswer 5 = none ∧ d.boot.recovery = 0 ∧ d.tb.set = true ∧
      after (exec (.timeStep 7 ⟨1, 1, 5, 3 * 2 ^ 36, false⟩) s) (fun d => d.tb.step.isSome) = true ∧
      after (exec (.timeStep 7 ⟨1, 1, 5, 2 ^ 35, false⟩) s) (fun d => d.tb.debt == 2 ^ 35) = true ∧
      after (exec (.leap 7 ⟨1, 7, 5, 0, true⟩) s) (fun d => d.tb.leap == none && d.keptAnswer 5 == some (0x13, [5, pk [(rcBadArg, 35, 28)], 0, 0])) = true ∧
      after (exec (.leap 7 ⟨1, 3, 5, 0, true⟩) s) (fun d => d.tb.leap == some true) = true) ∧
    (let s := withTime 0 (fun b => { b with set := false }) PtpPort.init; (s.dev.advance 7).tb.set = false ∧
      after (exec (.timeSet 7 ⟨1, 2, 5, 3 * 2 ^ 36, false⟩) s) (fun d => d.now == 3 * 2 ^ 36 && d.tb.st == tbAcquire) = true) ∧
    (let s := withTime 1 (fun b => { b with leap := some false, taiUtc := 37, off := (86400 + 37) * 2 ^ 36 }) PtpPort.init;
      (s.dev.advance 7).utcSecond = 0 ∧ after (exec (.leapSecond 7) s) (fun d => d.tb.taiUtc == 38) = true) ∧
    (let s := withTime 1 (fun b => { b with leap := some true, taiUtc := 37, off := (86399 + 37) * 2 ^ 36 }) PtpPort.init;
      (s.dev.advance 7).utcSecond = 86399 ∧ after (exec (.leapSecond 7) s) (fun d => d.tb.taiUtc == 36) = true) ∧
    (let s := withTime 4 (fun b => { b with prov := true }) PtpPort.init;
      let r := { s with dev := { s.dev with boot := { s.dev.boot with phase := 3 } } };
      (r.dev.advance (5 * 2 ^ 36)).passedMs r.dev.boot.since (1000 * r.dev.timeWaitS) = true ∧
      after (exec (.startWaitExpiry (5 * 2 ^ 36)) r) (fun d => !d.tb.prov) = true ∧
      after (exec (.startWaitExpiry (2 ^ 36)) r) (fun d => d.tb.prov) = true) ∧
    after (exec (.rtcMeasure 7 (-250) 25) (withTime 2 id PtpPort.init)) (fun d => NMap.find d.tb.bins 98 == some (-250, 1)) = true ∧
    after (exec (.outageRtcUpdate 7 (16 * 2 ^ 36) 25) (withTime 4 (fun b => { b with rtc := some 5 }) PtpPort.init)) (fun d =>
      d.tb.rtc == some (16 * 2 ^ 36 + 5) && d.tb.rtcUnc == 3200) = true ∧
    (let s := withTime 2 id PtpPort.init; let d := s.dev.advance 7; d.quiet = false ∧ d.rfEn 0 = true ∧ d.beaconSub 0 = 3 ∧ d.beaconS = 60 ∧
      after (exec (.beacon 7 0 false) s) (fun d => d.jobQ.map Job.who == [.beacon]) = true) := by
  and_intros <;> decide +kernel

theorem witness_TimebaseFollowsItsOffsets :
    (let d := (withTime 1 (fun b => { b with lockN := 15 }) PtpPort.init).dev; d.lockNs = 50 ∧ (d.acceptOffset (-50)).tb.st = tbLocked) ∧
    (let d := (withTime 2 (fun b => { b with unlockN := 3 }) PtpPort.init).dev; d.unlockNs = 200 ∧ (d.acceptOffset (-201)).tb.st = tbAcquire) ∧
    (((withTime 3 id PtpPort.init).dev.acceptOffset 1000000000).tb.st = tbAcquire) ∧
    (let b := { Timebase.reset with servo := -100000, left := 2 ^ 32 };
      b.servo.natAbs * 1000000 ≤ 100 * b.left ∧ (b.slew 100 (2 ^ 31)).off = -50000) := by
  and_intros <;> decide +kernel

/-- Port A enabled with the head end's address set, a session as given there, and PD44 ON. -/
def withPort (x : Session) (f : Dev → Dev) : State :=
  let s := withLedger id
  let d := withCfg [(blkUplink, pk [(1, 35, 35), (1500, 15, 2)]), (blkUplink + 6, pk [(9, 35, 4)]), (blkUplink + 15, pk [(8, 35, 4)]),
    (blkUplink + 40, pk [(1000, 19, 8), (64, 7, 0)]), (blkUplink + 41, pk [(3, 35, 30)]), (blkMetro, pk [(1, 35, 35)])] s.dev
  { s with dev := f { d with
    pw := { d.pw with doms := [(44, ⟨2, 0, 0, 0, false⟩)] }, pair := { d.pair with st := 3 }
    up := { d.up with linkA := true, sess := [(0, x)] } } }

def sessUp12 : Session := { Session.off with st := .up }

/-- A segment of a message, one of a message of two words, and a certificate. -/
def segOf (gen seq segW i : Nat) (body : List Word) : Segment :=
  ⟨0, 0, false, (cxpSegments gen 0x12 seq 0 segW body).getD i [], []⟩
def seg12 : Segment := segOf 3 7 2 0 [5, 6]
def cert12 : Cert := ⟨[], 0, (0, false)⟩

theorem witness_SessionsRunTheirStates :
    (let s := withPort Session.off fun d => { d with up := { d.up with linkA := false } };
      s.dev.portEn 0 = true ∧ s.dev.portAddr 0 12 = 8 ∧
      after (exec (.portLinkUp 9 0) s) (fun d => (d.session 0).st == .handshake && d.up.linkA) = true) ∧
    (let s := withPort { Session.off with st := .handshake } id; (s.dev.advance 9).mayOpen 0 = true ∧
      after (exec (.portLinkDown 9 0) s) (fun d => d.session 0 == Session.off) = true ∧
            after (exec (.handshakeTimeout (10 * 2 ^ 36) 0 false) s) (fun d => (d.session 0).st == .backoff && d.ctr fDtlsFail == 1) = true ∧
      after (exec (.handshakeDone 9 0 cert12) { s with dev := { s.dev with boot := { s.dev.boot with recovery := 1 } } }) (fun d =>
        (d.session 0).st == .up) = true ∧
      after (exec (.arpRequest 9 0 9) s) (fun d => d.out == [.arp 0 9]) = true ∧
      after (exec (.echoRequest 9 0 []) s) (fun d => d.out == [.echo 0 []]) = true) ∧
    (let s := withPort sessUp12 id; s.dev.sessUp 0 = true ∧ s.dev.pressed 1 = false ∧
      after (exec (.sessionTimeout (3 * 2 ^ 36) 0) s) (fun d => (d.session 0).st == .backoff) = true ∧
      after (exec (.fatalAlert 9 0) s) (fun d => (d.session 0).st == .backoff) = true ∧
      after (exec (.keyUpdate (86400 * 2 ^ 36) 0) s) (fun d => (d.session 0).keyAt == 86400 * 2 ^ 36) = true ∧
      seg12.wellFormed = true ∧ seg12.count = 1 ∧ ({ seg12 with octets := [] } : Segment).framed = false ∧
      after (exec (.cxpSegment 9 { seg12 with octets := [] }) s) (fun d => d.ctr fBadSeg == 1) = true ∧
      after (exec (.cxpSegment 9 seg12) s) (fun d => (d.rxPeer 0).gen == some 3 && d.out == [.cxpTaken 0 0x12 7 0 [5, 6]]) = true) ∧
    (let s := withPort sessUp12 fun d => d.setRxPeer 0 ⟨some 3, some 2, 6, [⟨5, 0x12, 3, 2, 0, 0, [(0, [1, 2])], false⟩, ⟨6, 0x12, 2, 2, 0, 0, [], true⟩]⟩;
      after (exec (.cxpSegment 9 seg12) s) (fun d => d.out == [.cxpTaken 0 0x12 7 0 [5, 6]]) = true ∧
      after (exec (.cxpSegment 9 (segOf 3 6 2 0 [5, 6])) s) (fun d => d.ctr fDupPath == 1) = true ∧
      after (exec (.cxpSegment 9 (segOf 2 7 2 0 [5, 6])) s) (fun d => d.ctr fStaleSeq == 1) = true ∧
      after (exec (.cxpSegment 9 (segOf 3 5 2 1 [1, 2, 9])) s) (fun d => d.out == [.cxpTaken 0 0x12 5 0 [1, 2, 9]]) = true ∧
      after (exec (.cxpSegment 9 { seg12 with frag := true }) s) (fun d => d.ctr fRxDrop == 1) = true ∧
      after (exec (.reasmTo (2 * 2 ^ 36) 0 5) s) (fun d => d.ctr fReasmTo == 1 && (d.rxPeer 0).msgs.length == 1) = true) ∧
    (let s := withPort sessUp12 fun d => (withCfg [(blkUplink + 18, pk [(8, 35, 4)])] d).setSession 2 { Session.off with st := .handshake };
      (s.dev.advance 9).mayOpen 2 = true ∧ (s.dev.advance 9).certOk 2 { cert12 with serial := 1 } = false ∧
      after (exec (.handshakeDone 9 2 { cert12 with serial := 1 }) s) (fun d => d.ctr fPeerReject == 1) = true) ∧
    (let s := withPort { Session.off with st := .backoff, fails := 2 } id;
      after (exec (.sessionBackoffEnd (2 ^ 36) 0) s) (fun d => (d.session 0).st == .backoff) = true ∧
      after (exec (.sessionBackoffEnd (2 * 2 ^ 36) 0) s) (fun d => (d.session 0).st == .handshake) = true) := by
  and_intros <;> decide +kernel

theorem witness_ObjectsAreReadAndWritten :
    (let s := withPort sessUp12 id; let d := s.dev.advance 9;
      d.pw.hu = none ∧ d.up.shed = 0 ∧ d.keptAnswer 5 = none ∧ d.boot.recovery = 0 ∧ d.sessUp 1 = false ∧ d.ledgerRuns = true ∧
      d.readRefusal ⟨1, 5, 0x03, 32 * 7, 2⟩ = none ∧ (d.rec? 7).isSome = true ∧ s.stores.wf = true ∧
      after (exec (.objRead 9 ⟨1, 5, 0x03, 32 * 7, 2⟩) s) (fun d => d.out.length == 1) = true ∧
      d.writeRefusal ⟨1, 5, 0x08, 100, 2, [3, 4]⟩ = none ∧
      after (exec (.objWrite 9 ⟨1, 5, 0x08, 100, 2, [3, 4]⟩) s) (fun d => (d.keptAnswer 5).isSome) = true ∧
      d.writeRefusal ⟨1, 5, 0x03, 32 * 7 + 1, 1, [3]⟩ = none ∧
      after (exec (.recordWrite 9 ⟨1, 5, 0x03, 32 * 7 + 14, 1, [pk [(40, 35, 16), (15, 15, 4), (8, 3, 0)]]⟩) s) (fun d =>
        (d.rec? 7).map MeterRec.rated == some 40 && d.led.csn == 5) = true ∧
      d.memberRefusal 8 (pk [(3, 35, 24), (1, 23, 23)]) = some 5 ∧ d.memberRefusal 7 0 = none ∧ Memory.wf d.bal.mem = true ∧
      after (exec (.membershipWrite 9 ⟨1, 5, 0x05, 8, 1, [pk [(3, 35, 24), (1, 23, 23)]]⟩) s) (fun d => d.ctr fMemberRefused == 1) = true ∧
      after (exec (.membershipWrite 9 ⟨1, 5, 0x05, 7, 1, [pk [(3, 35, 24)]]⟩) s) (fun d => d.led.csn == 5 && memZone (d.memWord 7) == 3) = true ∧
      d.met.run = none ∧ d.met.pend = [] ∧ gainOk 3 5 = true ∧
      after (exec (.metrologyWrite 9 ⟨1, 5, 0x09, 0x13, 1, [pk [(5, 34, 31), (1, 30, 29)]]⟩) s) (fun d =>
        (d.chan 3).gain == 5 && (d.chan 3).source == 1) = true ∧
      after (exec (.billReq 9 ⟨1, 5, 0x06, 0, 1, [pk [(1, 35, 35)]]⟩) s) (fun d => d.leg.st.bill) = true ∧
      after (exec (.eventRead 9 1 5 0 0) s) (fun d => d.out.length == 1) = true) ∧
    (let s := withPort sessUp12 fun d => { d with up := { d.up with kept := [(5, 0x21, [5])] } };
      after (exec (.objRead 9 ⟨1, 5, 0x02, 0x400, 2⟩) s) (fun d => d.out.length == 1) = true) ∧
    (let s := withPort sessUp12 fun d => { d with pw := { d.pw with hu := some ⟨0, 0, 0, false, false, false⟩ } };
      after (exec (.objRead 9 ⟨1, 5, 0x02, 0x400, 2⟩) s) (fun d => d.ctr fBusySent == 1) = true) := by
  and_intros <;> decide +kernel

/-- A signed block of one entry, sent. -/
def block12 : Block :=
  { bno := 1, epoch := 1, first := 3, last := 3, sealT := 0, sealBy := 1, entries := [{ mkEntry 2 1 0 none 0 [] with csn := 3 }], prev := 0, keyId := 0,
    sig := some (1, 2), fw := 0, sealClk := 0, sent := some 0, resends := 0 }

theorem witness_BlocksAreDelivered :
    (let s := withPort sessUp12 fun d => { d with led := { d.led with blocks := [(1, block12)], sentB := 1 } };
      let d := s.dev.advance (2 ^ 36); d.delivers = true ∧ d.led.acked = 0 ∧ d.passedMs 0 d.resendMs = true ∧ d.sessUp 1 = false ∧
      d.bnoSealed = 1 ∧ d.headUp = true ∧ d.pair.st ≠ 2 ∧ d.ledgerRuns = true ∧
      after (exec (.blockResend (2 ^ 36) 1) s) (fun d => d.ctr fBlkResent == 1) = true ∧
      after (exec (.blockReq 9 4 1 1) s) (fun d => (NMap.find d.led.blocks 1).map Block.resends == some 1) = true ∧
      after (exec (.blockReq 9 4 2 1) s) (fun d => d.ctr fBadSeg == 1) = true ∧
      after (exec (.ledgerAck 9 0 4 2 3) s) (fun d => d.ctr fAckIgnored == 1) = true ∧
      after (exec (.ledgerAck 9 0 4 1 4) s) (fun d => d.ctr fAckBad == 1) = true ∧
      after (exec (.ledgerAck 9 0 4 1 3) s) (fun d => d.led.acked == 1 && d.led.csn == 5) = true) ∧
    (let s := withPort sessUp12 id; (s.dev.advance 9).bnoSealed = 1 ∧
      after (exec (.blockReq 9 4 1 1) s) (fun d => d.ctr fBlkGone == 1) = true) := by
  and_intros <;> decide +kernel

/-- A mirror port in use: PD46 ON, epochs of 100 ms, alarms after 1,000 ms, and commits made. -/
def withMirror (m : Mirror) : State :=
  let s := withLedger id
  let d := withCfg [(blkMirror, pk [(100, 35, 22), (1000, 21, 8)])] s.dev
  { s with dev := { d with pw := { d.pw with doms := [(46, ⟨2, 0, 0, 0, false⟩)] }, mir := m } }

theorem witness_MirrorFlipsAndHolds :
    ((withLedger id).dev.mirrorOn = false) ∧
    (let s := withMirror { Mirror.reset with bank := [(1, 4)] }; let d := s.dev.advance 0;
      d.mirrorOn = true ∧ d.mir.held = none ∧ d.tb.set = true ∧ d.onEpoch d.now = true ∧ d.flipsDue ≠ 0 ∧ d.q.bp = [] ∧
      after (exec (.mirrorRead 0 1) s) (fun d => d.out == [.md (some 4)] && d.ctr fReads == 1) = true ∧
      after (exec (.epochHold 0) s) (fun d => d.out == [.md none] && d.mir.held == some 0) = true ∧
      after (exec (.mirrorFlip 0) s) (fun d => d.mir.epoch == 1 && d.ctr fFlips == 1) = true) ∧
    (let s := withMirror { Mirror.reset with epoch := 7, held := some 0, last := 200000 };
      (s.dev.advance 0).flipsDue = 0 ∧ (s.dev.advance (2 ^ 36)).flipsDue = 10 ∧
      after (exec (.mirrorFlip (2 ^ 36)) s) (fun d => d.mir.epoch == 7) = true ∧
      after (exec (.mirrorHoldRelease 0) s) (fun d => d.mir.held == none && d.mir.epoch == 7) = true ∧
      after (exec (.mirrorHoldRelease (2 ^ 36)) s) (fun d => d.mir.epoch == 8 && d.ctr fMissed == 9 && d.ctr fDeferred == 1) = true ∧
      after (exec (.mirrorHold (2 ^ 37)) s) (fun d => d.mir.told && (d.items 7).length == 1) = true ∧
      after (exec (.mirrorHold (2 ^ 36)) s) (fun d => !d.mir.told) = true) ∧
    after (exec (.mirrorHold (2 ^ 37)) (withMirror { Mirror.reset with held := some 0, told := true })) (fun d => d.items 7 == []) = true := by
  and_intros <;> decide +kernel

/-- A store of 8 dies that is READY, die 3 with four of eight spares left. -/
def withStore (f : Store → Store) : State :=
  let s := withLedger id
  let d := withCfg [(blkStore, pk [(1, 35, 32), (2, 31, 30), (100, 29, 18), (1000, 17, 2)]), (blkStore + 1, pk [(1000, 32, 21), (7, 12, 7)]),
    (blkStore + 2, pk [(396, 35, 26), (35, 25, 16), (60, 15, 9), (30, 8, 2)]), (blkStore + 3, pk [(40, 15, 8), (2, 7, 4)]),
    (blkRecorder, pk [(1, 34, 25)])] s.dev
  { s with dev := { d with
    pw := { d.pw with doms := [(3, ⟨2, 0, 0, 0, false⟩), (49, ⟨2, 0, 0, 0, false⟩)], aoc := [(1, ⟨true, true, 0⟩)], heldOk := true }
    sto := f { d.sto with st := 1, w := 8, dies := [(3, ⟨1, 4, 8, 0, 0, 0, 0, 0, 0, 0⟩)] } } }

/-- An item of six words of the legal area, a band on dies 3 and 4 with one page of each, and checkpoint 5. -/
def item14 : StoreItem := ⟨6, [1, 2, 3, 4, 5, 6], 1, false⟩
def band14 : Band := ⟨0, 2, [3, 4], 1, [(3, ⟨2, 0, [], 1, 0, 0, []⟩), (4, ⟨8, 0, [], 2, 0, 0, []⟩), (67, ⟨2, 0, [], 3, 0, 0, []⟩)]⟩
def ckpt14 : Ckpt := ⟨false, State.reset.dev.snapshot 5, 0, (1, 2)⟩

theorem witness_StoreTakesAndKeeps_writes :
    (let s := withStore id; let r := { s with dev := s.dev.storeItem 6 1 item14.ws }; let d := r.dev.advance 7;
      d.domOn 49 = true ∧ (d.takeItem 6).isSome = true ∧ d.storeRoom 6 = true ∧
      after (exec (.storeWrite 7) r) (fun d => d.items 6 == [] && d.sto.staged == [⟨6, 1, item14.ws⟩]) = true) ∧
    (let s := withStore id; let r := { s with dev := { s.dev.storeItem 6 1 item14.ws with pw := { s.dev.pw with doms := [] } } };
      (r.dev.advance 7).storeRoom 6 = false ∧
      after (exec (.storeWrite 7) r) (fun d => (d.items 6).length == 1) = true) ∧
    (let s := withStore fun o => { o with opens := [(2, ⟨0, 1, 0⟩)], bands := [(0, band14)] }; let b := s.dev.nandBand 0;
      NMap.find s.dev.sto.opens 2 = some ⟨0, 1, 0⟩ ∧ b.parity 0 = 1 ∧ (s.dev.die (b.dies.getD 0 0)).st = 1) ∧
    (let s := withStore id; (s.dev.advance 7).ledgerRuns = true ∧ (s.dev.advance 7).nowS / 900 ≠ s.dev.sto.ckAt ∧ s.dev.ckptKeep = 2 ∧
      s.dev.boot.trial = none) ∧
    (let s := withStore fun o => { o with cur := some ckpt14 }; (s.dev.advance 7).ckptStaged ckpt14 = true ∧
      after (exec (.checkpointValid 7) s) (fun d => d.sto.cur == none && (d.ckptOwn.map fun c => c.img.no) == some 5) = true) ∧
    (let s := withStore fun o => { o with cur := some ckpt14 }; let r := { s with dev := s.dev.storeItem 4 10 [1] };
      (r.dev.advance 7).ckptStaged ckpt14 = false ∧
      after (exec (.checkpointValid 7) r) (fun d => d.sto.cur.isSome) = true) := by
  and_intros <;> decide +kernel

theorem witness_StoreTakesAndKeeps :
    (let s := withStore id;
      after (exec (.dieLost 7 3) s) (fun d => d.sto.st == 2 && (d.die 3).st == 3) = true ∧
      after (exec (.pageProgramDone 7 3 90 true) s) (fun d => (d.die 3).temp == 90) = true ∧
      after (exec (.pageProgramDone 7 3 90 false) s) (fun d => (d.die 3).spare == 3 && (d.die 3).bad == 1) = true ∧
      after (exec (.dayIndex 7 86400) s) (fun d => d.sto.days == [(86400, true)]) = true) ∧
    (let s := withStore fun o => { o with bands := [(0, band14)], dies := (4, ⟨1, 4, 8, 0, 0, 0, 0, 0, 0, 0⟩) :: o.dies }; s.dev.scrubBits = 40 ∧
      after (exec (.scrub 7 0 0 3 (some [1, 0, 5]) [] []) s) (fun d => d.ctr fRelocated == 0 && d.ctr fCorrected == 2) = true ∧
      after (exec (.scrub 7 0 0 3 (some [41]) [] []) s) (fun d => d.ctr fRelocated == 1) = true ∧
      after (exec (.scrub 7 0 0 3 none [] []) s) (fun d => d.ctr fRebuilt == 1 && d.out.length == 16) = true ∧
      after (exec (.scrub 7 0 1 3 none [] []) s) (fun d => d.ctr fUnrecoverable == 1) = true) ∧
    after (exec (.dieLost 7 3) (withStore fun o => { o with st := 2 })) (fun d => d.sto.st == 3) = true ∧
    after (exec (.storeCopyDone 7) (withStore fun o => { o with st := 2 })) (fun d => d.sto.st == 1 && d.sto.w == 7) = true ∧
    after (exec (.storeCopyDone 7) (withStore fun o => { o with st := 2, w := 3 })) (fun d => d.sto.st == 3) = true ∧
    (let s := withStore fun o => { o with idx := [(7, [(900, ⟨0, 0, 3, 0⟩)])] };
      let r := { s with dev := { s.dev with tb := { s.dev.tb with off := 2 ^ 63 } } };
      r.dev.oldestDay = some 0 ∧ 86400 + r.dev.intDays * 86400 ≤ r.dev.nowS ∧
      after (exec (.dayIndex 7 86400) r) (fun d => d.sto.idx == []) = true) ∧
    (let s := withStore fun o => { o with arch := [(1, 200), (2, 200)] };
      let r := { s with dev := { s.dev with
        tb := { s.dev.tb with off := 2 ^ 63 }, led := { s.dev.led with acked := 1, blocks := [(1, block12), (2, { block12 with bno := 2 })] } } };
      after (exec (.archiveExpiry 7) r) (fun d => d.sto.arch == [(2, 200)]) = true) ∧
    (let s := withStore fun o => { o with disc := [⟨some 7, 0⟩] };
      after (exec (.discardDone 7 (some 7)) s) (fun d => d.sto.disc == [] && d.ctr fDiscardSecure == 1) = true ∧
      after (exec (.discardTimeout 7 (some 7) true) s) (fun d => d.ctr fDiscardHint == 1) = true) ∧
    (withStore id).dev.sto.st = 1 ∧ ((withStore id).dev.die 3).spare = 2 + 2 := by
  and_intros <;> decide +kernel

/-- A raw record of a link lost. -/
def raw15 : EvRec := ⟨9, 0x011, 1, [6], true, false, false, true, 20000 * 2 ^ 36, 3, 0, 1, 0, none, []⟩

theorem witness_EventsAreRecorded :
    (let s := withStore id; let r := { s with dev := s.dev.raise 0x011 [6] }; evCommitted 0x011 = true ∧ s.dev.items 7 = [] ∧
      (r.dev.items 7).length = 1 ∧ ((r.dev.fillGroup 7).takeItem 7).map (·.1) = some (.event ⟨0x011, [6], none⟩) ∧ (r.dev.advance 7).ledgerRuns = true ∧
      after (exec (.eventIntake 7) r) (fun d => d.evr.seq == 1 && d.led.csn == 5 && d.evr.raw.map EvRec.csn == [4]) = true) ∧
    (let s := withStore id; let r := { s with dev := s.dev.raise 0x004 [6] }; evCommitted 0x004 = false ∧
      after (exec (.eventIntake 7) r) (fun d => d.evr.seq == 1 && d.led.csn == 4 && d.evr.raw.map EvRec.csn == [0]) = true) ∧
    (let s := withStore id; let r := { s with dev := { s.dev with
        evr := { s.dev.evr with raw := [raw15] }, up := { s.dev.up with shedAt := 7 } } };
      (r.dev.advance 7).pw.heldOk = true ∧ 0 < r.dev.recN ∧
      after (exec (.eventFormat 7) r) (fun d => d.evr.newest == 9 &&
        ((NMap.find d.evr.fmt 9).map EvRec.text) == some (ascii "2000-01-01 05:33:20 LINK_LOST 6")) = true ∧
      after (exec (.eventFormat 7) { r with dev := { r.dev with up := { r.dev.up with shed := 4 } } }) (fun d => d.evr.raw.length == 1) = true) := by
  and_intros <;> decide +kernel

/-- A device whose supplies stand, with mains present and HOLDUP_OK, one domain `n` as given, and the store READY. -/
def withDom (n : Nat) (x : Domain) (f : Power → Power) : State :=
  let s := withStore id
  { s with dev := { s.dev with
    boot := { s.dev.boot with phase := 3 }
    pw := f { s.dev.pw with doms := [(2, ⟨2, 0, 0, 0, false⟩), (3, ⟨2, 0, 0, 0, false⟩), (n, x)], aoc := [(0, ⟨true, true, 0⟩), (1, ⟨true, true, 0⟩), (2, ⟨false, false, 0⟩)] } } }

theorem witness_PowerDomainsAndSupplies :
    (let s := withDom 46 ⟨1, 0, 0, 0, false⟩ id; s.dev.variant.lacks 46 = false ∧ (domDeps 46).all s.dev.domOn = true ∧
      after (exec (.domainReady 9 46) s) (fun d => d.domOn 46 && d.ctr fWakes == 1) = true ∧
      after (exec (.wakeFail (2 ^ 36) 46) s) (fun d => (d.dom 46).fails == 1 && (d.dom 46).st == 1) = true) ∧
    (let s := withDom 46 ⟨1, 0, 2, 0, false⟩ id; domPolicy 46 = .runs ∧
      after (exec (.wakeFail (2 ^ 36) 46) s) (fun d => (d.dom 46).st == 5 && d.boot.recovery == 4) = true) ∧
    (let s := withDom 4 ⟨2, 0, 0, 0, false⟩ id; s.dev.coresMin = 0 ∧ (s.dev.advance 9).mayIdle 4 = true ∧
      after (exec (.domainIdle 9 4) s) (fun d => (d.dom 4).st == 3 && (d.dom 4).why == 0) = true) ∧
    (let s := withDom 4 ⟨3, 0, 0, 0, false⟩ id; s.dev.domHolds 4 = false ∧
      after (exec (.closeDone 9 4) s) (fun d => (d.dom 4).st == 4) = true) ∧
    (let s := withDom 46 ⟨4, 0, 0, 0, true⟩ id;
      after (exec (.switchDone (2 ^ 36) 46) s) (fun d => (d.dom 46).st == 1) = true ∧
      after (exec (.switchDone (2 ^ 36) 46) (withDom 46 ⟨4, 0, 0, 0, false⟩ id)) (fun d => (d.dom 46).st == 0) = true ∧
      after (exec (.comparatorCrossing 9 0 false) s) (fun d => d.pw.low.isSome && !d.aocHigh 0) = true ∧
      after (exec (.bandFiltered (2 ^ 36) 2 1049) s) (fun d => d.aocHigh 2 && d.ctr fBandFiltered == 1) = true ∧
      after (exec (.supplyFault 9) s) (fun d => d.boot.phase == 5 && d.pw.doms == []) = true ∧
      after (exec (.vbakLow 9 true) s) (fun d => d.pw.vbak) = true ∧
      after (exec (.vbakLoss 9) s) (fun d => d.boot.phase == 3) = true) ∧
    (let s := withDom 46 Domain.off id; let at' (n : Nat) : State := { s with dev := { s.dev with boot := { s.dev.boot with phase := n } } };
      after (exec (.comparatorCrossing 9 0 true) (at' 0)) (fun d => d.boot.phase == 1 && d.out == [.pwrEn true]) = true ∧
      after (exec (.suppliesGood 9) (dev fun d => { d with boot := { d.boot with phase := 1 } })) (fun d => (d.dom 2).st == 1) = true ∧
      after (exec (.supplyTimeout (2 ^ 36)) (at' 1)) (fun d => d.boot.phase == 5) = true ∧
      after (exec (.supplyTimeout (2 ^ 36)) (at' 5)) (fun d => d.boot.phase == 1) = true ∧
      after (exec (.vbakLoss 9) (at' 0)) (fun d => d.pw.aoc.length == 8) = true) := by
  and_intros <;> decide +kernel

theorem witness_HoldupRunsItsSteps :
    (let s := withDom 46 Domain.off fun p => { p with low := some (0, 5) };
      let d := s.dev.advance (2 ^ 36); d.powered = true ∧ d.ledgerRuns = true ∧ d.passedUs 0 d.mainsFiltUs = true ∧
      after (exec (.mainsLoss (2 ^ 36)) s) (fun d => (d.pw.hu.map Holdup.stage) == some 4 && d.led.csn == 5 && d.led.openB == none) = true ∧
      after (exec (.mainsLoss (2 ^ 36)) { s with dev := { s.dev with boot := { s.dev.boot with phase := 1 } } }) (fun d => d.boot.phase == 0) = true) ∧
    (let s := withDom 44 ⟨2, 0, 0, 0, false⟩ fun p => { p with hu := some ⟨5, 0, 4, false, false, false⟩ };
      let r := { s with dev := { s.dev with up := { s.dev.up with gasp := some (1, 0), sess := [(0, sessUp12)] } } };
      after (exec (.lastGaspRepeat (2 ^ 36)) r) (fun d => d.up.gasp == some (1, 1) && d.out.length == 1) = true ∧
      (r.dev.advance 9).huE ⟨5, 0, 4, false, false, false⟩ * 2 ^ 36 ≤ (r.dev.advance 9).now * 100 ∧
      after (exec (.holdupMetroEnd 9) r) (fun d => (d.pw.hu.map Holdup.stage) == some 8) = true ∧
      after (exec (.holdCrit 9) r) (fun d => (d.pw.hu.map Holdup.stage) == some 9 && d.led.isSealed && d.ctr fHoldCrit == 1) = true) ∧
    (let s := withDom 44 ⟨2, 0, 0, 0, false⟩ fun p => { p with hu := some ⟨5, 0, 8, false, true, false⟩ };
      after (exec (.holdupSeal 9) s) (fun d => (d.pw.hu.map Holdup.stage) == some 9 && d.led.isSealed) = true) ∧
    (let s := withDom 44 ⟨2, 0, 0, 0, false⟩ fun p => { p with hu := some ⟨5, 0, 9, false, true, false⟩ }; (s.dev.advance 9).led.signQ = [] ∧
      s.dev.sto.st = 1 ∧ s.dev.boot.recovery = 0 ∧ s.dev.pw.hu.isSome = true) ∧
    (let s := withDom 44 ⟨2, 0, 0, 0, false⟩ fun p => { p with hu := some ⟨5, 0, 12, false, true, true⟩ };
      after (exec (.holdupEnd 9) s) (fun d => d.boot.phase == 1 && d.pw.stage == 13) = true) ∧
    (let s := withDom 46 Domain.off id;
      let r (a : Nat) : State := { s with dev := { s.dev with pair := { s.dev.pair with st := 3 }, idn := { s.dev.idn with armed := some a, recs := [⟨1, false⟩] } } };
      let d := (r 1).dev.advance 9; d.tamperOn 0 = true ∧ d.boot.restart = none ∧ d.led.isSealed = false ∧ d.isEnrolled = true ∧ d.primary = true ∧
      after (exec (.tamper 9 2) (r 1)) (fun d => d.items 7 == [.event ⟨0x0B0, [0], none⟩]) = true ∧
      d.boot.phase = 3 ∧ d.pw.hu = none ∧ tamperAction 1 0 = 1 ∧ tamperAction 2 0 = 2 ∧ tamperAction 3 0 = 3 ∧
      after (exec (.tamper 9 2) { (r 1) with dev := { (r 1).dev with idn := { (r 1).dev.idn with acted := [(2, true, none)] } } }) (fun d =>
        d.items 7 == []) = true) ∧
    evClass 0x003 = 0 ∧ evCommitted 0x003 = true := by
  and_intros <;> decide +kernel

/-- A configuration write of one word at offset 0 of a region. -/
def write17 (region op : Nat) : ObjWrite := ⟨1, 5, region, 0, 1, [pk [(op, 35, 32)]]⟩

/-- What a start finds. -/
def start17 : StartFacts := { missing := [], mapOk := true, endur := 0, dram := (⟨8, 8, 1⟩, ⟨8, 8, 1⟩), migOk := true }

/-- A running device with its boot part changed. -/
def withBoot (f : Boot → Boot) : State :=
  let s := withPort sessUp12 id
  { s with dev := { s.dev with boot := f { s.dev.boot with phase := 3 } } }

/-- The state of slot B or A and both versions' stage. -/
def slots17 (a b : Nat) (act : Bool) (f : Boot) : Boot := { f with br := { f.br with stA := a, stB := b, actB := act } }

theorem witness_ConfigurationAndFirmware :
    (let s := withBoot id; let d := s.dev.advance 9;
      d.pw.hu = none ∧ d.keptAnswer 5 = none ∧ d.writeRefusal (write17 0x0A 1) = none ∧ d.writeRefusal (write17 0x0B 1) = none ∧
      d.cfgBusy = false ∧ d.cardReads 2 = false ∧ d.cardReads 1 = false ∧ d.fwBusy = false ∧
      d.cfgFinding s.stores.cfgStage = some (1, 0, 0) ∧
      after (exec (.configCheck 9 (write17 0x0A 1)) s) (fun d => d.boot.cStage == 4 && d.boot.cWhy == 1) = true ∧
      after (exec (.configInstall 9 (write17 0x0A 2)) s) (fun d => d.boot.cStage == 4) = true ∧
      after (exec (.configClear 9 (write17 0x0A 3)) s) (fun d => (d.keptAnswer 5).isSome) = true ∧
      d.pgFinding s.stores.fwStage (d.running s.stores) = some 1 ∧
      after (exec (.fwApply 9 (write17 0x0B 1)) s) (fun d => d.boot.fStage == 5) = true ∧
      after (exec (.fwClear 9 (write17 0x0B 2)) s) (fun d => (d.keptAnswer 5).isSome) = true) ∧
    (let s := withBoot fun b => { b with cStage := 2 }; (s.dev.advance 9).cfgBusy = true ∧
      after (exec (.configCheck 9 (write17 0x0A 1)) s) (fun d => d.ctr fBusySent == 1) = true ∧
      after (exec (.configWriteDone 9 false) s) (fun d => d.boot.cStage == 4 && d.boot.cWhy == 11) = true) ∧
    after (exec (.configWriteDone 9 true) (withBoot id)) (fun d => d.boot.cStage == 0) = true ∧
    (let s := withBoot fun b => slots17 5 1 false { b with fStage := 2 }; (s.dev.advance 9).fwBusy = true ∧
      pgLegal s.stores.fwStage = false ∧
      after (exec (.fwAbort 9 (write17 0x0B 3)) s) (fun d => d.boot.fStage == 5 && d.boot.br.stB == slotFailed && d.boot.br.fail == 11) = true ∧
      after (exec (.fwBuildDone 9 none none) s) (fun d => d.boot.fStage == 3 && d.boot.br.stB == slotWritten) = true ∧
      after (exec (.fwBuildDone 9 none (some 0)) s) (fun d => d.boot.fStage == 5 && d.boot.fWhy == 6) = true ∧
      firstBad [([1], 0)] none = some 0) ∧
    (let s := withBoot fun b => slots17 5 2 false { b with fStage := 3 };
      (s.dev.advance 9).fwFinding (s.stores.slot true) = some 7 ∧
      after (exec (.fwVerifyDone 9) s) (fun d => d.boot.br.stB == slotFailed && d.boot.fStage == 5) = true) := by
  and_intros <;> decide +kernel

theorem witness_StartsAndRestarts :
    after (exec (.coldStart 9 start17) (withBoot id)) (fun d => d.boot.phase == 3) = true ∧
    (let doms := [2, 3, 47, 48, 49].map fun n => (n, (⟨2, 0, 0, 0, false⟩ : Domain));
      let s := dev fun d => { d with boot := { d.boot with phase := 2 }, pw := { d.pw with doms := doms, aoc := [(0, ⟨true, true, 0⟩)] } };
      (s.dev.advance 9).aocHigh 0 = true ∧ [2, 3, 47, 48, 49].all (s.dev.advance 9).domOn = true ∧ s.stores.norA = [] ∧ s.dev.idn.armed = none ∧
      after (exec (.coldStart 9 start17) s) (fun d => d.boot.phase == 3 && d.boot.recovery == 5 && d.up.gen == 1) = true) ∧
    (let s := withBoot (slots17 5 6 false); let c (a : Nat) : Control := ⟨1, 4, 5, a, false⟩;
      (s.dev.advance 9).restartRefusal 0 = none ∧ (s.dev.advance 9).boot.br.inState slotVerified = none ∧
      after (exec (.warmRestart 9 (c 3)) s) (fun d => d.boot.phase == 3 && (d.keptAnswer 5).isSome) = true ∧
      after (exec (.warmRestart 9 (c 0)) s) (fun d => d.boot.phase == 4 && d.boot.restart == some (0, false, 9)) = true ∧
      after (exec (.warmRestartFirmware 9 (c 1)) s) (fun d => d.boot.phase == 3) = true ∧
      after (exec (.warmRestartLegal 9 (c 2)) s) (fun d => d.boot.phase == 3) = true) ∧
    (let s := withBoot fun b => { slots17 5 3 false b with legBok := true }; let c (a : Nat) : Control := ⟨1, 4, 5, a, false⟩;
      (s.dev.advance 9).restartRefusal 1 = none ∧ (s.dev.advance 9).restartRefusal 2 = none ∧
      after (exec (.warmRestartFirmware 9 (c 1)) s) (fun d => d.boot.phase == 4 && d.boot.br.stB == slotTrial && d.boot.br.stA == slotPrevious) = true ∧
      after (exec (.warmRestartLegal 9 (c 2)) s) (fun d => d.boot.phase == 4 && d.boot.br.legB) = true) ∧
    (let s := dev fun d => { d with boot := { d.boot with phase := 4, restart := some (0, true, 0) } };
      after (exec (.warmRestartResume 9) s) (fun d => d.boot.phase == 2 && (d.dom 2).st == 1) = true ∧
      after (exec (.warmRestartResume 9) { s with dev := { s.dev with boot := { s.dev.boot with restart := some (0, false, 0) } } }) (fun d =>
        d.boot.phase == 3 && d.boot.recovery == 5) = true) ∧
    (let doms := [2, 3, 46, 47, 48, 49, 50, 55].map fun n => (n, (⟨2, 0, 0, 0, false⟩ : Domain));
      let s0 := withBoot fun b => { slots17 4 6 false b with trial := some 0, tAck := true };
      let s := { s0 with dev := { s0.dev with pw := { s0.dev.pw with doms := doms }, pair := { s0.dev.pair with st := 3 } } };
      (s.dev.advance (601 * 2 ^ 36)).trialGood = true ∧
      after (exec (.trialConfirm (601 * 2 ^ 36) none) s) (fun d => d.boot.br.stA == slotActive && d.boot.trial == none) = true ∧
      (s.dev.advance (1801 * 2 ^ 36)).passedMs 0 1800000 = true ∧
      after (exec (.trialTimeout (1801 * 2 ^ 36)) s) (fun d => d.boot.br.stA == slotFailed && d.boot.br.actB && d.boot.phase == 4) = true ∧
      after (exec (.trialTimeout 9) s) (fun d => d.boot.phase == 3) = true) := by
  and_intros <;> decide +kernel

/-- A device of a pair with one session to the head end UP, its store READY, and a shipped checkpoint. -/
def withPair (f : Pair → Pair) (g : Dev → Dev := id) : State :=
  let s := withPort sessUp12 id
  let d := withCfg [(blkPair, pk [(1, 35, 35), (1, 33, 33), (60, 32, 21), (1, 20, 13)]), (blkStore + 3, pk [(40, 15, 8), (2, 7, 4)])] s.dev
  { s with dev := g { d with
    boot := { d.boot with phase := 3 }
    sto := { d.sto with st := 1, ckpts := [⟨true, d.snapshot 1, 0, (1, 2)⟩] }
    pw := { d.pw with doms := [(49, ⟨2, 0, 0, 0, false⟩), (50, ⟨2, 0, 0, 0, false⟩)], aoc := [(1, ⟨true, true, 0⟩)] }
    pair := f { d.pair with link := true } } }

/-- A block as it travels, and a part of a checkpoint. -/
def block18 : Block := { block12 with epoch := 0, entries := [{ mkEntry 2 1 0 none 0 [0, 0, 0, 0] with csn := 3 }] }
def part18 (n typ : Nat) : CkptPart := ⟨4, n, typ, false, 0, 1, .words [pk [(1, 35, 28), (1, 26, 22)]]⟩

theorem witness_PairMessagesAct :
    (let s := withPair id; let d := s.dev.advance (2 ^ 36); d.boot.phase = 3 ∧ d.beat ≠ d.up.hbAt ∧ d.sessUp 0 = true ∧ d.sessUp 1 = false ∧
      d.interval ≠ d.pair.outAt ∧ d.interval ≠ d.pair.ivl ∧ d.pair.dead = false ∧ d.pairEn = true ∧ d.pair.st = 3 ∧ d.domOn 49 = true ∧
      after (exec (.heartbeat (2 ^ 36)) s) (fun d => d.up.hbSeq == 1 && d.out.length == 1) = true ∧
      after (exec (.pairHbSend (2 ^ 36)) s) (fun d => d.up.pairSeq == 1 && d.out.length == 1) = true ∧
      after (exec (.coreWatchdog 9) s) (fun d => d.pair.dead) = true ∧ after (exec (.lastGasp 9 [1]) s) (fun d => d.up.peerGasp == some [1]) = true ∧
      after (exec (.hbInterval (2 ^ 36)) s) (fun d => d.ctr fHbMissLink == 1 && d.ctr fHbMissCxp == 1) = true ∧
      after (exec (.pairBlockLock 9 validLine) s) (fun d => d.pair.link) = true ∧ gainsLock validLine = true ∧
      losesLock badLine = true ∧ after (exec (.pairBlockLockLost 9 badLine) s) (fun d => !d.pair.link) = true ∧
      after (exec (.pairHb 9 2 1 true 5 0 false) s) (fun d => d.boot.phase == 2 && d.pair.known == 5) = true) ∧
    (let s := withPair fun p => { p with st := 1, missN := 5, hbL := some 0 }; let d := s.dev.advance (2 ^ 36);
      (d.usableCkpt d.pair.known).isSome = true ∧ 2 ≤ d.ckptKeep ∧
      after (exec (.pairHb 9 2 1 false 5 7 false) s) (fun d => d.pair.known == 5 && d.pair.sick && d.pair.pCsn == 7) = true ∧
      Block.ofWords [] = none ∧ ((Block.ofWords block18.words).map fun x => x.1.bno) = some 1 ∧
      after (exec (.ledgerBlock 9 0 (0 :: block18.words)) s) (fun d => (NMap.find d.led.blocks 1).isSome) = true ∧
      after (exec (.ledgerBlock 9 0 [0]) s) (fun d => d.ctr fBadSeg == 1) = true ∧
      (partTaken none (part18 0 0)).isSome = true ∧ partTaken none (part18 1 0) = none ∧
      after (exec (.ckptShip 9 (part18 0 0)) s) (fun d => d.pair.part.isSome) = true ∧
      after (exec (.ckptShip 9 (part18 1 0)) s) (fun d => d.ctr fBadSeg == 1) = true) ∧
    (let s := withPair fun p => { p with st := 2, fetch := some 6 };
      after (exec (.ledgerBlock 9 6 (pk [(1, 35, 35)] :: block18.words)) s) (fun d => (NMap.find d.led.blocks 1).isSome) = true) ∧
    (let s (n : Nat) := withPair (fun p => { p with pCsn := n }) fun d => { d with led := { d.led with blocks := [(1, block12)] } };
      (((s 2).dev.advance (2 ^ 36)).nextShip = some block12) ∧ ((s 2).dev.advance (2 ^ 36)).shipGap block12 = false ∧
      ((s 0).dev.advance (2 ^ 36)).shipGap block12 = true ∧
      after (exec (.shipRetry (2 ^ 36)) (s 2)) (fun d => d.pair.moved == 2 ^ 36 && d.out.length == 1) = true ∧
      (s 0).dev.sto.cur = none) := by
  and_intros <;> decide +kernel

theorem witness_PairRolesChange :
    (let s (st : Nat) := withPair (fun p => { p with st := st, known := 3, epoch := 3 }) fun d => { d with up := { d.up with hbs := [(4, 0, 8)] } };
      after (exec (.lease 9 4 3 true false) (s 0)) (fun d => d.pair.st == 3 && d.up.lease == some (usT 1500000)) = true ∧
      after (exec (.lease 9 4 3 true false) (s 3)) (fun d => d.pair.st == 3 && d.up.lease == some (usT 1500000)) = true ∧
      after (exec (.lease 9 4 3 false true) (s 3)) (fun d => d.boot.phase == 2) = true ∧
      after (exec (.lease 9 5 3 true false) (s 3)) (fun d => d.up.lease == none) = true ∧ (s 2).dev.tamperHolds = false ∧
      after (exec (.lease 9 4 4 true false) (s 2)) (fun d => d.pair.granted && d.pair.fetch == some 1) = true) ∧
    (let s := withPair (fun p => { p with st := 0 }) fun d => withCfg [(blkPair, 0)] { d with up := { d.up with hbs := [(4, 0, 8)] } };
      after (exec (.lease 9 4 3 true false) s) (fun d => d.pair.st == 6 && d.pair.epoch == 3) = true) ∧
    (let s := withPair id fun d => { d with up := { d.up with lease := some 5 } };
      after (exec (.leaseExpiry 4) s) (fun d => d.up.lease == some 5) = true ∧
      after (exec (.leaseExpiry 6) s) (fun d => d.up.lease == none && d.pair.lapse == some 4) = true) ∧
    (let s := withPair id fun d => { d with led := { d.led with accepts := false } }; s.dev.boot.stVer ≤ s.dev.boot.br.svData ∧
      after (exec (.ledgerReady 9) s) (fun d => d.led.accepts) = true) ∧
    (let s := withPair fun p => { p with st := 2 }; (s.dev.advance (2 * 2 ^ 36)).passedMs 0 (1000 * s.dev.peerWaitS) = true ∧
      after (exec (.ledgerReady 9) s) (fun d => d.pair.restored) = true) ∧
    (let s := withPair fun p => { p with st := 1 };
      (s.dev.advance 9).preferred = false ∧ ((s.dev.advance 9).usableCkpt 0).isSome = true ∧ (s.dev.advance 9).peerWaitS = 1 ∧
      after (exec (.peerWaitExpiry (2 ^ 36)) s) (fun d => d.pair.st == 1) = true) ∧
    (let s := withPair (fun p => { p with pHealthy := true, shipCk := some 0, hbL := some (99 * 2 ^ 36), hbC := some (99 * 2 ^ 36), ret := some 0 });
      let d := s.dev.advance (99 * 2 ^ 36); d.mayReturn = true ∧ d.passedMs 0 (1000 * d.returnS) = true ∧ d.inSync = true ∧
      d.boot.restart = none ∧ d.boot.phase = 3 ∧ d.pair.ret = some 0 ∧
      after (exec (.autoReturn (199 * 2 ^ 36)) s) (fun d => d.pair.st == 3 && d.pair.ret == none) = true) ∧
    after (exec (.swap 9 (ctl9 6)) (withPair id)) (fun d => d.pair.st == 3 && (d.keptAnswer 5).isSome) = true ∧
    (let s := withPair (fun p => { p with st := 4 }) fun d => { d with led := { d.led with accepts := false } };
      after (exec (.handoverTimeout (10 * 2 ^ 36)) s) (fun d => d.boot.phase == 2) = true ∧
      after (exec (.handoverTimeout (10 * 2 ^ 36)) { s with dev := { s.dev with up := { s.dev.up with lease := some (11 * 2 ^ 36) } } }) (fun d =>
        d.pair.st == 3 && d.led.accepts) = true) := by
  and_intros <;> decide +kernel

/-- A panel of one block with modes 0 and 1 of two frames from −40 °C up to 100 °C, and its controller as given. -/
def withPanel (f : Display → Display) : State := dev fun d0 =>
  let d := withCfg [(blkDisplay, pk [(1, 35, 35), (1, 34, 28), (1, 27, 18)]), (blkDisplay + 1, pk [(5000, 35, 22)]),
    (blkDisplay + 5, pk [(200, 35, 24), (100, 19, 12)]), (blkDisplay + 6, pk [(256 + 216, 8, 0)]), (blkDisplay + 10, 2), (blkDisplay + 14, 2)] d0
  { d with
    disp := f d.disp
    pw := { d.pw with doms := [(2, ⟨2, 0, 0, 0, false⟩), (3, ⟨2, 0, 0, 0, false⟩), (54, ⟨2, 0, 0, 0, false⟩)] }
    leg := { d.leg with img := List.replicate 209 0 ++ [pk [(5, 35, 30), (9, 29, 22)], pk [(1, 35, 35)]] } }

def run20 (clear : Bool) : DispRun := ⟨⟨128, [0], 1, 0⟩, clear, 2, [0]⟩

theorem witness_PanelAndScrollFollowTheirStates :
    (let s := withPanel id; let d := s.dev.advance 9; d.dispEn = true ∧ d.rangeOf (20 + d.tempOff) = some 0 ∧ d.rangeOf (101 + d.tempOff) = none ∧
      d.waveFrames 1 0 = 2 ∧ d.waveFrames 2 0 = 0 ∧ d.nextItem = 1 ∧
      after (exec (.buttonPress 9) s) (fun d => d.leg.item == 1 && d.leg.pause == some (9 + 9 * 2 ^ 36)) = true ∧
      after (exec (.scrollAdvance (5 * 2 ^ 36)) s) (fun d => d.leg.item == 1 && d.leg.shown == 5 * 2 ^ 36) = true ∧
      after (exec (.displayCommit 9 128 1 [0] 20) s) (fun d => d.disp.st == 1 && d.disp.next.isSome) = true ∧
      after (exec (.displayCommit 9 128 1 [0] 101) s) (fun d => d.disp.st == 6 && d.ctr fTempOut == 1) = true ∧
      after (exec (.displayCommit 9 129 1 [0] 20) s) (fun d => d.disp.next == none) = true) ∧
    (let s := withPanel id; let r := { s with dev := { s.dev with leg := { s.dev.leg with pause := some 7 } } };
      after (exec (.scrollResume 9) r) (fun d => d.leg.item == 1 && d.leg.pause == none) = true ∧
      after (exec (.scrollResume 6) r) (fun d => d.leg.item == 0) = true ∧ after (exec (.scrollAdvance (5 * 2 ^ 36)) r) (fun d => d.leg.item == 0) = true) ∧
    after (exec (.buttonPress 9) (withPanel fun x => { x with run := some (run20 false) })) (fun d => d.leg.press && d.leg.item == 0) = true ∧
    (let s := withPanel fun x => { x with st := 1, next := some ⟨128, [0], 1, 0⟩ }; (s.dev.advance 9).railDlyUs = 0 ∧
      after (exec (.railsReady 9) s) (fun d => d.disp.st == 2) = true ∧
      after (exec (.displayCommit 9 192 1 [0] 20) s) (fun d => d.disp.st == 1 && d.ctr fSuperseded == 1) = true ∧
      after (exec (.railFault 9) s) (fun d => d.disp.st == 5 && d.ctr fRailFault == 1) = true) ∧
    (let s (m : Nat) := withPanel fun x => { x with st := 3, next := some ⟨128, [0], m, 0⟩ };
      after (exec (.frameTick 9 20) (s 1)) (fun d => d.disp.st == 2 && d.disp.isOpen && d.disp.next == none) = true ∧
      after (exec (.frameTick 9 20) (s 2)) (fun d => d.disp.st == 3 && d.ctr fNoWave == 1) = true ∧
      after (exec (.frameTick 9 101) (s 1)) (fun d => d.disp.st == 5) = true) ∧
    after (exec (.frameTick 9 20) (withPanel fun x => { x with st := 2, next := some ⟨128, [0], 1, 0⟩ }))
      (fun d => d.disp.isOpen && d.scans && d.out.length == 1) = true ∧
    (let s (f : Nat) := withPanel fun x => { x with st := 2, run := some (run20 false), frame := f, tick := some 0, isOpen := true };
      after (exec (.frameTick (2 ^ 36) 20) (s 0)) (fun d => d.disp.st == 2 && d.disp.done == 1) = true ∧
      after (exec (.frameTick (2 ^ 36) 20) (s 1)) (fun d => d.disp.st == 3 && d.disp.cur == 128 && d.ctr fUpdates == 1 && !d.disp.isOpen) = true ∧
      after (exec (.frameTick 9 20) (s 1)) (fun d => d.disp.st == 2 && d.disp.isOpen) = true ∧
      after (exec (.railFault 9) (s 1)) (fun d => d.disp.st == 5 && d.disp.cutP && d.ctr fCuts == 1) = true) ∧
    (let s (l : Option Nat) := withPanel fun x => { x with st := 4, left := l };
      after (exec (.frameTick 9 20) (s none)) (fun d => d.disp.left == some 4) = true ∧
      after (exec (.frameTick 9 20) (s (some 4))) (fun d => d.disp.left == some 3) = true ∧
      after (exec (.frameTick 9 20) (s (some 1))) (fun d => d.disp.st == 5) = true) ∧
    after (exec (.railHoldExpiry (2 ^ 36)) (withPanel fun x => { x with st := 3 })) (fun d => d.disp.st == 5) = true ∧
    after (exec (.dischargeDone 9 20) (withPanel fun x => { x with st := 5 })) (fun d => d.disp.st == 0 && (d.dom 54).st == 3) = true ∧
    after (exec (.dischargeDone 9 101) (withPanel fun x => { x with st := 5, next := some ⟨128, [0], 1, 0⟩ })) (fun d => d.disp.st == 6) = true ∧
    after (exec (.tempRecheck (2 ^ 36) 20) (withPanel fun x => { x with st := 6 })) (fun d => d.disp.st == 1) = true ∧
    after (exec (.tempRecheck (2 ^ 36) 101) (withPanel fun x => { x with st := 6 })) (fun d => d.disp.st == 6) = true := by
  and_intros <;> decide +kernel

/-- A device with UART 1 serving MIRROR_READ for UNIT 9 and the service card in use. -/
def withLocal (f : Card → Card) (g : Dev → Dev := id) : State :=
  let s := withLedger id
  let d := withCfg [(blkLocal + 49, pk [(1, 35, 35), (9, 26, 19)]), (blkLocal + 52, pk [(1, 35, 35), (3, 34, 33)])] s.dev
  { s with dev := g { d with
    boot := { d.boot with cfgOn := true, phase := 3 }
    loc := { d.loc with pins := 2, card := f d.loc.card }
    pw := { d.pw with doms := [(55, ⟨2, 0, 0, 0, false⟩)] } } }

def hdr21 : CardHdr :=
  { sound := true, blocks := 9, id := 5, nblk := 9, logFirst := 2, logCount := 4, impFirst := 0, impCount := 0, kind := 0, flags := 0, octets := 0,
    from' := 0, fresh := false }

def imp21 : CardHdr := { hdr21 with logFirst := 0, logCount := 0, impFirst := 2, impCount := 2, kind := 1, octets := 9 }

theorem witness_UartsAndTheCardAnswer :
    (let s := withLocal id; let d := s.dev.advance 9; let rq : List Octet := [9, 0x52, 0, 0, 0, 2]; d.mirrorUart 1 = true ∧ d.domOn 55 = true ∧
      d.cardEn = true ∧ d.pw.hu = none ∧ hdr21.valid = true ∧ imp21.valid = true ∧ d.mirrorUart 2 = false ∧
      after (exec (.uartRequest 9 1 rq false) s) (fun d => (d.uart 1).part.length == 6) = true ∧
      after (exec (.uartRequest 9 1 (rq ++ octetsBE (crc32c rq) 4) false) s) (fun d => d.out.length == 1 && (d.uart 1).part == []) = true ∧
      after (exec (.uartRequest 9 1 (rq ++ octetsBE (crc32c rq + 1) 4) false) s) (fun d => d.out == [] && d.ctr (fUartCrc 1) == 1) = true ∧
      after (exec (.uartRequest 9 1 rq true) s) (fun d => d.ctr (fUartFraming 1) == 1) = true ∧
      after (exec (.uartGap 9 1) { s with dev := s.dev.setUart 1 { s.dev.uart 1 with part := [1] } }) (fun d => (d.uart 1).part == [1]) = true ∧
      after (exec (.uartGap (2 ^ 36) 1) { s with dev := s.dev.setUart 1 { s.dev.uart 1 with part := [1] } }) (fun d => (d.uart 1).part == []) = true ∧
      after (exec (.cardInsert 9) s) (fun d => d.loc.card.st == csInit) = true) ∧
    (let s := withLocal fun c => { c with st := 1, power := true };
      after (exec (.cardIdentified 9 none 0 false) s) (fun d => d.loc.card.st == csFault) = true ∧
      after (exec (.cardIdentified 9 (some [1]) 9 false) s) (fun d => d.loc.card.st == csFault) = true ∧
      (let x := (s.dev.cardBegin hdr21).loc.card; x.id = 5 ∧ x.next = 1 ∧ x.hdr = some hdr21) ∧
      after (exec (.cardRemove 9) s) (fun d => d.loc.card.st == csAbsent) = true) ∧
    (let s := withLocal fun c => { c with st := 2, hdr := some hdr21, ok := 3, cur := some (4, 1, 2) };
      after (exec (.cardVerifyDone 9 (some [])) s) (fun d =>
        d.loc.card.st == csReady && d.loc.card.ok == 4 && d.ctr fRewrite == 1 && d.ctr fVerifyFail == 1) = true ∧
      after (exec (.cardVerifyDone 9 none) s) (fun d => d.loc.card.st == csFault) = true) ∧
    after (exec (.cardVerifyDone 9 (some [])) (withLocal fun c => { c with st := 2, hdr := some imp21 })) (fun d => d.loc.card.st == csImport) = true ∧
    (let s := withLocal fun c => { c with st := 3, hdr := some imp21 }; (s.dev.advance 9).fwBusy = false ∧
      after (exec (.cardImportDone 9 none) s) (fun d => d.loc.card.st == csReady && d.out.length == 1) = true ∧
      importWords { imp21 with octets := 0 } [] = some [] ∧
      (let r := cardRun imp21 [0, 1] s.stores (s.dev.setCard { s.dev.loc.card with done := true }); r.2.fwBusy = false ∧ r.2.boot.fStage = 5) ∧
      after (exec (.cardImportDone 9 none) (withLocal fun c => { c with st := 3, hdr := some imp21, done := true }))
        (fun d => d.loc.card.st == csReady && d.out.length == 1) = true) ∧
    (let s := withLocal (fun c => { c with st := 4, hdr := some hdr21, next := 1 })
        fun d => { d with evr := { d.evr with newest := 1, fmt := [(1, { raw15 with text := [65] })] } };
      after (exec (.logBlockDue (60 * 2 ^ 36)) s) (fun d => d.loc.card.st == csWriting && d.loc.card.cur == some (1, 1, 1)) = true) ∧
    (let s := withLocal fun c => { c with st := 5, hdr := some hdr21, cur := some (4, 1, 2) };
      after (exec (.cardWriteConfirmed 9) s) (fun d => d.loc.card.st == csReady && d.loc.card.ok == 4 && d.loc.card.next == 3) = true ∧
      after (exec (.cardBusyTimeout 9 true) s) (fun d => d.loc.card.st == csFault) = true ∧
      after (exec (.cardBusyTimeout (2 ^ 36) false) s) (fun d => d.loc.card.st == csFault) = true ∧
      after (exec (.cardBusyTimeout 9 false) s) (fun d => d.loc.card.st == csWriting) = true) := by
  and_intros <;> decide +kernel

theorem witness_BlockAckEntriesHoldTheAcknowledgement :
    (let s := withPort sessUp12 fun d => { d with led := { d.led with blocks := [(1, block12)], sentB := 1 } }; let d := s.dev.advance 9;
      d.pair.st ≠ 2 ∧ d.led.acked = 0 ∧ d.ledgerRuns = true ∧ d.led.openB.isNone = true ∧
      after (exec (.ledgerAck 9 1 4 1 3) s) (fun d => (d.led.openB.bind fun o => o.entries.getLast?.map Entry.body) ==
        some [1, 0, 3, pk [(1, 35, 35)]]) = true) := by
  and_intros <;> decide +kernel

theorem witness_MainsIsLostByItsFilter :
    (let s := withDom 46 Domain.off fun p => { p with low := some (0, 5) }; let d := s.dev.advance (2 ^ 36);
      d.passedUs 0 d.mainsFiltUs = true ∧ d.powered = true ∧ d.led.accepts = true ∧
      after (exec (.mainsLoss (2 ^ 36)) s) (fun d => (d.pw.hu.map Holdup.tL) == some 5) = true ∧
      after (exec (.comparatorCrossing 9 0 true) s) (fun d => d.pw.low == none) = true) ∧
    (let s := withDom 46 Domain.off id; (s.dev.aoc 0).res = true ∧ (s.dev.aoc 0).high = true ∧
      after (exec (.comparatorCrossing 9 0 false) s) (fun d => d.pw.low.map (·.1) == some 9) = true ∧
      after (exec (.mainsLoss 9) s) (fun d => d.pw.hu == none) = true) ∧
    (let s := withDom 46 Domain.off fun p => { p with hu := some ⟨5, 0, 4, false, false, false⟩, low := some (0, 5) };
      after (exec (.mainsLoss (2 ^ 36)) s) (fun d => (d.pw.hu.map Holdup.stage) == some 4) = true ∧
      after (exec (.comparatorCrossing 9 0 false) s) (fun d => d.pw.hu.isSome) = true) := by
  and_intros <;> decide +kernel

/-! Well-formedness refuses an ill-formed term for each of its checks. -/

def illFormed (l : List Instr) : Bool := l.all fun i => !i.wf

def cmdOf (kind : Nat) : CmdMsg := ⟨1, 2, kind, 4, 60, 0, 0, 0, []⟩
def endOf (n : Nat) : RxEnd := ⟨0, 0, List.replicate n 0⟩
def heardOf (stream sub n mcs : Nat) : Heard := ⟨stream, sub, false, ⟨true, n, mcs, false⟩, 0, 0, 0⟩
def frameOf (modn seg : Nat) : PlFrame := ⟨true, false, modn, seg, true, 0, 0, []⟩
def foreignOf (gm : Nat) : Foreign := ⟨gm, 0, 0, 0, 0, 0, 0, 0, 0⟩
def startOf (die : Nat) : StartFacts := ⟨[die], true, 3000, (⟨16, 8, 1⟩, ⟨16, 8, 1⟩), true⟩
def partOf (typ n : Nat) : CkptPart := ⟨1, 0, typ, true, 0, n, .words []⟩
def writeOf (region offset : Nat) : ObjWrite := ⟨1, 5, region, offset, 1, [0]⟩
def blockOf (sync bits : Nat) : LineBlock := ⟨sync, bits⟩

theorem test_wf_accepts : ([.packetWrite 0 7 ⟨none, 4, [1], true, false⟩, .linkFrame 0 15 ⟨[blockOf 2 (2 ^ 64 - 1)], 0⟩,
    .detection 0 (heardOf 31 255 15 7), .frameEnd 0 127 (endOf 9), .plFrameEnd 0 31 (frameOf 3 63), .read 0 (cmdOf 1), .timeStep 0 (ctl9 1),
    .swap 0 (ctl9 15), .rebuild 0 (cmdOf 63), .membershipWrite 0 (writeOf 0x05 7), .recordWrite 0 (writeOf 0x03 0),
    .comparatorCrossing 0 8 true, .pairHb 0 2 1 true 3 9 false, .ckptShip 0 (partOf 63 (2 ^ 18 - 1)), .coldStart 0 (startOf 63)] : List Instr).all
    Instr.wf = true := by decide +kernel

theorem test_wf_queues_and_links : illFormed [.packetWrite 0 8 ⟨none, 0, [], true, false⟩, .packetWrite 0 0 ⟨none, 5, [], true, false⟩,
    .packetWrite 0 0 ⟨some [1, 2], 0, [], true, false⟩, .staleTimeout 0 8 0, .staleTimeout 0 0 5, .flush 0 8 0, .mireFill 0 0 5 none,
    .linkFrameSend 0 16, .linkFrame 0 16 ⟨[], 0⟩, .linkFrame 0 0 ⟨[blockOf 4 0], 0⟩, .linkFrame 0 0 ⟨[blockOf 1 (2 ^ 64)], 0⟩,
    .delayReq 0 16, .delayResp 0 16 0 0 0 0, .status 0 16 [], .alarm 0 0 256, .reedSilent 0 16, .blockLock 0 16 [], .blockLock 0 0 [blockOf 4 0],
    .blockLockLost 0 16 [], .blockLockLost 0 0 [blockOf 4 0], .alignTimeout 0 16, .lostTimeout 0 16, .startBlockTimeout 0 16,
    .streamGainChange 0 32 0, .streamGainChange 0 0 64] = true := by decide

theorem test_wf_air : illFormed [.detection 0 (heardOf 32 0 0 0), .detection 0 (heardOf 0 256 0 0), .detection 0 (heardOf 0 0 16 0),
    .detection 0 (heardOf 0 0 0 8), .phrClassMark 0 0 0 4, .starved 0 32 0 false, .phrDecoded 0 128 ⟨false, 0, false, 0, 0, false⟩,
    .phrDecoded 0 0 ⟨false, 0, false, 2048, 0, false⟩, .macHeaderComplete 0 128 [], .directoryLookup 0 128,
    .frameEnd 0 128 (endOf 0), .frameEnd 0 0 (endOf 2048), .ackStart 0 128, .ackEnd 0 128, .mailWindowEnd 0 (2 ^ 21), .backoffEnd 0 128,
    .ccaEnd 0 128 [], .txStart 0 128, .blankEnd 0 32, .txEnd 0 128, .ackReceived 0 128 ⟨[], false, 0⟩, .ackWaitTimeout 0 128,
    .dwellBucket 0 32 0, .dwellBucket 0 0 8192, .hornListenStart 0 (2 ^ 21), .hornListenEnd 0 (2 ^ 21)] = true := by decide +kernel

theorem test_wf_powerline : illFormed [.plPreamble 0 32 ⟨0, 0, 0⟩, .plFrameEnd 0 32 (frameOf 0 0), .plFrameEnd 0 0 (frameOf 4 0),
    .plFrameEnd 0 0 (frameOf 0 64), .reasmTimeout 0 32 0 0, .reasmTimeout 0 0 0 65536, .plRespStart 0 32, .plRespEnd 0 32, .plAccessSlot 0 32,
    .plTxEnd 0 32, .plResponse 0 32 true 0, .plResponse 0 0 true 65536, .plAwaitTimeout 0 32, .routeRequest 0 (2 ^ 21), .sweepPeriod 0 32,
    .sweepReply 0 32 ⟨0, [], 0⟩, .sweepWindowEnd 0 32, .verifyDone 0 (2 ^ 21), .indexLookup 0 (2 ^ 21)] = true := by decide

theorem test_wf_commands : illFormed [.read 0 (cmdOf 2), .disconnect 0 (cmdOf 1), .reconnect 0 (cmdOf 2), .tariffPush 0 (cmdOf 3),
    .keyRotate 0 (cmdOf 4), .campaignCreate 0 (cmdOf 5), .campaignStart 0 (cmdOf 7), .campaignActivate 0 (cmdOf 7), .campaignCancel 0 (cmdOf 7),
    .cancel 0 (cmdOf 6), .enrol 0 (cmdOf 9), .remove 0 (cmdOf 8), .clearQuar 0 (cmdOf 9), .rebuild 0 (cmdOf 12), .sweepStart 0 (cmdOf 11),
    .sweepStop 0 (cmdOf 11), .read 0 { cmdOf 1 with form := 8 }, .read 0 { cmdOf 1 with atS := 2 ^ 36 }, .transactionOpen 0 (2 ^ 36) 0,
    .respWaitExpiry 0 0 (2 ^ 21), .transactionDeadline 0 (2 ^ 36) 0, .tariffCut 0 (2 ^ 36), .tariffSwitch 0 (2 ^ 36), .arming 0 64,
    .roundStart 0 0 256, .reportWindowEnd 0 64 0, .actCutoff 0 64, .confirmQuery 0 64 0, .noConfirm 0 0 (2 ^ 21), .campaignDeadline 0 64,
    .zoneReference 0 4096 0, .balWaitExpiry 0 0 (2 ^ 36)] = true := by decide

theorem test_wf_controls_and_writes : illFormed [.metroReset 0 (ctl9 1), .timeStep 0 (ctl9 2), .timeSet 0 (ctl9 1), .leap 0 (ctl9 1), .swap 0 (ctl9 4),
    .warmRestart 0 (ctl9 6), .warmRestart 0 ⟨1, 4, 5, 1, false⟩, .warmRestartFirmware 0 (ctl9 4), .warmRestartLegal 0 (ctl9 4),
    .timeStep 0 ⟨1, 1, 5, 2 ^ 72, false⟩, .membershipWrite 0 (writeOf 0x03 0), .metrologyWrite 0 (writeOf 0x05 0), .billReq 0 (writeOf 0x09 0),
    .objWrite 0 (writeOf 0x03 0), .objWrite 0 (writeOf 256 0), .recordWrite 0 (writeOf 0x05 0), .configCheck 0 (writeOf 0x05 0),
    .configInstall 0 (writeOf 0x05 0), .configClear 0 (writeOf 0x05 0), .fwApply 0 (writeOf 0x05 0), .fwClear 0 (writeOf 0x05 0),
    .fwAbort 0 (writeOf 0x05 0), .objRead 0 ⟨1, 5, 256, 0, 1⟩, .objRead 0 ⟨1, 5, 0, 0, 8192⟩, .eventRead 0 1 5 0 512] = true := by decide +kernel

theorem test_wf_time_uplink_pair : illFormed [.announce 0 2 0 (foreignOf 0) none none, .announce 0 0 0 (foreignOf (2 ^ 64)) none none, .sync 0 0 256 0 none,
    .sync 0 0 0 65536 none, .followUp 0 2 0 0 0, .ptpDelayReq 0 2, .ptpDelayResp 0 2 0 0 0, .ptpDelayReqReceived 0 0 0 0 (2 ^ 64) 0, .syncSend 0 2,
    .announceSend 0 2, .announceReceiptTimeout 0 2, .beacon 0 32 true, .outageRtcUpdate 0 (2 ^ 48) 0, .tsqExpired 0 0 4096, .mirrorRead 0 (2 ^ 20),
    .portLinkUp 0 2, .portLinkDown 0 2, .handshakeDone 0 4 ⟨[], 0, (0, false)⟩, .handshakeTimeout 0 4 true, .sessionTimeout 0 4, .sessionBackoffEnd 0 4, .keyUpdate 0 4,
    .fatalAlert 0 4, .cxpSegment 0 ⟨2, 0, false, [], []⟩, .cxpSegment 0 ⟨0, 3, false, [], []⟩, .cxpSegment 0 ⟨0, 2, false, [], [blockOf 4 0]⟩, .reasmTo 0 2 0, .ledgerAck 0 2 0 0 0, .ledgerAck 0 0 0 0 (2 ^ 72),
    .blockReq 0 0 (2 ^ 36) 0, .blockResend 0 (2 ^ 36), .lease 0 0 (2 ^ 36) true false, .pairHb 0 3 1 true 0 0 false, .pairHb 0 2 3 true 0 0 false,
    .ckptShip 0 (partOf 64 0), .ckptShip 0 (partOf 0 (2 ^ 18)), .pairBlockLock 0 [blockOf 4 0], .pairBlockLockLost 0 [blockOf 4 0], .arpRequest 0 2 0, .echoRequest 0 2 []] = true := by decide

theorem test_wf_store_power_local : illFormed [.scrub 0 0 0 64 none [] [], .dieLost 0 64, .pageProgramDone 0 64 0 true, .pageProgramDone 0 0 256 true, .discardDone 0 (some (2 ^ 21)),
    .discardTimeout 0 (some (2 ^ 21)) false, .comparatorCrossing 0 9 true, .bandFiltered 0 8 0, .tamper 0 8, .domainReady 0 56, .wakeFail 0 56,
    .domainIdle 0 56, .closeDone 0 56, .switchDone 0 56, .coldStart 0 (startOf 64), .displayCommit 0 (2 ^ 36) 0 [] 0,
    .displayCommit 0 0 16 [] 0, .uartRequest 0 4 [] false, .uartGap 0 4] = true := by decide

end Sys2Proof.Tests
end

/-!
What keyed lists answer after a write, and counter fields: what counting does to the field it names and to every other (spec 00, R18).
-/

namespace Sys2Proof

variable {α : Type}

@[simp] theorem NMap.look_put_same (m : NMap α) (k : Nat) (v d : α) : NMap.look (NMap.put m k v) k d = v := by
  simp only [NMap.look, NMap.find_put_same, Option.getD_some]

theorem NMap.look_put_other (m : NMap α) (k l : Nat) (v d : α) (h : l ≠ k) :
    NMap.look (NMap.put m k v) l d = NMap.look m l d := by
  simp only [NMap.look, NMap.find_put_other m k l v h]

namespace Machine

/-- The key packs the low bit under the address, and no word has a bit 36 or above. -/
theorem Fld.key_inj {f f' : Fld} (hlo : f.lo < 36) (hlo' : f'.lo < 36) :
    f'.key = f.key ↔ f'.addr = f.addr ∧ f'.lo = f.lo := by
  simp only [Fld.key]
  omega

/-- Counting adds and saturates (R18). -/
theorem Dev.ctr_countN_same (d : Dev) (f : Fld) (n : Nat) : (d.countN f n).ctr f = min (d.ctr f + n) f.top :=
  NMap.look_put_same d.ctrs f.key _ 0

theorem Dev.ctr_countN_of_top {d : Dev} {f : Fld} (n : Nat) (h : d.ctr f = f.top) : (d.countN f n).ctr f = f.top := by
  rw [Dev.ctr_countN_same, h]
  exact Nat.min_eq_right (Nat.le_add_right f.top n)

theorem Dev.ctr_countN_of_key_ne (d : Dev) {f f' : Fld} (n : Nat) (h : f'.key ≠ f.key) :
    (d.countN f n).ctr f' = d.ctr f' :=
  NMap.look_put_other d.ctrs f.key f'.key _ 0 h

theorem Dev.countN_eq_with_ctrs (d : Dev) (f : Fld) (n : Nat) : d.countN f n = { d with ctrs := (d.countN f n).ctrs } := rfl

/-- Settles O7: a count writes one key of the counter map, held at the field's all-ones value, and fields with another
address or low bit have another key. -/
theorem countersStopAtAllOnes : Obligations.CountersStopAtAllOnes := by
  intro d f n
  refine ⟨d.ctr_countN_same f n, Dev.ctr_countN_of_top n, ?_, d.countN_eq_with_ctrs f n⟩
  intro f' hdiff hlo hlo'
  have hkey : f'.key ≠ f.key := fun he =>
    have ⟨haddr, hlow⟩ := (Fld.key_inj hlo hlo').mp he
    hdiff.elim (· haddr) (· hlow)
  exact d.ctr_countN_of_key_ne n hkey

end Machine

end Sys2Proof

/-!
Class queues: what their keyed places answer after a write, where a placed packet comes to stand, what a fill moves, and what a
consumer takes (spec 02, R53 and R54).
-/

namespace Sys2Proof.Machine

@[simp] theorem Dev.queue_setQueue_same (d : Dev) (g c : Nat) (q : CQueue) : (d.setQueue g c q).queue g c = q :=
  NMap.look_put_same d.q.q (g * 5 + c) q CQueue.empty

theorem Dev.queue_setQueue_other (d : Dev) {g c g' c' : Nat} (q : CQueue) (h : g' * 5 + c' ≠ g * 5 + c) :
    (d.setQueue g c q).queue g' c' = d.queue g' c' :=
  NMap.look_put_other d.q.q (g * 5 + c) (g' * 5 + c') q CQueue.empty h

@[simp] theorem Dev.queue_count (d : Dev) (f : Fld) (g c : Nat) : (d.count f).queue g c = d.queue g c := rfl

@[simp] theorem Dev.queue_notePages (d : Dev) (k g c : Nat) : (d.notePages k).queue g c = d.queue g c := by
  unfold Dev.notePages
  split
  · rfl
  · rfl

/-- The spilled packet stands last in the chain, and so last of all that is visible (R53). -/
theorem Dev.visible_spill_same (d : Dev) (g c : Nat) (p : Packet) :
    ((d.spill g c p).queue g c).visible = (d.queue g c).visible ++ [p] := by
  simp [Dev.spill, CQueue.visible]

theorem Dev.queue_spill_other (d : Dev) {g c g' c' : Nat} (p : Packet) (h : g' * 5 + c' ≠ g * 5 + c) :
    (d.spill g c p).queue g' c' = d.queue g' c' := by
  simp [Dev.spill, Dev.queue_setQueue_other _ _ h]

/-- A placed packet was spilled, or the chain was empty and it went to the ring's end; either way QSEQ has moved on. -/
theorem Dev.place_cases {d d' : Dev} {g c : Nat} {p : Packet} (h : d.place g c p = some d') :
    let q := d.queue g c
    let p' : Packet := { p with qseq := q.qseq }
    let d1 := d.setQueue g c { q with qseq := (q.qseq + 1) % 65536 }
    d' = d1.spill g c p' ∨
      q.chain = [] ∧ d' = d1.setQueue g c { q with qseq := (q.qseq + 1) % 65536, ring := q.ring ++ [p'] } := by
  unfold Dev.place at h
  simp only [Dev.queue_setQueue_same] at h
  split at h
  next =>
    obtain ⟨-, hd⟩ := Option.ite_none_right_eq_some.mp h
    exact .inl (Option.some.inj hd).symm
  next hchain =>
    split at h
    next => exact .inl (Option.some.inj h).symm
    next =>
      obtain ⟨-, hd⟩ := Option.ite_none_right_eq_some.mp h
      exact .inr ⟨by simpa using hchain, (Option.some.inj hd).symm⟩

theorem Dev.visible_place_same {d d' : Dev} {g c : Nat} {p : Packet} (h : d.place g c p = some d') :
    (d'.queue g c).visible = (d.queue g c).visible ++ [{ p with qseq := (d.queue g c).qseq }] := by
  obtain rfl | ⟨hchain, rfl⟩ := Dev.place_cases h
  · rw [Dev.visible_spill_same, Dev.queue_setQueue_same]
    rfl
  · simp [CQueue.visible, hchain]

theorem Dev.queue_place_other {d d' : Dev} {g c g' c' : Nat} {p : Packet} (h : d.place g c p = some d')
    (hne : g' * 5 + c' ≠ g * 5 + c) : d'.queue g' c' = d.queue g' c' := by
  obtain rfl | ⟨-, rfl⟩ := Dev.place_cases h
  · rw [Dev.queue_spill_other _ _ hne, Dev.queue_setQueue_other _ _ hne]
  · rw [Dev.queue_setQueue_other _ _ hne, Dev.queue_setQueue_other _ _ hne]

/-- A fill cuts the chain in two: what goes to the ring, then what stays (R53). -/
theorem fillRing_append (depth used : Nat) (l : List (Nat × Packet)) :
    (fillRing depth used l).1 ++ (fillRing depth used l).2.map (·.2) = l.map (·.2) := by
  induction l generalizing used with
  | nil => rfl
  | cons e r ih =>
    unfold fillRing
    split
    · exact congrArg (e.2 :: ·) (ih _)
    · rfl

/-- Every number below the one at which a range is cut stands before the cut. -/
theorem lt_and_mem_of_range_eq_append_cons {n c : Nat} {l₁ l₂ : List Nat} (h : List.range n = l₁ ++ c :: l₂) :
    c < n ∧ ∀ c', c' < c → c' ∈ l₁ := by
  rw [List.range_eq_range'] at h
  obtain ⟨k, -, rfl, htail⟩ := List.range'_eq_append_iff.mp h
  obtain ⟨rfl, hk, -⟩ := List.range'_eq_cons_iff.mp htail.symm
  refine ⟨by omega, fun c' hlt => ?_⟩
  simpa using hlt

/-- The packet taken headed the ring of the first class that had one there (R27, R54). -/
theorem Dev.takePacket_cases {d d' : Dev} {g : Nat} {p : Packet} (h : d.takePacket g = some (p, d')) :
    ∃ c r, c < 5 ∧ (d.queue g c).ring = p :: r ∧ d' = (d.setQueue g c { d.queue g c with ring := r }).settle g c ∧
      ∀ c', c' < c → (d.queue g c').ring = [] := by
  obtain ⟨l₁, c, l₂, hrange, htake, hbefore⟩ := List.findSome?_eq_some_iff.mp h
  obtain ⟨hc, hmem⟩ := lt_and_mem_of_range_eq_append_cons hrange
  split at htake
  next => cases htake
  next q r hring =>
    obtain ⟨rfl, rfl⟩ := Prod.mk.inj (Option.some.inj htake)
    refine ⟨c, r, hc, hring, rfl, fun c' hlt => ?_⟩
    have hnone := hbefore c' (hmem c' hlt)
    split at hnone
    next hempty => exact hempty
    next => cases hnone

theorem CQueue.visible_of_ring_cons {q : CQueue} {p : Packet} {r : List Packet} (h : q.ring = p :: r) :
    q.visible = p :: (r ++ q.chain.map (·.2)) := by
  rw [CQueue.visible, h, List.cons_append]

/-- Settles O6: placing appends whether it spills or not, filling splits the chain in order, and taking starts at the front of the
first ring that holds a packet. -/
theorem classQueuesKeepTheirOrder : Obligations.ClassQueuesKeepTheirOrder := by
  refine ⟨fun d d' g c p h => ⟨Dev.visible_place_same h, fun g' c' => Dev.queue_place_other h⟩, fillRing_append, ?_⟩
  intro d d' g p h
  obtain ⟨c, r, hc, hring, -, hhigher⟩ := Dev.takePacket_cases h
  exact ⟨c, hc, _, CQueue.visible_of_ring_cons hring, hhigher⟩

end Sys2Proof.Machine

/-!
The element an order ranks first, the order of four keys, and the route a record adopts (spec 05, R149).
-/

namespace Sys2Proof.Machine

section BestBy

variable {α : Type} {lt : α → α → Bool}

theorem bestBy_cons_of_none {a : α} {r : List α} (h : bestBy lt r = none) : bestBy lt (a :: r) = some a := by
  rw [bestBy, h]

theorem bestBy_cons_of_some {a b : α} {r : List α} (h : bestBy lt r = some b) :
    bestBy lt (a :: r) = if lt b a then some b else some a := by
  rw [bestBy, h]

theorem bestBy_eq_none_iff {l : List α} : bestBy lt l = none ↔ l = [] := by
  refine ⟨fun h => ?_, fun h => h ▸ rfl⟩
  cases l with
  | nil => rfl
  | cons a r =>
    cases hr : bestBy lt r with
    | none => cases (bestBy_cons_of_none hr).symm.trans h
    | some b =>
      rw [bestBy_cons_of_some hr] at h
      split at h <;> cases h

/-- Either the tail's best ranks before the head and is the best, or the head is and the tail's best, if any, does not rank before it. -/
theorem bestBy_cons_cases {a m : α} {r : List α} (h : bestBy lt (a :: r) = some m) :
    (bestBy lt r = some m ∧ lt m a = true) ∨ (m = a ∧ ∀ b, bestBy lt r = some b → lt b a = false) := by
  cases hr : bestBy lt r with
  | none => exact .inr ⟨(Option.some.inj ((bestBy_cons_of_none hr).symm.trans h)).symm, nofun⟩
  | some b =>
    rw [bestBy_cons_of_some hr] at h
    split at h
    next hlt => cases h; exact .inl ⟨rfl, hlt⟩
    next hlt => cases h; exact .inr ⟨rfl, fun _ hb => Option.some.inj hb ▸ eq_false_of_ne_true hlt⟩

theorem mem_of_bestBy {l : List α} {m : α} (h : bestBy lt l = some m) : m ∈ l := by
  induction l with
  | nil => cases h
  | cons a r ih =>
    obtain ⟨hr, -⟩ | ⟨rfl, -⟩ := bestBy_cons_cases h
    · exact List.mem_cons_of_mem a (ih hr)
    · exact List.mem_cons_self

/-- Under an asymmetric order whose negation is transitive, nothing ranks before the best element. -/
theorem bestBy_least {l : List α} {m : α} (h : bestBy lt l = some m) (asymm : ∀ a b, lt a b = true → lt b a = false)
    (trans : ∀ a b c, lt b a = false → lt c b = false → lt c a = false) : ∀ c ∈ l, lt c m = false := by
  have irrefl (a : α) : lt a a = false := eq_false_of_ne_true fun ha =>
    nomatch (asymm a a ha).symm.trans ha
  induction l generalizing m with
  | nil => exact nofun
  | cons a r ih =>
    refine List.forall_mem_cons.mpr ?_
    obtain ⟨hr, hlt⟩ | ⟨rfl, hle⟩ := bestBy_cons_cases h
    · exact ⟨asymm m a hlt, ih hr⟩
    · refine ⟨irrefl m, fun c hc => ?_⟩
      cases hr : bestBy lt r with
      | none => rw [bestBy_eq_none_iff.mp hr] at hc; cases hc
      | some b => exact trans m b c (hle b hr) (ih hr c hc)

end BestBy

/-- Not before is the lexicographic order the other way round. -/
theorem before_eq_false_iff (a b : Nat × Nat × Nat × Nat) :
    before b a = false ↔ a.1 < b.1 ∨ a.1 = b.1 ∧ (a.2.1 < b.2.1 ∨ a.2.1 = b.2.1 ∧
      (a.2.2.1 < b.2.2.1 ∨ a.2.2.1 = b.2.2.1 ∧ a.2.2.2 ≤ b.2.2.2)) := by
  simp only [before, Bool.or_eq_false_iff, Bool.and_eq_false_imp, decide_eq_false_iff_not, beq_iff_eq]
  omega

theorem before_asymm (a b : Nat × Nat × Nat × Nat) (h : before a b = true) : before b a = false := by
  have hab : ¬ before a b = false := ne_false_of_eq_true h
  rw [before_eq_false_iff] at hab ⊢
  omega

theorem before_false_trans (a b c : Nat × Nat × Nat × Nat) (hab : before b a = false) (hbc : before c b = false) :
    before c a = false := by
  rw [before_eq_false_iff] at hab hbc ⊢
  omega

/-- A candidate no other is adopted before costs less than each, or as much with no more hops. -/
theorem cost_hops_le_of_adoptFirst_eq_false {slot : Nat} {a c : Route} (h : adoptFirst slot c a = false) :
    a.cost < c.cost ∨ (a.cost = c.cost ∧ a.hops ≤ c.hops) :=
  ((before_eq_false_iff _ _).mp h).imp_right (And.imp_right fun hhops => hhops.elim Nat.le_of_lt fun he => Nat.le_of_eq he.1)

theorem adoptFirst_best_least {slot : Nat} {l : List Route} {m : Route} (h : bestBy (adoptFirst slot) l = some m) :
    ∀ c ∈ l, adoptFirst slot c m = false :=
  bestBy_least h (fun _ _ => before_asymm _ _) (fun _ _ _ => before_false_trans _ _ _)

theorem MeterRec.route_adopt (r : MeterRec) (slot now : Nat) :
    (r.adopt slot now).route = (bestBy (adoptFirst slot) r.cands).map fun c => { c with time := now % 2 ^ 24 } := rfl

/-- Settles O19: the adopted route is the candidate ranked first, and ranking first bounds its cost and, at equal cost, its hops. -/
theorem adoptedRouteIsTheBest : Obligations.AdoptedRouteIsTheBest := by
  intro r slot now
  rw [MeterRec.route_adopt]
  refine ⟨Option.map_eq_none_iff.trans bestBy_eq_none_iff, fun a ha => ?_⟩
  obtain ⟨best, hbest, rfl⟩ := Option.map_eq_some_iff.mp ha
  exact ⟨⟨best, mem_of_bestBy hbest, rfl⟩,
    fun c hc => cost_hops_le_of_adoptFirst_eq_false (adoptFirst_best_least hbest c hc)⟩

end Sys2Proof.Machine

/-!
Keyed lists whose keys rise, and the meter directory: a displacement exchanges the entry carried for the one it puts out, so insertion
adds its entry to those there were, and of a sound set a lookup answers exactly what the set holds (spec 06, R158–R160).
-/

namespace Sys2Proof

variable {α : Type}

/-- The keys rise strictly. -/
def NMap.Rising (m : NMap α) : Prop := (m.map (·.1)).Pairwise (· < ·)

theorem NMap.rising_cons {p : Nat × α} {m : NMap α} :
    NMap.Rising (p :: m) ↔ (∀ q ∈ m, p.1 < q.1) ∧ NMap.Rising m := by
  simp only [NMap.Rising, List.map_cons, List.pairwise_cons, List.forall_mem_map]

theorem NMap.mem_of_find {m : NMap α} {k : Nat} {v : α} (h : NMap.find m k = some v) : (k, v) ∈ m := by
  induction m with
  | nil => cases h
  | cons p r ih =>
    unfold NMap.find at h
    split at h
    next hk => cases h; exact hk ▸ List.mem_cons_self
    next => exact List.mem_cons_of_mem p (ih h)

theorem NMap.find_of_mem {m : NMap α} {k : Nat} {v : α} (hr : NMap.Rising m) (h : (k, v) ∈ m) : NMap.find m k = some v := by
  induction m with
  | nil => cases h
  | cons p r ih =>
    obtain ⟨hlt, hr⟩ := NMap.rising_cons.mp hr
    unfold NMap.find
    cases h with
    | head => exact if_pos rfl
    | tail _ h => rw [if_neg (Nat.ne_of_lt (hlt _ h))]; exact ih hr h

theorem NMap.mem_put {m : NMap α} {k : Nat} {v : α} {p : Nat × α} (h : p ∈ NMap.put m k v) : p = (k, v) ∨ p ∈ m := by
  induction m with
  | nil => exact .inl (List.mem_singleton.mp h)
  | cons q r ih =>
    unfold NMap.put at h
    split at h
    · exact List.mem_cons.mp h
    · split at h
      · exact (List.mem_cons.mp h).imp_right (List.mem_cons_of_mem q)
      · obtain rfl | h := List.mem_cons.mp h
        · exact .inr List.mem_cons_self
        · exact (ih h).imp_right (List.mem_cons_of_mem q)

theorem NMap.put_rising {m : NMap α} (k : Nat) (v : α) (hr : NMap.Rising m) : NMap.Rising (NMap.put m k v) := by
  induction m with
  | nil => exact List.pairwise_singleton _ _
  | cons q r ih =>
    obtain ⟨hlt, hr'⟩ := NMap.rising_cons.mp hr
    unfold NMap.put
    split
    next hk => exact NMap.rising_cons.mpr ⟨List.forall_mem_cons.mpr ⟨hk, fun p hp => Nat.lt_trans hk (hlt p hp)⟩, hr⟩
    next hle =>
      split
      next hk => exact NMap.rising_cons.mpr ⟨hk ▸ hlt, hr'⟩
      next hne =>
        refine NMap.rising_cons.mpr ⟨fun p hp => ?_, ih hr'⟩
        obtain rfl | hp := NMap.mem_put hp
        · exact Nat.lt_of_le_of_ne (Nat.le_of_not_lt hle) (Ne.symm hne)
        · exact hlt p hp

theorem NMap.keep_rising {m : NMap α} (p : Nat → α → Bool) (hr : NMap.Rising m) : NMap.Rising (NMap.keep m p) :=
  List.Pairwise.sublist (List.filter_sublist.map _) hr

/-- A write at a free key adds an entry. -/
theorem NMap.put_perm_of_find_none {m : NMap α} {k : Nat} (v : α) (h : NMap.find m k = none) :
    (NMap.put m k v).Perm ((k, v) :: m) := by
  induction m with
  | nil => exact .refl _
  | cons q r ih =>
    unfold NMap.find at h
    split at h
    next => cases h
    next hne =>
      unfold NMap.put
      split
      · exact .refl _
      · rw [if_neg (Ne.symm hne)]
        exact ((ih h).cons q).trans (.swap (k, v) q r)

/-- A write at a key held exchanges its entry. -/
theorem NMap.put_perm_of_find_some {m : NMap α} {k : Nat} {w : α} (v : α) (hr : NMap.Rising m) (h : NMap.find m k = some w) :
    ((k, w) :: NMap.put m k v).Perm ((k, v) :: m) := by
  induction m with
  | nil => cases h
  | cons q r ih =>
    obtain ⟨hlt, hr⟩ := NMap.rising_cons.mp hr
    unfold NMap.find at h
    split at h
    next hk =>
      cases h; subst hk
      unfold NMap.put
      rw [if_neg (Nat.lt_irrefl _), if_pos rfl]
      exact .swap _ _ r
    next hne =>
      unfold NMap.put
      rw [if_neg (Nat.lt_asymm (hlt _ (NMap.mem_of_find h))), if_neg (Ne.symm hne)]
      exact ((List.Perm.swap q (k, w) _).trans ((ih hr h).cons q)).trans (.swap (k, v) q r)

namespace Machine

/-- Each table entry stands at a position of its EUI, and the keys rise: what holds of a set while an entry is carried. -/
structure DirSet.Placed (s : DirSet) : Prop where
  posn   : ∀ p ∈ s.tab, ∃ i, i < 4 ∧ p.1 = s.key i p.2.1
  rising : NMap.Rising s.tab

theorem DirSet.sound_iff {s : DirSet} : s.Sound ↔ s.Placed ∧ (s.entries.map (·.1)).Nodup ∧ s.stash.length ≤ 64 :=
  ⟨fun ⟨hp, hr, hn, hl⟩ => ⟨⟨hp, hr⟩, hn, hl⟩, fun ⟨⟨hp, hr⟩, hn, hl⟩ => ⟨hp, hr, hn, hl⟩⟩

/-! What a lookup answers. -/

theorem DirSet.mem_entries {s : DirSet} {x : Eui × Nat} : x ∈ s.entries ↔ (∃ k, (k, x) ∈ s.tab) ∨ x ∈ s.stash := by
  simp [DirSet.entries]

theorem DirSet.mem_entries_of_find {s : DirSet} {e : Eui} {v : Nat} (h : s.find e = some v) : (e, v) ∈ s.entries := by
  unfold DirSet.find at h
  split at h
  next htab =>
    cases h
    obtain ⟨i, -, hi⟩ := List.exists_of_findSome?_eq_some htab
    obtain ⟨y, hy, he⟩ := Option.bind_eq_some_iff.mp hi
    obtain ⟨rfl, rfl⟩ : y.1 = e ∧ y.2 = v := by simpa using he
    exact DirSet.mem_entries.mpr (.inl ⟨_, NMap.mem_of_find hy⟩)
  next =>
    obtain ⟨y, hy, he⟩ := List.exists_of_findSome?_eq_some h
    obtain ⟨rfl, rfl⟩ : y.1 = e ∧ y.2 = v := by simpa using he
    exact DirSet.mem_entries.mpr (.inr hy)

/-- Where every entry is placed, an EUI that is not found is not held. -/
theorem DirSet.not_mem_entries_of_find_none {s : DirSet} (hs : s.Placed) {e : Eui} (h : s.find e = none) (v : Nat) :
    (e, v) ∉ s.entries := by
  unfold DirSet.find at h
  split at h
  next => cases h
  next htab =>
    intro hmem
    obtain ⟨k, hk⟩ | hstash := DirSet.mem_entries.mp hmem
    · obtain ⟨i, hi, hpos⟩ := hs.posn _ hk
      obtain rfl : k = s.key i e := hpos
      have hnone := List.findSome?_eq_none_iff.mp htab i (List.mem_range.mpr hi)
      rw [NMap.find_of_mem hs.rising hk] at hnone
      simp at hnone
    · simpa using List.findSome?_eq_none_iff.mp h _ hstash

/-- Where no EUI stands twice, each stands with one slot. -/
theorem value_unique_of_nodup {l : List (Eui × Nat)} (hn : (l.map (·.1)).Nodup) {e : Eui} {v w : Nat} (hv : (e, v) ∈ l)
    (hw : (e, w) ∈ l) : v = w := by
  induction l with
  | nil => cases hv
  | cons x r ih =>
    obtain ⟨hx, hn⟩ := List.nodup_cons.mp hn
    have hout {u : Nat} (hu : (x.1, u) ∈ r) : False := hx (List.mem_map_of_mem (f := (·.1)) hu)
    cases hv with
    | head =>
      cases hw with
      | head => rfl
      | tail _ hw => exact (hout hw).elim
    | tail _ hv =>
      cases hw with
      | head => exact (hout hv).elim
      | tail _ hw => exact ih hn hv hw

theorem DirSet.Sound.find_eq_some_iff {s : DirSet} (hs : s.Sound) {e : Eui} {v : Nat} :
    s.find e = some v ↔ (e, v) ∈ s.entries := by
  obtain ⟨hp, hnodup, -⟩ := DirSet.sound_iff.mp hs
  refine ⟨DirSet.mem_entries_of_find, fun hmem => ?_⟩
  cases hf : s.find e with
  | none => exact absurd hmem (DirSet.not_mem_entries_of_find_none hp hf v)
  | some w =>
    exact congrArg some (value_unique_of_nodup hnodup (DirSet.mem_entries_of_find hf) hmem)

theorem DirSet.Sound.find_eq_none_iff {s : DirSet} (hs : s.Sound) {e : Eui} : s.find e = none ↔ e ∉ s.entries.map (·.1) := by
  simp [Option.eq_none_iff_forall_ne_some, hs.find_eq_some_iff]

/-- Two sound sets that hold the same of an EUI answer the same of it. -/
theorem DirSet.Sound.find_congr {s s' : DirSet} (hs : s.Sound) (hs' : s'.Sound) {e : Eui}
    (h : ∀ v, (e, v) ∈ s'.entries ↔ (e, v) ∈ s.entries) : s'.find e = s.find e :=
  Option.ext fun v => (hs'.find_eq_some_iff.trans (h v)).trans hs.find_eq_some_iff.symm

/-! Insertion. -/

/-- The set with an entry at its position in table `i`. -/
def DirSet.putAt (s : DirSet) (i : Nat) (x : Eui × Nat) : DirSet := { s with tab := NMap.put s.tab (s.key i x.1) x }

theorem DirSet.Placed.putAt {s : DirSet} (hs : s.Placed) {i : Nat} (hi : i < 4) (x : Eui × Nat) : (s.putAt i x).Placed := by
  refine ⟨fun p hp => ?_, NMap.put_rising _ _ hs.rising⟩
  obtain rfl | hp := NMap.mem_put hp
  · exact ⟨i, hi, rfl⟩
  · exact hs.posn p hp

/-- `s'` is `s` with `x` taken in and `left` carried out of its tables: nothing else has come or gone. -/
structure DirSet.Moved (s : DirSet) (x : Eui × Nat) (s' : DirSet) (left : Option (Eui × Nat)) : Prop where
  placed : s'.Placed
  seeds  : s'.seeds = s.seeds
  log2   : s'.log2 = s.log2
  stash  : s'.stash = s.stash
  perm   : (left.toList ++ s'.tab.map (·.2)).Perm (x :: s.tab.map (·.2))

theorem DirSet.Placed.moved_self {s : DirSet} (hs : s.Placed) (x : Eui × Nat) : s.Moved x s (some x) :=
  ⟨hs, rfl, rfl, rfl, .refl _⟩

theorem DirSet.Moved.trans {s s₁ s₂ : DirSet} {x y : Eui × Nat} {left : Option (Eui × Nat)}
    (h₁ : s.Moved x s₁ (some y)) (h₂ : s₁.Moved y s₂ left) : s.Moved x s₂ left :=
  ⟨h₂.placed, h₂.seeds.trans h₁.seeds, h₂.log2.trans h₁.log2, h₂.stash.trans h₁.stash, h₂.perm.trans h₁.perm⟩

theorem DirSet.Placed.moved_putAt_free {s : DirSet} (hs : s.Placed) {i : Nat} (hi : i < 4) {x : Eui × Nat}
    (h : NMap.find s.tab (s.key i x.1) = none) : s.Moved x (s.putAt i x) none :=
  ⟨hs.putAt hi x, rfl, rfl, rfl, (NMap.put_perm_of_find_none x h).map Prod.snd⟩

theorem DirSet.Placed.moved_putAt_held {s : DirSet} (hs : s.Placed) {i : Nat} (hi : i < 4) {x y : Eui × Nat}
    (h : NMap.find s.tab (s.key i x.1) = some y) : s.Moved x (s.putAt i x) (some y) :=
  ⟨hs.putAt hi x, rfl, rfl, rfl, (NMap.put_perm_of_find_some x hs.rising h).map Prod.snd⟩

theorem DirSet.Placed.moved_placeFree {s s' : DirSet} (hs : s.Placed) {x : Eui × Nat} (h : s.placeFree x = some s') :
    s.Moved x s' none := by
  obtain ⟨i, hfree, rfl⟩ := Option.map_eq_some_iff.mp h
  exact hs.moved_putAt_free (List.mem_range.mp (List.mem_of_find?_eq_some hfree))
    (Option.isNone_iff_eq_none.mp (List.find?_some (p := fun i => (NMap.find s.tab (s.key i x.1)).isNone) hfree))

theorem DirSet.find_tab_of_placeFree_none {s : DirSet} {x : Eui × Nat} (h : s.placeFree x = none) {i : Nat} (hi : i < 4) :
    ∃ y, NMap.find s.tab (s.key i x.1) = some y := by
  have hheld := List.find?_eq_none.mp (Option.map_eq_none_iff.mp h) i (List.mem_range.mpr hi)
  simpa [Option.isNone_iff_eq_none, Option.ne_none_iff_exists'] using hheld

/-- The table that a draw picks among some of the four is one of the four. -/
theorem getD_filter_range_lt (p : Nat → Bool) (j : Nat) : ((List.range 4).filter p).getD j 0 < 4 := by
  rw [List.getD_eq_getElem?_getD]
  cases hj : ((List.range 4).filter p)[j]? with
  | none => decide
  | some i => exact List.mem_range.mp (List.mem_filter.mp (List.mem_of_getElem? hj)).1

/-- Whatever is drawn, displacements end with the entry taken in and what was put out last, if anything, left over (R160). -/
theorem DirSet.Placed.moved_displace {s : DirSet} (hs : s.Placed) (x : Eui × Nat) (was : Option Nat) (n fuel : Nat) :
    s.Moved x (s.displace x was n fuel).1 (s.displace x was n fuel).2.1 := by
  induction fuel generalizing s x was n with
  | zero =>
    unfold DirSet.displace
    split
    next hfree => exact hs.moved_placeFree hfree
    next => exact hs.moved_self x
  | succ fuel ih =>
    unfold DirSet.displace
    split
    next hfree => exact hs.moved_placeFree hfree
    next hfull =>
      extract_lets others i y
      have hi : i < 4 := getD_filter_range_lt _ _
      obtain ⟨z, hz⟩ := DirSet.find_tab_of_placeFree_none hfull hi
      have hy : y = z := by simp only [y, NMap.look, hz, Option.getD_some]
      have hmoved := hs.moved_putAt_held hi (hy ▸ hz)
      exact hmoved.trans (ih hmoved.placed y (some i) (n + 1))

/-- An insertion that is not refused took the entry in, or put one displaced into a stash that had room (R160). -/
theorem DirSet.Placed.insert_cases {s s' : DirSet} (hs : s.Placed) {x : Eui × Nat} {n m : Nat} (h : s.insert x n = some (s', m)) :
    s.Moved x s' none ∨
      ∃ s₁ y, s.Moved x s₁ (some y) ∧ s₁.stash.length < 64 ∧ s' = { s₁ with stash := s₁.stash ++ [y] } := by
  unfold DirSet.insert at h
  split at h
  next hfree =>
    cases h
    exact .inl (hs.moved_placeFree hfree)
  next =>
    have hmoved := hs.moved_displace x none n 256
    split at h
    next hd =>
      cases h
      rw [hd] at hmoved
      exact .inl hmoved
    next s₁ y k hd =>
      obtain ⟨hroom, hs'⟩ := Option.ite_none_right_eq_some.mp h
      cases hs'
      rw [hd] at hmoved
      exact .inr ⟨s₁, y, hmoved, hroom, rfl⟩

/-- What insertion keeps, and that it adds its entry to those there were. -/
theorem DirSet.Placed.insert {s s' : DirSet} (hs : s.Placed) (hl : s.stash.length ≤ 64) {x : Eui × Nat} {n m : Nat}
    (h : s.insert x n = some (s', m)) :
    s'.Placed ∧ s'.seeds = s.seeds ∧ s'.log2 = s.log2 ∧ s'.stash.length ≤ 64 ∧ s'.entries.Perm (x :: s.entries) := by
  obtain hmoved | ⟨s₁, y, hmoved, hroom, rfl⟩ := hs.insert_cases h
  · refine ⟨hmoved.placed, hmoved.seeds, hmoved.log2, hmoved.stash ▸ hl, ?_⟩
    have hperm := hmoved.perm.append_right s.stash
    simpa [DirSet.entries, hmoved.stash] using hperm
  · refine ⟨⟨hmoved.placed.posn, hmoved.placed.rising⟩, hmoved.seeds, hmoved.log2, ?_, ?_⟩
    · rw [List.length_append]
      exact hroom
    · have hperm := hmoved.perm.append_right s.stash
      calc s₁.tab.map (·.2) ++ (s₁.stash ++ [y])
        _ = (s₁.tab.map (·.2) ++ s.stash) ++ [y] := by rw [hmoved.stash, List.append_assoc]
        _ |>.Perm (y :: (s₁.tab.map (·.2) ++ s.stash)) := List.perm_append_singleton _ _
        _ |>.Perm (x :: s.entries) := hperm

theorem DirSet.count_eq_length_entries (s : DirSet) : s.count = s.entries.length := by
  simp [DirSet.count, DirSet.entries]

theorem DirSet.Sound.insert {s s' : DirSet} (hs : s.Sound) {x : Eui × Nat} {n m : Nat} (hnew : s.find x.1 = none)
    (h : s.insert x n = some (s', m)) :
    s'.Sound ∧ s'.seeds = s.seeds ∧ s'.log2 = s.log2 ∧ s'.entries.Perm (x :: s.entries) := by
  obtain ⟨hp, hnodup, hl⟩ := DirSet.sound_iff.mp hs
  obtain ⟨hp', hseeds, hlog2, hl', hperm⟩ := hp.insert hl h
  have hnodup' : ((x :: s.entries).map (·.1)).Nodup := List.nodup_cons.mpr ⟨hs.find_eq_none_iff.mp hnew, hnodup⟩
  exact ⟨DirSet.sound_iff.mpr ⟨hp', (hperm.map _).nodup_iff.mpr hnodup', hl'⟩, hseeds, hlog2, hperm⟩

/-! Removal, and an empty set. -/

theorem DirSet.entries_remove (s : DirSet) (e : Eui) : (s.remove e).entries = s.entries.filter fun x => x.1 != e := by
  simp [DirSet.entries, DirSet.remove, NMap.keep, List.filter_map, Function.comp_def]

theorem DirSet.Placed.remove {s : DirSet} (hs : s.Placed) (e : Eui) : (s.remove e).Placed :=
  ⟨fun p hp => hs.posn p (List.mem_filter.mp hp).1, NMap.keep_rising (fun _ (x : Eui × Nat) => x.1 != e) hs.rising⟩

theorem DirSet.Sound.remove {s : DirSet} (hs : s.Sound) (e : Eui) : (s.remove e).Sound := by
  obtain ⟨hp, hnodup, hl⟩ := DirSet.sound_iff.mp hs
  refine DirSet.sound_iff.mpr ⟨hp.remove e, ?_, Nat.le_trans (List.length_filter_le _ _) hl⟩
  rw [DirSet.entries_remove]
  exact hnodup.sublist (List.filter_sublist.map _)

theorem DirSet.fresh_sound (log2 gen n : Nat) : (DirSet.fresh log2 gen n).Sound :=
  DirSet.sound_iff.mpr ⟨⟨nofun, .nil⟩, .nil, Nat.zero_le 64⟩

/-- Settles O27: insertion permutes the entries with the new one, removal filters them, and a sound set finds exactly what it holds. -/
theorem directoryFindsWhatItInserts : Obligations.DirectoryFindsWhatItInserts := by
  refine ⟨DirSet.fresh_sound, fun s s' x n m hs hnew h => ?_, fun s e hs => ?_⟩
  · obtain ⟨hs', hseeds, hlog2, hperm⟩ := hs.insert hnew h
    refine ⟨hs', hseeds, hlog2, ?_, hs'.find_eq_some_iff.mpr (hperm.mem_iff.mpr List.mem_cons_self), fun e hne => ?_⟩
    · rw [DirSet.count_eq_length_entries, DirSet.count_eq_length_entries, hperm.length_eq, List.length_cons]
    · refine hs.find_congr hs' fun v => hperm.mem_iff.trans (List.mem_cons.trans (or_iff_right fun hx => ?_))
      exact hne (congrArg Prod.fst hx)
  · refine ⟨hs.remove e, (hs.remove e).find_eq_none_iff.mpr ?_, fun e' hne => hs.find_congr (hs.remove e) fun v => ?_⟩
    · simp [DirSet.entries_remove]
    · simp [DirSet.entries_remove, hne]

end Machine

end Sys2Proof

/-!
The commit of an entry: the place it takes in the open block, and the block that it seals (spec 06, R186, R187, R189).
-/

namespace Sys2Proof.Machine

/-- The entries of the open block; none where no block is open. -/
def Dev.openEntries (d : Dev) : List Entry := (d.led.openB.map OpenBlock.entries).getD []

/-- The same with an entry behind them that has taken the next CSN. -/
def Dev.entriesWith (d : Dev) (e : Entry) : List Entry := d.openEntries ++ [{ e with csn := d.led.csn }]

/-- The device once an entry has its CSN and stands last in the open block, before the block is looked at for its seal. -/
def Dev.enter (d : Dev) (e : Entry) : Dev :=
  let d0 := if e.cls == 0 then { d with loc := { d.loc with c0 := some d.clk } } else d
  { d0 with led := { d0.led with
      csn := d.led.csn + 1
      openB := some ⟨d.entriesWith e, (d.led.openB.map OpenBlock.since).getD d.clk⟩ } }

/-- The block that an open block becomes when it is sealed for cause `c` (R187). -/
def Dev.sealedBlock (d : Dev) (o : OpenBlock) (c : Nat) : Block :=
  { bno := d.led.bno, epoch := d.pair.epoch,
    first := (o.entries.head?.map Entry.firstCsn).getD 0, last := (o.entries.getLast?.map Entry.csn).getD 0,
    sealT := d.now, sealBy := c, entries := o.entries, prev := 0, keyId := d.idn.serial, sig := none,
    fw := d.boot.fwVer, sealClk := d.clk, sent := none, resends := 0 }

theorem ite_pair_eq {α β : Type} (p q : Prop) [Decidable p] [Decidable q] (n : α) (a b c : β) :
    (if p then (n, a) else if q then (n, b) else (n, c)) = (n, if p then a else if q then b else c) := by
  split
  · rfl
  · split <;> rfl

theorem Dev.append_eq (d : Dev) (e : Entry) (more : Bool) :
    d.append e more = (d.led.csn,
      if e.cls == 0 && !more then (d.enter e).seal 2
      else if 4096 ≤ (d.entriesWith e).length then (d.enter e).seal 0
      else d.enter e) := by
  unfold Dev.append Dev.enter Dev.entriesWith Dev.openEntries
  cases d.led.openB with
  | none => exact ite_pair_eq ..
  | some o => exact ite_pair_eq ..

theorem Dev.led_enter (d : Dev) (e : Entry) :
    (d.enter e).led = { d.led with
      csn := d.led.csn + 1
      openB := some ⟨d.entriesWith e, (d.led.openB.map OpenBlock.since).getD d.clk⟩ } := by
  unfold Dev.enter
  split <;> rfl

@[simp] theorem Dev.pair_enter (d : Dev) (e : Entry) : (d.enter e).pair = d.pair := by
  unfold Dev.enter
  split <;> rfl

@[simp] theorem Dev.now_enter (d : Dev) (e : Entry) : (d.enter e).now = d.now := by
  unfold Dev.enter
  split <;> rfl

theorem Dev.led_seal_of_open {d : Dev} {o : OpenBlock} (c : Nat) (h : d.led.openB = some o) :
    (d.seal c).led = { d.led with
      openB := none, bno := d.led.bno + 1, blocks := NMap.put d.led.blocks d.led.bno (d.sealedBlock o c),
      signQ := d.led.signQ ++ [d.led.bno] } := by
  unfold Dev.seal
  rw [h]
  rfl

/-- What the seal at an entry's commit leaves: a block that ends with the entry, waits for its signature, and is no longer open. -/
theorem Dev.seal_enter (d : Dev) (e : Entry) (c : Nat) :
    let d' := (d.enter e).seal c
    d'.led.openB = none ∧ d'.led.bno = d.led.bno + 1 ∧ d'.led.signQ = d.led.signQ ++ [d.led.bno] ∧
      ∃ b, NMap.find d'.led.blocks d.led.bno = some b ∧ b.entries = d.entriesWith e ∧ b.sealBy = c ∧
        b.last = d.led.csn ∧ b.epoch = d.pair.epoch ∧ b.bno = d.led.bno ∧ b.sealT = d.now ∧ b.sig = none := by
  intro d'
  have hled := Dev.led_seal_of_open c (congrArg (·.openB) (d.led_enter e))
  simp only [d', hled]
  rw [Dev.led_enter]
  refine ⟨trivial, rfl, rfl, _, NMap.find_put_same .., ?_⟩
  simp [Dev.sealedBlock, Dev.led_enter, Dev.entriesWith]

@[simp] theorem Dev.csn_seal (d : Dev) (c : Nat) : (d.seal c).led.csn = d.led.csn := by
  unfold Dev.seal
  split <;> rfl

@[simp] theorem Dev.recs_seal (d : Dev) (c : Nat) : (d.seal c).led.recs = d.led.recs := by
  unfold Dev.seal
  split <;> rfl

@[simp] theorem Dev.csn_append (d : Dev) (e : Entry) (more : Bool) : (d.append e more).2.led.csn = d.led.csn + 1 := by
  rw [Dev.append_eq]
  dsimp only
  split
  · rw [Dev.csn_seal, Dev.led_enter]
  · split
    · rw [Dev.csn_seal, Dev.led_enter]
    · rw [Dev.led_enter]

@[simp] theorem Dev.recs_append (d : Dev) (e : Entry) (more : Bool) : (d.append e more).2.led.recs = d.led.recs := by
  rw [Dev.append_eq]
  dsimp only
  split
  · rw [Dev.recs_seal, Dev.led_enter]
  · split
    · rw [Dev.recs_seal, Dev.led_enter]
    · rw [Dev.led_enter]

theorem Dev.append_last_of_run {d : Dev} {e : Entry} {more : Bool} (hcls : e.cls = 0) (hmore : more = false) :
    (d.append e more).2 = (d.enter e).seal 2 := by
  simp [Dev.append_eq, hcls, hmore]

/-- With more of its run to come, or of another class than C0, an entry seals the block only as its 4,096th. -/
theorem Dev.append_within_run {d : Dev} {e : Entry} {more : Bool} (hrun : e.cls ≠ 0 ∨ more = true) :
    (d.append e more).2 =
      if 4096 ≤ (d.entriesWith e).length then (d.enter e).seal 0 else d.enter e := by
  have hgo : (e.cls == 0 && !more) = false := by
    obtain hcls | hmore := hrun
    · rw [beq_false_of_ne hcls, Bool.false_and]
    · rw [hmore, Bool.not_true, Bool.and_false]
  rw [Dev.append_eq, hgo]
  rfl

theorem Dev.append_filling {d : Dev} {e : Entry} {more : Bool} (hrun : e.cls ≠ 0 ∨ more = true)
    (hlen : 4096 ≤ (d.entriesWith e).length) : (d.append e more).2 = (d.enter e).seal 0 :=
  (Dev.append_within_run hrun).trans (if_pos hlen)

theorem Dev.append_fitting {d : Dev} {e : Entry} {more : Bool} (hrun : e.cls ≠ 0 ∨ more = true)
    (hlen : (d.entriesWith e).length < 4096) : (d.append e more).2 = d.enter e :=
  (Dev.append_within_run hrun).trans (if_neg (Nat.not_le_of_lt hlen))

/-- Settles O23: an entry enters the open block, and that block is sealed when the entry ends a C0 run or is its 4,096th. -/
theorem entriesFollowOneAnother : Obligations.EntriesFollowOneAnother := by
  intro d e more
  refine ⟨congrArg Prod.fst (d.append_eq e more), d.csn_append e more, d.recs_append e more, fun hcls hmore => ?_,
    fun hrun hlen => ?_, fun hrun hlen => ?_⟩
  · rw [Dev.append_last_of_run hcls hmore]
    exact d.seal_enter e 2
  · rw [Dev.append_filling hrun hlen]
    exact d.seal_enter e 0
  · rw [Dev.append_fitting hrun hlen, Dev.led_enter]
    exact ⟨rfl, rfl, rfl⟩

end Sys2Proof.Machine

/-!
What an acknowledgement of blocks sets going, receipts, freed slots and delivery, and the BLOCK_ACK entry that stands in the open block
after it (spec 06, R184, R191, R192; 12, R341, R342).
-/

namespace Sys2Proof

theorem joinW_hiW_loW {n : Nat} (h : n < 2 ^ 72) : joinW (hiW n) (loW n) = n := by
  simp only [joinW, hiW, loW, BitVec.toNat_ofNat]
  omega

namespace Machine

/-- A projection that does not see what delivery, receipts and freed slots change: the queues and the counters, what is put out, sessions,
commands, the store, and of the ledger the blocks with their delivery, the records, the keys and the slots held. -/
structure SeesNoDelivery {β : Type} (p : Dev → β) : Prop extends SeesNoQueue p where
  out : ∀ d x, p { d with out := x } = p d
  up  : ∀ d x, p { d with up := x } = p d
  cmd : ∀ d x, p { d with cmd := x } = p d
  sto : ∀ d x, p { d with sto := x } = p d
  led : ∀ d bs n rs ks hs, p { d with led := { d.led with blocks := bs, sentB := n, recs := rs, keys := ks, heldS := hs } } = p d

namespace SeesNoDelivery

variable {β : Type} {p : Dev → β}

theorem updRec (h : SeesNoDelivery p) (d : Dev) (slot : Nat) (f : MeterRec → MeterRec) : p (d.updRec slot f) = p d := by
  unfold Dev.updRec
  split
  · exact h.led d _ _ _ _ _
  · rfl

theorem queueJob (h : SeesNoDelivery p) (d : Dev) (j : Job) : p (d.queueJob j) = p d := h.enqueue ..

theorem receipts (h : SeesNoDelivery p) (d : Dev) (bs : List Block) : p (d.receipts bs) = p d := by
  refine foldl_keeps p _ (fun x n => ?_) _ d
  split
  · exact (foldl_keeps p _ (fun y c => h.queueJob y _) _ _).trans (h.updRec x n _)
  · rfl

theorem beginDiscard (h : SeesNoDelivery p) (d : Dev) (slot : Option Nat) : p (d.beginDiscard slot) = p d := by
  unfold Dev.beginDiscard
  split
  · exact h.sto d _
  · exact h.sto d _

theorem freeSlot (h : SeesNoDelivery p) (d : Dev) (slot : Nat) : p (d.freeSlot slot) = p d := by
  unfold Dev.freeSlot
  extract_lets _ d1
  have hd1 : p d1 = p d := h.led d _ _ _ _ _
  split
  · exact (h.beginDiscard d1 _).trans hd1
  · exact hd1

theorem forget (h : SeesNoDelivery p) (d : Dev) (id : Nat) : p (d.forget id) = p d := by
  unfold Dev.forget
  split
  · exact h.cmd d _
  · rfl

theorem ackFrees (h : SeesNoDelivery p) (d : Dev) : p d.ackFrees = p d :=
  (foldl_keeps p _ (fun x _ => (h.forget _ _).trans (h.cmd x _)) _ _).trans (foldl_keeps p _ (fun x _ => h.freeSlot x _) _ d)

theorem sendOn (h : SeesNoDelivery p) (d : Dev) (peer port typ seq ref : Nat) (body : List Word) :
    p (d.sendOn peer port typ seq ref body) = p d := by
  unfold Dev.sendOn
  extract_lets i n x
  split
  · exact (h.out _ _).trans ((h.countN _ _ _).trans (h.up d _))
  · rfl

theorem send (h : SeesNoDelivery p) (d : Dev) (peer typ ref : Nat) (body : List Word) : p (d.send peer typ ref body) = p d := by
  unfold Dev.send
  split
  · exact (h.sendOn ..).trans ((h.sendOn ..).trans (h.up d _))
  · rfl

theorem sendBlock (h : SeesNoDelivery p) (d : Dev) (b : Block) (resend : Bool) : p (d.sendBlock b resend) = p d := by
  unfold Dev.sendBlock
  split
  · rfl
  · have hset (c : Block) : p ((d.send 0 0x01 0 (pk [(b2n resend, 34, 34)] :: b.words)).setBlock c) = p d :=
      (h.led _ _ _ _ _ _).trans (h.send ..)
    split
    · exact (h.count _ _).trans ((h.led _ _ _ _ _ _).trans (hset _))
    · exact (h.led _ _ _ _ _ _).trans (hset _)

theorem sendWindow (h : SeesNoDelivery p) (fuel : Nat) (d : Dev) : p (d.sendWindow fuel) = p d := by
  induction fuel generalizing d with
  | zero => rfl
  | succ fuel ih =>
    unfold Dev.sendWindow
    split
    · split
      · exact (ih _).trans (h.sendBlock ..)
      · rfl
    · rfl

theorem deliver (h : SeesNoDelivery p) (d : Dev) : p d.deliver = p d := h.sendWindow _ d

end SeesNoDelivery

/-- The BLOCK_ACK entry of a block acknowledged by way of a port (R184). -/
def Dev.blockAckEntry (d : Dev) (port bno csn : Nat) : Entry :=
  mkEntry 0x06 1 d.now none 0 ([W bno] ++ dw csn ++ [pk [(port, 35, 35)]])

theorem Dev.body_blockAckEntry (d : Dev) (port bno csn : Nat) :
    (d.blockAckEntry port bno csn).body = [W bno, hiW csn, loW csn, pk [(port, 35, 35)]] := rfl

/-- Beside what it delivers and frees, an acknowledgement commits its entry and moves the highest block acknowledged. -/
theorem SeesNoDelivery.blockAcked {β : Type} {p : Dev → β} (h : SeesNoDelivery p) (d : Dev) (port bno csn : Nat) :
    let d1 := d.commit (d.blockAckEntry port bno csn)
    p (d.blockAcked port bno csn) = p { d1 with led := { d1.led with acked := bno } } :=
  (h.deliver _).trans ((h.ackFrees _).trans (h.receipts _ _))

/-- The open block is left as the BLOCK_ACK entry's commit leaves it. -/
theorem Dev.openB_blockAcked (d : Dev) (port bno csn : Nat) :
    (d.blockAcked port bno csn).led.openB = (d.commit (d.blockAckEntry port bno csn)).led.openB := by
  have h : SeesNoDelivery fun d : Dev => d.led.openB :=
    { q := fun _ _ => rfl, ctrs := fun _ _ => rfl, out := fun _ _ => rfl, up := fun _ _ => rfl, cmd := fun _ _ => rfl,
      sto := fun _ _ => rfl, led := fun _ _ _ _ _ _ => rfl }
  exact h.blockAcked d port bno csn

/-- An acknowledgement of a block sent, not acknowledged before, and with its LAST_CSN right, is taken (R191, R343). -/
theorem Dev.ledgerAck_eq_blockAcked {d : Dev} {port bno : Nat} {b : Block} (hb : NMap.find d.led.blocks bno = some b)
    (hsent : bno ≤ d.led.sentB) (hnew : d.led.acked < bno) (hruns : d.ledgerRuns = true) :
    d.ledgerAck port bno b.last = d.blockAcked port bno b.last := by
  unfold Dev.ledgerAck
  rw [if_neg (Nat.not_lt_of_le hsent), if_neg (by simp [hb]), if_neg (by simp [hruns, hnew])]

theorem exec_ledgerAck (t port ref bno csn : Nat) (s : State) :
    exec (.ledgerAck t port ref bno csn) s = execLedgerAck t port ref bno csn s := rfl

/-- Outside TAKING_OVER a LEDGER_ACK leaves the ledger as its judgement does; a trial is at most told of it. -/
theorem exec_ledgerAck_led {t port ref bno csn : Nat} {s : State} (hst : (s.dev.advance t).pair.st ≠ 2) :
    ∃ d', exec (.ledgerAck t port ref bno csn) s = .next { s with dev := d' } ∧
      d'.led = ((s.dev.advance t).ledgerAck port bno csn).led := by
  rw [exec_ledgerAck, execLedgerAck]
  refine ⟨_, run_eq t s _, ?_⟩
  have hgo : ¬ ((s.dev.advance t).pair.st == 2) = true := by simpa using hst
  simp only [if_neg hgo]
  exact (apply_ite Dev.led _ _ _).trans (ite_self _)

theorem fld_pk_top_bit {port : Nat} (h : port < 2) : fld (pk [(port, 35, 35)]) 35 35 = port ∧ fld (pk [(port, 35, 35)]) 34 0 = 0 := by
  obtain rfl | rfl : port = 0 ∨ port = 1 := by omega
  · decide
  · decide

/-- Settles O56: the BLOCK_ACK entry is committed last in the open block, and nothing that follows in the step writes there. -/
theorem blockAckEntriesHoldTheAcknowledgement : Obligations.BlockAckEntriesHoldTheAcknowledgement := by
  intro t port ref bno s b d hst hport hbno hlast hb hsent hnew hruns hroom
  obtain ⟨d', hexec, hled⟩ := exec_ledgerAck_led (port := port) (ref := ref) (bno := bno) (csn := b.last) hst
  have hfits : (d.entriesWith (d.blockAckEntry port bno b.last)).length < 4096 := by
    rw [Dev.entriesWith, List.length_append]
    exact Nat.succ_lt_succ hroom
  have hopen : d'.led.openB = (d.enter (d.blockAckEntry port bno b.last)).led.openB := by
    rw [hled, Dev.ledgerAck_eq_blockAcked hb hsent hnew hruns, Dev.openB_blockAcked, Dev.commit,
      Dev.append_fitting (.inl Nat.one_ne_zero) hfits]
  obtain ⟨hpath, hzero⟩ := fld_pk_top_bit hport
  refine ⟨d', _, _, hexec, hopen.trans (by rw [Dev.led_enter]), List.getLast?_concat, rfl, rfl, ?_⟩
  rw [Dev.body_blockAckEntry]
  exact ⟨rfl, (BitVec.toNat_ofNat ..).trans (Nat.mod_eq_of_lt hbno), joinW_hiW_loW hlast, hpath, hzero⟩

end Machine

end Sys2Proof

/-!
The judgement of a reading and what its commit does to the record (spec 06, R165, R173–R177).
-/

namespace Sys2Proof.Machine

/-! State bits. -/

@[simp] theorem MeterRec.has_setBit_same (r : MeterRec) (b : Nat) (v : Bool) : (r.setBit b v).has b = v := by
  have hpos : 0 < 2 ^ b := Nat.two_pow_pos b
  unfold MeterRec.setBit
  split
  next h => exact eq_of_beq h
  next h =>
    cases v with
    | true =>
      have hbit : r.state / 2 ^ b % 2 ≠ 1 := by simpa [MeterRec.has] using h
      simp only [MeterRec.has, if_true, Nat.add_div_right _ hpos, beq_iff_eq]
      omega
    | false =>
      have hbit : r.state / 2 ^ b % 2 = 1 := by simpa [MeterRec.has] using h
      have hsub : (r.state - 2 ^ b) / 2 ^ b = r.state / 2 ^ b - 1 := by
        simpa using Nat.sub_mul_div r.state (2 ^ b) 1
      simp only [MeterRec.has, Bool.false_eq_true, if_false, hsub, beq_eq_false_iff_ne]
      omega

/-- Quarantined stands below stale, and setting a bit that is clear or clearing one that is set carries nothing upward. -/
@[simp] theorem MeterRec.has_sbStale_setBit_sbQuarantined (r : MeterRec) (v : Bool) :
    (r.setBit sbQuarantined v).has sbStale = r.has sbStale := by
  unfold MeterRec.setBit
  split
  next => rfl
  next h =>
    simp only [MeterRec.has, sbQuarantined, sbStale] at h ⊢
    cases v with
    | true =>
      have hbit : r.state / 2 ^ 2 % 2 ≠ 1 := by simpa using h
      have hsame : (r.state + 2 ^ 2) / 2 ^ 3 = r.state / 2 ^ 3 := by omega
      rw [if_pos rfl, hsame]
    | false =>
      have hbit : r.state / 2 ^ 2 % 2 = 1 := by simpa using h
      have hsame : (r.state - 2 ^ 2) / 2 ^ 3 = r.state / 2 ^ 3 := by omega
      rw [if_neg Bool.false_ne_true, hsame]

/-! What validation can say of a reading. -/

/-- A reading accepted, with `c` 1 where a flag is set. -/
def acceptedAs (c fl : Nat) : Judgement := ⟨c, 0, fl, 0⟩

/-- The judgements that can be made of a reading against a record, by class: the reasons of each, and that an accepted reading is flagged
LATE, bit 2 of FLAGS, exactly where it does not advance LAST_END (R173, R176). -/
inductive MeterRec.Judged (r : MeterRec) (x : Reading) : Judgement → Prop
  | rejected (why fl orig : Nat) (h : why ≠ 0) : r.Judged x (rejectedAs why fl orig)
  | quarantined (why fl : Nat) (h : 16 ≤ why ∧ why ≤ 22) : r.Judged x (quarantinedAs why fl)
  | accepted (c fl : Nat) (hc : c ≤ 1) (h : fl / 4 % 2 = 1 ↔ r.advances x = false) : r.Judged x (acceptedAs c fl)

theorem exists_flag (c : Bool) (k : Nat) : ∃ u ≤ 1, (if c then k else 0) = k * u := by
  cases c with
  | false => exact ⟨0, Nat.zero_le 1, rfl⟩
  | true => exact ⟨1, Nat.le_refl 1, (Nat.mul_one k).symm⟩

/-- Stages 3 to 6 set no flag of weight 4, and their flags of weights 1 and 2 stand below it. -/
theorem Dev.lateStages_judged (d : Dev) {r : MeterRec} (s : ReadingSet) {x : Reading} (skew : Int) {fl : Nat} (skip : Bool)
    (hfl : fl % 4 = 0) (h : fl / 4 % 2 = 1 ↔ r.advances x = false) : r.Judged x (d.lateStages r s x skew fl skip) := by
  unfold Dev.lateStages
  extract_lets incs fl3 m above fl4 fl5 fl6
  split
  · exact .quarantined 16 fl (by decide)
  split
  · exact .quarantined 17 fl3 (by decide)
  split
  · exact .quarantined 19 fl4 (by decide)
  split
  · exact .quarantined 18 fl5 (by decide)
  refine .accepted _ fl6 (by split <;> decide) (Iff.trans ?_ h)
  obtain ⟨a, -, ha⟩ := exists_flag (!skip && incs.any fun q => (q.map (·.2)).getD false) 64
  obtain ⟨b, hb, hb'⟩ := exists_flag (above d.plausSoft) 2
  obtain ⟨c, hc, hc'⟩ := exists_flag (decide (d.skewFlagMs < skew.natAbs)) 1
  obtain ⟨e, -, he⟩ := exists_flag (s.ttId != r.ttActive) 8
  obtain ⟨f, -, hf⟩ := exists_flag (x.qual != 0) 16
  have hfl6 : fl6 = fl + 64 * a + 2 * b + 1 * c + (8 * e + 16 * f) := by
    simp only [decide_eq_true_eq] at hc'
    simp only [fl6, fl5, fl4, fl3, ha, hb', hc', he, hf]
    omega
  omega

theorem Dev.judgeReading_judged (d : Dev) (r : MeterRec) (f : FrameInfo) (s : ReadingSet) (x : Reading) (sig : Nat)
    (look : Option Nat) : r.Judged x (d.judgeReading r f s x sig look) := by
  unfold Dev.judgeReading
  extract_lets skew back
  split
  · exact .rejected 5 0 0 (by decide)
  split
  · exact .rejected 1 0 0 (by decide)
  split
  · exact .quarantined 21 0 (by decide)
  split
  · exact .quarantined 22 0 (by decide)
  split
  next hfirst => exact d.lateStages_judged s skew true rfl (by simp [MeterRec.advances, hfirst])
  next hknown =>
    split
    · exact .quarantined 21 0 (by decide)
    split
    · exact .rejected 2 0 _ (by decide)
    split
    next hlater =>
      have hadv : r.advances x = true := by simp [MeterRec.advances, hlater]
      refine d.lateStages_judged s skew false ?_ ?_
      · split <;> rfl
      · split <;> simp [hadv]
    next hearlier =>
      have hadv : r.advances x = false := by
        simpa [MeterRec.advances, hearlier] using hknown
      split
      · split
        · exact .rejected 2 0 _ (by decide)
        · exact .quarantined 20 0 (by decide)
      split
      · exact .rejected 2 0 _ (by decide)
      · exact d.lateStages_judged s skew true rfl (by simp [hadv])

/-! What the commit does to the record. -/

@[simp] theorem MeterRec.lastEnd_advance (r : MeterRec) (endS csn : Nat) : (r.advance endS csn).lastEnd = endS := by
  unfold MeterRec.advance
  split <;> rfl

@[simp] theorem MeterRec.lastCsn_advance (r : MeterRec) (endS csn : Nat) : (r.advance endS csn).lastCsn = csn := by
  unfold MeterRec.advance
  split <;> rfl

@[simp] theorem MeterRec.lastReg_advance (r : MeterRec) (endS csn : Nat) : (r.advance endS csn).lastReg = r.lastReg := by
  unfold MeterRec.advance
  split <;> rfl

/-- The record with a reading's interval entered: LAST_END advances to it, or its SEEN bit is set. -/
def MeterRec.enterInterval (r : MeterRec) (x : Reading) (csn : Nat) : MeterRec :=
  if r.advances x then r.advance x.endS csn else r.markSeen x.endS

@[simp] theorem MeterRec.lastReg_enterInterval (r : MeterRec) (x : Reading) (csn : Nat) :
    (r.enterInterval x csn).lastReg = r.lastReg := by
  unfold MeterRec.enterInterval
  split
  · exact r.lastReg_advance ..
  · rfl

section
variable (r : MeterRec) (s : ReadingSet) (x : Reading) (skew : Int) (csn : Nat)

theorem MeterRec.afterReading_quarantinedAs (why fl : Nat) :
    r.afterReading s x skew (quarantinedAs why fl) csn =
      { (if why == 20 || why == 21 || why == 22 then r else r.enterInterval x csn).setBit sbQuarantined true with
        skew := max (-32767) (min 32767 skew) } := rfl

/-- A quarantined reading sets the bit and keeps the registers (R177). -/
theorem MeterRec.afterReading_quarantined (why fl : Nat) :
    let q := r.afterReading s x skew (quarantinedAs why fl) csn
    q.lastReg = r.lastReg ∧ q.has sbQuarantined = true ∧ q.skew = max (-32767) (min 32767 skew) := by
  rw [MeterRec.afterReading_quarantinedAs]
  refine ⟨?_, MeterRec.has_setBit_same _ _ _, rfl⟩
  split
  · rfl
  · exact r.lastReg_enterInterval ..

/-- Quarantined with IVL, TOO_OLD or FUTURE, it leaves LAST_END, LAST_CSN and SEEN too (R177). -/
theorem MeterRec.afterReading_unplaced {why : Nat} (fl : Nat) (h : why = 20 ∨ why = 21 ∨ why = 22) :
    let q := r.afterReading s x skew (quarantinedAs why fl) csn
    q.lastEnd = r.lastEnd ∧ q.lastCsn = r.lastCsn ∧ q.seen = r.seen := by
  obtain rfl | rfl | rfl := h
  · exact ⟨rfl, rfl, rfl⟩
  · exact ⟨rfl, rfl, rfl⟩
  · exact ⟨rfl, rfl, rfl⟩

theorem MeterRec.afterReading_acceptedAs {c : Nat} (fl : Nat) (hc : c ≤ 1) :
    r.afterReading s x skew (acceptedAs c fl) csn =
      if r.advances x then
        { ({ r.enterInterval x csn with lastReg := r.reported s x ++ r.lastReg.drop (r.reported s x).length }.setBit sbStale
            false).setBit sbQuarantined false with skew := max (-32767) (min 32767 skew) }
      else { (r.enterInterval x csn).setBit sbStale false with skew := max (-32767) (min 32767 skew) } := by
  obtain rfl | rfl : c = 0 ∨ c = 1 := by omega
  · rfl
  · rfl

/-- An accepted reading that advances LAST_END becomes the latest of the record (R177). -/
theorem MeterRec.afterReading_latest {c : Nat} (fl : Nat) (hc : c ≤ 1) (hadv : r.advances x = true) :
    let q := r.afterReading s x skew (acceptedAs c fl) csn
    q.lastEnd = x.endS ∧ q.lastCsn = csn ∧ q.lastReg = r.reported s x ++ r.lastReg.drop (r.reported s x).length ∧
      q.has sbStale = false ∧ q.has sbQuarantined = false ∧ q.skew = max (-32767) (min 32767 skew) := by
  rw [r.afterReading_acceptedAs s x skew csn fl hc, if_pos hadv, MeterRec.enterInterval, if_pos hadv]
  exact ⟨r.lastEnd_advance .., r.lastCsn_advance .., rfl,
    (MeterRec.has_sbStale_setBit_sbQuarantined _ _).trans (MeterRec.has_setBit_same _ _ _), MeterRec.has_setBit_same _ _ _, rfl⟩

/-- An accepted reading of an earlier interval leaves LAST_END and the registers (R177). -/
theorem MeterRec.afterReading_late {c : Nat} (fl : Nat) (hc : c ≤ 1) (hadv : r.advances x = false) :
    let q := r.afterReading s x skew (acceptedAs c fl) csn
    q.lastEnd = r.lastEnd ∧ q.lastReg = r.lastReg ∧ q.has sbStale = false ∧ q.skew = max (-32767) (min 32767 skew) := by
  have hback : ¬ r.advances x = true := Bool.eq_false_iff.mp hadv
  rw [r.afterReading_acceptedAs s x skew csn fl hc, if_neg hback, MeterRec.enterInterval, if_neg hback]
  exact ⟨rfl, rfl, MeterRec.has_setBit_same _ _ _, rfl⟩

end

/-- Settles O24, class by class of the judgement. -/
theorem recordsFollowTheJudgement : Obligations.RecordsFollowTheJudgement := by
  intro d r f s x sig csn look j q
  have hj : r.Judged x j := d.judgeReading_judged r f s x sig look
  clear_value j
  cases hj with
  | rejected why fl orig h =>
    exact ⟨Nat.le_refl 3, fun _ => rfl, nofun, nofun, nofun, nofun, nofun, fun h0 => absurd h0 h⟩
  | quarantined why fl h =>
    obtain ⟨hreg, hbit, hskew⟩ := r.afterReading_quarantined s x (skewOf s.mclk f.shr) csn why fl
    have hkeep (h20 : 20 ≤ why) := r.afterReading_unplaced s x (skewOf s.mclk f.shr) csn fl (why := why) (by omega)
    have hwhy (h0 : why = 0) : (2 : Nat) ≤ 1 := by omega
    exact ⟨Nat.le_succ 2, nofun, fun _ => ⟨hreg, hbit, hkeep⟩, nofun, nofun, fun _ => hskew, nofun, hwhy⟩
  | accepted c fl hc h =>
    have hrej : c ≠ 3 := by omega
    have hquar : c ≠ 2 := by omega
    have hreason : c ≤ 1 ↔ (0 : Nat) = 0 := iff_of_true hc rfl
    cases hadv : r.advances x with
    | true =>
      obtain ⟨hend, hcsn, hreg, hstale, hq, hskew⟩ := r.afterReading_latest s x (skewOf s.mclk f.shr) csn fl hc hadv
      have htime : fl / 4 % 2 ≠ 1 := fun hlate => Bool.noConfusion (hadv.symm.trans (h.mp hlate))
      exact ⟨Nat.le_succ_of_le (Nat.le_succ_of_le hc), (absurd · hrej), (absurd · hquar),
        fun _ _ => ⟨hend, hcsn, hreg, hstale, hq⟩, fun _ hlate => absurd hlate htime, fun _ => hskew, hreason⟩
    | false =>
      obtain ⟨hend, hreg, hstale, hskew⟩ := r.afterReading_late s x (skewOf s.mclk f.shr) csn fl hc hadv
      have hlate : fl / 4 % 2 ≠ 0 := by rw [h.mpr hadv]; exact Nat.one_ne_zero
      exact ⟨Nat.le_succ_of_le (Nat.le_succ_of_le hc), (absurd · hrej), (absurd · hquar),
        fun _ htime => absurd htime hlate, fun _ _ => ⟨hend, hreg, hstale⟩, fun _ => hskew, hreason⟩

end Sys2Proof.Machine

/-!
The evaluation of a zone interval: its REASON, the histories and alarms of its zone, and the zone's mirror words (spec 08, R246, R247, R250).
-/

namespace Sys2Proof.Machine

/-! Zones after a write, and what leaves all zones alone. -/

@[simp] theorem Dev.zone_setZone_same (d : Dev) (z : Nat) (x : Zone) : (d.setZone z x).zone z = x :=
  NMap.look_put_same d.bal.zones z x Zone.empty

theorem Dev.zone_setZone_other (d : Dev) {z k : Nat} (x : Zone) (h : k ≠ z) : (d.setZone z x).zone k = d.zone k :=
  NMap.look_put_other d.bal.zones z k x Zone.empty h

@[simp] theorem Dev.bal_enter (d : Dev) (e : Entry) : (d.enter e).bal = d.bal := by
  unfold Dev.enter
  split <;> rfl

@[simp] theorem Dev.bal_seal (d : Dev) (c : Nat) : (d.seal c).bal = d.bal := by
  unfold Dev.seal
  split <;> rfl

@[simp] theorem Dev.bal_append (d : Dev) (e : Entry) (more : Bool) : (d.append e more).2.bal = d.bal := by
  rw [Dev.append_eq]
  dsimp only
  split
  · rw [Dev.bal_seal, Dev.bal_enter]
  · split
    · rw [Dev.bal_seal, Dev.bal_enter]
    · rw [Dev.bal_enter]

@[simp] theorem Dev.zone_append (d : Dev) (e : Entry) (more : Bool) (k : Nat) : (d.append e more).2.zone k = d.zone k := by
  rw [Dev.zone, Dev.bal_append, Dev.zone]

/-! The REASON and its place in mirror word 0. -/

theorem zReason_le (expected contrib missMax : Nat) (topo refGood : Bool) (resid h : Int) :
    zReason expected contrib missMax topo refGood resid h ≤ 6 := by
  unfold zReason
  repeat' split
  all_goals decide

theorem zReason_empty (contrib missMax : Nat) (topo refGood : Bool) (resid h : Int) :
    zReason 0 contrib missMax topo refGood resid h = 6 := rfl

/-- LAST_REASON stands above every other field of mirror word 0, and their sum carries nothing into it. -/
theorem lastReason_pk (why lossA negA phV lossH negH : Nat) :
    fld (pk [(why, 35, 33), (lossA, 32, 32), (negA, 31, 31), (phV, 30, 30), (lossH, 29, 15), (negH, 14, 0)]) 35 33 = why % 8 := by
  simp only [pk, fld, List.foldl_cons, List.foldl_nil, BitVec.toNat_ofNat]
  omega

/-! The alarms. -/

/-- An inactive alarm is raised by its lowest M bits alone, an active one cleared by its lowest CLEAR_N bits alone (R247). -/
theorem alarmAfter_moves {active after : Bool} {hist n m clear : Nat} (h : after = alarmAfter active hist n m clear) :
    (active = false → (after = true ↔ n ≤ lowOnes hist m)) ∧ (active = true → (after = false ↔ lowOnes hist clear = 0)) := by
  subst h
  constructor
  · rintro rfl
    exact decide_eq_true_iff
  · rintro rfl
    exact bne_eq_false_iff_eq

/-! What an evaluation leaves. -/

/-- The zone `x'` follows `x` by the evaluation of the interval ending at `endS` with REASON `why`; `n`, `m` and `clear` are
the zone's PERSIST_N, PERSIST_M and CLEAR_N (R246, R247, R250). -/
structure Zone.Follows (x x' : Zone) (endS why n m clear : Nat) : Prop where
  done : x'.done = endS
  restart : x'.restart = false
  lastReason : fld (x'.words.getD 0 0) 35 33 = why % 8
  loss : x'.loss = if why ≤ 2 then (x.loss * 2 + b2n (why == 1)) % 2 ^ 15 else x.loss
  neg : x'.neg = if why ≤ 2 then (x.neg * 2 + b2n (why == 2)) % 2 ^ 15 else x.neg
  lossAl : x'.lossAl = if why ≤ 2 then alarmAfter x.lossAl x'.loss n m clear else x.lossAl
  negAl : x'.negAl = if why ≤ 2 then alarmAfter x.negAl x'.neg n m clear else x.negAl

/-- An evaluation commits one entry and writes its zone and counters, and nothing else. -/
theorem Dev.evaluate_follows (d : Dev) (z endS : Nat) (early : Bool) :
    ∃ (e : Entry) (x' : Zone) (why : Nat),
      d.evaluate z endS early = { (d.append e).2.setZone z x' with ctrs := (d.evaluate z endS early).ctrs } ∧
      why ≤ 6 ∧ (d.expected z endS = 0 → why = 6) ∧
      (d.zone z).Follows x' endS why (d.zPersistN z) (d.zPersistM z) (d.zClearN z) := by
  unfold Dev.evaluate
  extract_lets _ x expd _ _ _ _ _ _ why _ judged lossH negH lossA negA _ _ _ _ _ _ _ _ _ flags _ _ _ e _ _ _ x' _
  have hempty (h0 : expd = 0) : why = 6 := by
    simp only [why, h0, zReason_empty]
  refine ⟨{ e with reason := why, flags := flags }, x', why, ?_, zReason_le .., hempty, rfl, rfl, lastReason_pk .., ?_, ?_, ?_, ?_⟩
  · -- the match on REASON chooses a counter, and a counter is all it chooses
    clear_value why
    split <;> rfl
  · simp only [x', lossH, judged, decide_eq_true_eq, x]
  · simp only [x', negH, judged, decide_eq_true_eq, x]
  · simp only [x', lossA, judged, decide_eq_true_eq, x]
  · simp only [x', negA, judged, decide_eq_true_eq, x]

namespace Zone.Follows

variable {x x' : Zone} {endS why n m clear : Nat}

theorem judged (hf : x.Follows x' endS why n m clear) (h : why ≤ 2) :
    x'.loss = (x.loss * 2 + b2n (why == 1)) % 2 ^ 15 ∧ x'.neg = (x.neg * 2 + b2n (why == 2)) % 2 ^ 15 ∧
      x'.lossAl = alarmAfter x.lossAl x'.loss n m clear ∧ x'.negAl = alarmAfter x.negAl x'.neg n m clear :=
  ⟨hf.loss.trans (if_pos h), hf.neg.trans (if_pos h), hf.lossAl.trans (if_pos h), hf.negAl.trans (if_pos h)⟩

theorem not_judged (hf : x.Follows x' endS why n m clear) (h : 3 ≤ why) :
    x'.loss = x.loss ∧ x'.neg = x.neg ∧ x'.lossAl = x.lossAl ∧ x'.negAl = x.negAl :=
  have hno : ¬ why ≤ 2 := Nat.not_le_of_lt h
  ⟨hf.loss.trans (if_neg hno), hf.neg.trans (if_neg hno), hf.lossAl.trans (if_neg hno), hf.negAl.trans (if_neg hno)⟩

end Zone.Follows

/-- Settles O34: the evaluated zone follows its old value by the REASON that its mirror words show, and no other zone is written. -/
theorem alarmsFollowTheirHistories : Obligations.AlarmsFollowTheirHistories := by
  intro d z endS early x r y why
  obtain ⟨e, x', w, hr, hle, hempty, hf⟩ := d.evaluate_follows z endS early
  have hy : y = x' := (congrArg (·.zone z) hr).trans (Dev.zone_setZone_same ..)
  have hwhy : why = w := by
    have hlast : fld (y.words.getD 0 0) 35 33 = w % 8 := by rw [hy, hf.lastReason]
    exact hlast.trans (Nat.mod_eq_of_lt (by omega))
  have hcsn : r.led.csn = d.led.csn + 1 := (congrArg (·.led.csn) hr).trans (d.csn_append e false)
  have hother (k : Nat) (hk : k ≠ z) : r.zone k = d.zone k :=
    (congrArg (·.zone k) hr).trans ((Dev.zone_setZone_other _ x' hk).trans (d.zone_append e false k))
  rw [hwhy, hy]
  refine ⟨hf.done, hle, hempty, hf.restart, hcsn, fun hj => ?_, hf.not_judged, hother⟩
  obtain ⟨hloss, hneg, hlossAl, hnegAl⟩ := hf.judged hj
  obtain ⟨lossRaised, lossCleared⟩ := alarmAfter_moves hlossAl
  obtain ⟨negRaised, negCleared⟩ := alarmAfter_moves hnegAl
  exact ⟨hloss, hneg, lossRaised, lossCleared, negRaised, negCleared⟩

end Sys2Proof.Machine

/-!
Mains, from the comparator crossing that begins a run of AOC0 below VTH_L to the loss declared of it, and what the first steps of the
holdup sequence leave alone (spec 16, R424–R426).
-/

namespace Sys2Proof.Machine

/-! Groups emptied, filled and consumed write to their queues and to counters. -/

namespace SeesNoQueue

variable {β : Type} {p : Dev → β}

theorem dropItems (h : SeesNoQueue p) (d : Dev) (g : Nat) (gone : Item → Bool) : p (d.dropItems g gone) = p d := by
  unfold Dev.dropItems
  split
  · exact (h.settleAll _).trans (foldl_keeps p _ (fun x _ => h.setQueue x _ _ _) _ d)
  · rfl

theorem clearGroup (h : SeesNoQueue p) (d : Dev) (g : Nat) : p (d.clearGroup g) = p d :=
  (h.settleAll _).trans (foldl_keeps p _ (fun x _ => h.setQueue x _ _ _) _ d)

theorem mireFill (h : SeesNoQueue p) (d : Dev) (g c : Nat) (bad : Option Nat) : p (d.mireFill g c bad) = p d := by
  unfold Dev.mireFill
  extract_lets
  split
  · rfl
  · exact (h.settleAll _).trans ((h.countN _ _ _).trans (h.setQueue ..))

theorem fillGroup (h : SeesNoQueue p) (d : Dev) (g : Nat) : p (d.fillGroup g) = p d :=
  foldl_keeps p _ (fun x _ => h.mireFill x _ _ _) _ d

theorem discard (h : SeesNoQueue p) (d : Dev) (g : Nat) (own : Bool) : p (d.discard g own) = p d := by
  refine foldl_keeps p _ (fun x c => ?_) _ d
  dsimp only
  split
  · rfl
  · rw [h.settle, h.countN, h.setQueue]

theorem takeItem (h : SeesNoQueue p) {d d' : Dev} {g : Nat} {x : Item} (e : d.takeItem g = some (x, d')) : p d' = p d := by
  obtain ⟨⟨k, d1⟩, htake, hx⟩ := Option.map_eq_some_iff.mp e
  obtain ⟨c, r, -, -, hd1, -⟩ := Dev.takePacket_cases htake
  have hd' : d' = d1 := (congrArg Prod.snd hx).symm
  rw [hd', hd1, h.settle, h.setQueue, h.discard]

end SeesNoQueue

/-- A projection that does not see what taking in events changes: the event input and the counters, the recorder, the ledger, and the
instant of the last C0 commit, which local outputs keep (R404, R405, R408). -/
structure SeesNoEvents {β : Type} (p : Dev → β) : Prop extends SeesNoQueue p where
  evr : ∀ d x, p { d with evr := x } = p d
  led : ∀ d x, p { d with led := x } = p d
  loc : ∀ d x, p { d with loc := x } = p d

namespace SeesNoEvents

variable {β : Type} {p : Dev → β}

theorem enter (h : SeesNoEvents p) (d : Dev) (e : Entry) : p (d.enter e) = p d := by
  unfold Dev.enter
  split
  · exact (h.led _ _).trans (h.loc d _)
  · exact h.led d _

theorem sealOpen (h : SeesNoEvents p) (d : Dev) (c : Nat) : p (d.seal c) = p d := by
  unfold Dev.seal
  split
  · rfl
  · exact (h.count _ _).trans (h.led d _)

theorem commit (h : SeesNoEvents p) (d : Dev) (e : Entry) : p (d.commit e) = p d := by
  rw [Dev.commit, Dev.append_eq]
  dsimp only
  split
  · rw [h.sealOpen, h.enter]
  · split
    · rw [h.sealOpen, h.enter]
    · exact h.enter d e

theorem updRec (h : SeesNoEvents p) (d : Dev) (slot : Nat) (f : MeterRec → MeterRec) : p (d.updRec slot f) = p d := by
  unfold Dev.updRec
  split
  · exact h.led d _
  · rfl

theorem intake (h : SeesNoEvents p) (d : Dev) (e : Event) : p (d.intake e) = p d := by
  unfold Dev.intake
  extract_lets commits ctrEnd already q r d1 st d2 raw _ d3
  have hd1 : p d1 = p d := by
    simp only [d1]
    split
    · split
      · exact h.updRec ..
      · rfl
    · rfl
  have hd2 : p d2 = p d1 := by
    simp only [d2]
    split
    · exact h.commit ..
    · rfl
  have hd3 : p d3 = p d := (h.evr d2 _).trans (hd2.trans hd1)
  split
  · rfl
  split
  · exact hd3
  · exact (h.count _ _).trans ((h.evr d3 _).trans hd3)

theorem nextEvent (h : SeesNoEvents p) (d : Dev) : p d.nextEvent = p d := by
  unfold Dev.nextEvent
  split
  next htake => exact (h.intake ..).trans (h.takeItem htake)
  next htake => exact h.takeItem htake
  next => rfl

theorem drainFrom (h : SeesNoEvents p) (n : Nat) (d : Dev) : p (d.drainFrom n) = p d := by
  induction n generalizing d with
  | zero => rfl
  | succ n ih =>
    unfold Dev.drainFrom
    rw [ih, h.nextEvent, h.fillGroup]

theorem drainEvents (h : SeesNoEvents p) (d : Dev) : p d.drainEvents = p d := h.drainFrom _ d

theorem raiseNow (h : SeesNoEvents p) (d : Dev) (code : Nat) (args : List Nat) (slot : Option Nat) :
    p (d.raiseNow code args slot).2 = p d :=
  (h.drainEvents _).trans ((h.raise ..).trans (h.drainEvents d))

end SeesNoEvents

/-- A projection that does not see what breaking off field work changes: class queues and counters, radio lanes and jobs,
powerline lanes and jobs, and field reception with its transmissions (R426, R428). -/
structure SeesNoField {β : Type} (p : Dev → β) : Prop extends SeesNoQueue p where
  air : ∀ d x, p { d with air := x } = p d
  pl  : ∀ d x, p { d with pl := x } = p d
  fr  : ∀ d x, p { d with fr := x } = p d

namespace SeesNoField

variable {β : Type} {p : Dev → β}

theorem fieldParts (h : SeesNoField p) (d : Dev) (a : Air) (b : Pline) (c : Field) : p { d with air := a, pl := b, fr := c } = p d :=
  (h.fr { d with air := a, pl := b } c).trans ((h.pl { d with air := a } b).trans (h.air d a))

theorem freeLane (h : SeesNoField p) (d : Dev) (n : Nat) : p (d.freeLane n) = p d := h.air d _

theorem addCut (h : SeesNoField p) (d : Dev) (x : Tx) : p (d.addCut x) = p d := by
  unfold Dev.addCut
  split
  · rfl
  · exact h.fr d _

theorem endTx (h : SeesNoField p) (d : Dev) (f : Tx → Bool) : p (d.endTx f) = p d :=
  (h.fr _ _).trans (foldl_keeps p _ h.addCut _ d)

theorem letGo (h : SeesNoField p) (d : Dev) (n : Nat) : p (d.letGo n) = p d :=
  (h.freeLane ..).trans ((h.air _ _).trans (h.endTx ..))

theorem plLetGo (h : SeesNoField p) (d : Dev) (n : Nat) : p (d.plLetGo n) = p d := h.pl d _

/-- Jobs withdrawn for no one slot leave every record's mail bit alone. -/
theorem withdraw (h : SeesNoField p) (d : Dev) (f : Job → Bool) : p (d.withdraw f none) = p d := by
  unfold Dev.withdraw
  extract_lets gone holds d1 d2 d3
  have hd1 : p d1 = p d := h.dropItems ..
  have hd2 : p d2 = p d1 := foldl_keeps p _ (fun x _ => h.letGo x _) _ d1
  have hd3 : p d3 = p d2 := foldl_keeps p _ (fun x _ => h.plLetGo x _) _ d2
  exact (h.fieldParts d3 _ _ d3.fr).trans (hd3.trans (hd2.trans hd1))

theorem abortSweep (h : SeesNoField p) (d : Dev) (s : Nat) : p (d.abortSweep s) = p d := by
  unfold Dev.abortSweep
  extract_lets
  split
  · rfl
  · exact (h.withdraw ..).trans (h.pl d _)

theorem plOff (h : SeesNoField p) (d : Dev) (s : Nat) : p (d.plOff s) = p d := by
  unfold Dev.plOff
  extract_lets
  split
  · rfl
  · exact (h.abortSweep ..).trans ((h.pl _ _).trans (h.pl d _))

theorem plAbort (h : SeesNoField p) (d : Dev) (s : Nat) : p (d.plAbort s) = p d := by
  unfold Dev.plAbort
  split
  · rfl
  · exact (h.pl _ _).trans (h.plOff d s)

theorem haltField (h : SeesNoField p) (d : Dev) : p d.haltField = p d := by
  unfold Dev.haltField
  extract_lets d1 d2
  have hd1 : p d1 = p d := foldl_keeps p _ (fun x _ => h.freeLane x _) _ d
  have hd2 : p d2 = p d1 := (h.endTx ..).trans (foldl_keeps p _ h.plAbort _ d1)
  exact (h.clearGroup ..).trans ((h.fieldParts d2 _ _ _).trans (hd2.trans hd1))

end SeesNoField

/-! Power under the first steps of the sequence, and the sequence that stands after them. -/

theorem Dev.pw_raiseNow (d : Dev) (code : Nat) (args : List Nat) (slot : Option Nat) : (d.raiseNow code args slot).2.pw = d.pw :=
  SeesNoEvents.raiseNow (p := Dev.pw)
    { q := fun _ _ => rfl, ctrs := fun _ _ => rfl, evr := fun _ _ => rfl, led := fun _ _ => rfl, loc := fun _ _ => rfl } ..

theorem Dev.pw_haltField (d : Dev) : d.haltField.pw = d.pw :=
  SeesNoField.haltField (p := Dev.pw)
    { q := fun _ _ => rfl, ctrs := fun _ _ => rfl, air := fun _ _ => rfl, pl := fun _ _ => rfl, fr := fun _ _ => rfl } d

theorem Dev.pw_send (d : Dev) (peer typ ref : Nat) (body : List Word) : (d.send peer typ ref body).pw = d.pw :=
  SeesNoDelivery.send (p := Dev.pw)
    { q := fun _ _ => rfl, ctrs := fun _ _ => rfl, out := fun _ _ => rfl, up := fun _ _ => rfl, cmd := fun _ _ => rfl,
      sto := fun _ _ => rfl, led := fun _ _ _ _ _ _ => rfl } ..

theorem Dev.pw_sendGasp (d : Dev) (tL n : Nat) : (d.sendGasp tL n).pw = d.pw := (Dev.pw_send ..).trans (Dev.pw_send ..)

theorem Dev.pw_dispStop (d : Dev) : d.dispStop.pw = d.pw := by
  unfold Dev.dispStop
  extract_lets
  split <;> rfl

/-- Closing a domain writes the domains alone. -/
theorem Dev.hu_closeDom (d : Dev) (n why : Nat) : (d.closeDom n why).pw.hu = d.pw.hu := by
  unfold Dev.closeDom
  extract_lets
  repeat' split
  all_goals rfl

theorem Dev.hu_closeDoms (l : List Nat) (why : Nat) (d : Dev) : (l.foldl (fun x n => x.closeDom n why) d).pw.hu = d.pw.hu :=
  foldl_keeps (fun x : Dev => x.pw.hu) _ (fun x n => x.hu_closeDom n why) l d

theorem Dev.hu_huStage (d : Dev) (n : Nat) :
    (d.huStage n).pw.hu = d.pw.hu.map fun h => { h with stage := max h.stage n } := rfl

/-- Once steps 1 to 4 are done, the sequence that runs is that of the loss declared (R425, R426). -/
theorem Dev.hu_holdupStart (d : Dev) (c tL : Nat) : (d.holdupStart c tL).pw.hu = some ⟨tL, c, 4, false, false, false⟩ := by
  unfold Dev.holdupStart
  extract_lets _ d1 d2 _ _ _ d3 d4 _ d5
  have hd2 : d2.pw = d1.pw := (Dev.pw_haltField _).trans (Dev.pw_raiseNow ..)
  have hd3 : d3.pw = d2.pw := by dsimp only [d3]
  have hd4 : d4.pw.hu = d3.pw.hu := by rw [Dev.pw_dispStop, Dev.hu_closeDoms]
  have hd5 : d5.pw = d4.pw := by dsimp only [d5]
  have hsent : (d5.sendGasp tL 0).pw.hu = d1.pw.hu := by rw [Dev.pw_sendGasp, hd5, hd4, hd3, hd2]
  rw [Dev.hu_huStage, hsent]
  rfl

/-! MAINS_LOSS. -/

/-- What a command leaves, by what its effect answers on the device it finds. -/
theorem run_of_eq {t : Nat} {s : State} {f : Dev → Dev} {y : Dev} (h : f (s.dev.advance t) = y) :
    run t s f = .next { s with dev := { y with clk := (s.dev.advance t).clk } } := by
  rw [run_eq, h]

theorem exec_mainsLoss (t : Nat) (s : State) : exec (.mainsLoss t) s = execMainsLoss t s := rfl

/-- With no run, within the filter, or with a sequence running already, MAINS_LOSS does nothing (R425). -/
theorem exec_mainsLoss_ignored {t : Nat} {s : State}
    (h : let d := s.dev.advance t
      ∀ c tL, d.pw.low = some (c, tL) → d.passedUs c d.mainsFiltUs = false ∨ d.pw.hu ≠ none) :
    exec (.mainsLoss t) s = .next { s with dev := s.dev.advance t } := by
  rw [exec_mainsLoss, execMainsLoss]
  refine run_of_eq (y := s.dev.advance t) ?_
  generalize s.dev.advance t = d at h ⊢
  split
  next c tL hlow =>
    refine if_pos ?_
    obtain hwithin | hruns := h c tL hlow
    · simp [hwithin]
    · simp [Option.isSome_iff_ne_none.mpr hruns]
  next => rfl

/-- A run that has lasted through the filter is a loss: the sequence begins with the crossing that began it (R425, R426). -/
theorem exec_mainsLoss_declared {t c tL : Nat} {s : State} (hlow : (s.dev.advance t).pw.low = some (c, tL))
    (hpassed : (s.dev.advance t).passedUs c (s.dev.advance t).mainsFiltUs = true) (hidle : (s.dev.advance t).pw.hu = none)
    (hpowered : (s.dev.advance t).powered = true) (hphase : (s.dev.advance t).boot.phase ≠ 0)
    (hheld : (s.dev.advance t).aocHigh 1 = true ∨ (s.dev.advance t).led.accepts = true) :
    exec (.mainsLoss t) s =
      .next { s with dev := { (s.dev.advance t).holdupStart c tL with clk := (s.dev.advance t).clk } } := by
  rw [exec_mainsLoss, execMainsLoss]
  refine run_of_eq (y := (s.dev.advance t).holdupStart c tL) ?_
  generalize s.dev.advance t = d at hlow hpassed hidle hpowered hphase hheld ⊢
  have hkept : ¬ (!d.aocHigh 1 && !d.led.accepts) = true := by
    obtain h | h := hheld
    · simp [h]
    · simp [h]
  simp only [hlow]
  rw [if_neg (by simp [hpassed, hidle, hphase]), if_neg (by simp [hpowered]), if_neg hkept]

/-! Crossings of AOC0. -/

theorem exec_comparatorCrossing_mains (t : Nat) (up : Bool) (s : State) :
    exec (.comparatorCrossing t 0 up) s =
      .next { s with dev := { (s.dev.advance t).aocTo 0 up with clk := (s.dev.advance t).clk } } := rfl

/-- From high or from unresolved, a crossing below VTH_L begins a run at its own instant (R425). -/
theorem Dev.aocTo_mains_begins_run {d : Dev} (h : (d.aoc 0).res = false ∨ (d.aoc 0).high = true) :
    d.aocTo 0 false =
      let d1 := d.setAoc 0 { d.aoc 0 with res := true, high := false }
      { d1 with pw := { d1.pw with low := some (d.clk, d.now) } } := by
  refine if_neg ?_
  obtain h | h := h
  · simp [h]
  · simp [h]

/-- Mains present ends the run; a device that is off drives PWR_EN, and neither a record nor an entry comes of it (R425, R433). -/
theorem Dev.mainsUp_keeps (d : Dev) :
    d.mainsUp.pw.low = none ∧ d.mainsUp.evr = d.evr ∧ d.mainsUp.led = d.led ∧ d.mainsUp.pw.hu = d.pw.hu := by
  unfold Dev.mainsUp
  extract_lets
  split
  · exact ⟨rfl, rfl, rfl, rfl⟩
  · exact ⟨rfl, rfl, rfl, rfl⟩

/-- A run ends at the crossing of AOC0 back above VTH_H, a choice of the model for R425 (SPEC.md). -/
theorem Dev.aocTo_mains_ends_run (d : Dev) :
    (d.aocTo 0 true).pw.low = none ∧ (d.aocTo 0 true).evr = d.evr ∧ (d.aocTo 0 true).led = d.led ∧
      (d.aocTo 0 true).pw.hu = d.pw.hu :=
  (d.setAoc 0 { d.aoc 0 with res := true, high := true }).mainsUp_keeps

/-- No crossing of AOC0 touches a sequence that runs (R425). -/
theorem Dev.hu_aocTo_mains (d : Dev) (up : Bool) : (d.aocTo 0 up).pw.hu = d.pw.hu := by
  cases up with
  | true =>
    obtain ⟨-, -, -, hhu⟩ := d.aocTo_mains_ends_run
    exact hhu
  | false => exact (apply_ite (fun x : Dev => x.pw.hu) ..).trans (ite_self _)

/-- Settles O57: MAINS_LOSS acts on a run that has lasted through the filter and on nothing else, and no crossing of AOC0 touches
the sequence. -/
theorem mainsIsLostByItsFilter : Obligations.MainsIsLostByItsFilter := by
  intro t s d
  refine ⟨fun hhigh => ?_, fun hnone => ?_, fun c tL hlow => ⟨fun hwithin => ?_, fun hpassed hidle hpowered hphase hheld => ?_⟩, ?_,
    fun hruns => ⟨?_, ?_⟩⟩
  · refine ⟨_, exec_comparatorCrossing_mains t false s, ?_⟩
    rw [Dev.aocTo_mains_begins_run hhigh]
    exact ⟨rfl, rfl, rfl, rfl⟩
  · exact exec_mainsLoss_ignored fun c tL hlow => nomatch hnone.symm.trans hlow
  · refine exec_mainsLoss_ignored fun c' tL' hlow' => .inl ?_
    obtain ⟨rfl, rfl⟩ := Prod.mk.inj (Option.some.inj (hlow.symm.trans hlow'))
    exact hwithin
  · refine ⟨_, ⟨tL, c, 4, false, false, false⟩, exec_mainsLoss_declared hlow hpassed hidle hpowered hphase hheld, ?_, rfl, rfl⟩
    dsimp only
    exact Dev.hu_holdupStart ..
  · refine ⟨_, exec_comparatorCrossing_mains t true s, ?_⟩
    dsimp only
    exact Dev.aocTo_mains_ends_run _
  · exact exec_mainsLoss_ignored fun _ _ _ => .inr hruns
  · refine ⟨_, exec_comparatorCrossing_mains t false s, ?_⟩
    dsimp only
    exact Dev.hu_aocTo_mains ..

end Sys2Proof.Machine
